-- ==== Sys2Proof/Word.lean ====
section
/-! DEFINITION. The word types of the T6403: registers are 32 bits wide (R6), stamps and instruction words 64 bits,
NV code words 128 bits. Nothing else stands here. -/

namespace Sys2Proof

/-- A register word (R6). -/
abbrev Word := BitVec 32

/-- A 64-bit quantity: a Yunor instruction word (R80), a short stamp (R39), a channel mask. -/
abbrev DWord := BitVec 64

/-- A byte. -/
abbrev Byte := BitVec 8

/-- A 128-bit quantity: an NV code word (R391), a timing set (R131), a FAT entry with its padding (R182). -/
abbrev QWord := BitVec 128

end Sys2Proof
end

