-- ==== Sys2Proof/Machine/Status.lean ====
section
/-! DEFINITION. The status code space shared by commands, NoC error responses and event payloads (R9, Table 14-3). -/

namespace Sys2Proof.Machine

/-- The status codes of Table 14-3, in code order; codes 0x20 to 0xFF are never returned (R9). -/
inductive Status where
  | ok | badOpcode | badLength | badOperand | busy | modeDenied | lifecycleDenied | txnAborted
  | timeout | mediaError | streamError | fenced | noRoute | wakePending | refused | errLenExceeds
  | isProtected | bankSelf | eraseSuspended | reprogram | tokenInvalid | late | notPresent | underrun
  | contention | deviceMismatch | shortStream | selfTestActive | outOfStep | halted | aborted | infeasible
  deriving DecidableEq, Repr

/-- The code of a status (Table 14-3). -/
def Status.code : Status → Nat
  | .ok => 0x00 | .badOpcode => 0x01 | .badLength => 0x02 | .badOperand => 0x03
  | .busy => 0x04 | .modeDenied => 0x05 | .lifecycleDenied => 0x06 | .txnAborted => 0x07
  | .timeout => 0x08 | .mediaError => 0x09 | .streamError => 0x0A | .fenced => 0x0B
  | .noRoute => 0x0C | .wakePending => 0x0D | .refused => 0x0E | .errLenExceeds => 0x0F
  | .isProtected => 0x10 | .bankSelf => 0x11 | .eraseSuspended => 0x12 | .reprogram => 0x13
  | .tokenInvalid => 0x14 | .late => 0x15 | .notPresent => 0x16 | .underrun => 0x17
  | .contention => 0x18 | .deviceMismatch => 0x19 | .shortStream => 0x1A | .selfTestActive => 0x1B
  | .outOfStep => 0x1C | .halted => 0x1D | .aborted => 0x1E | .infeasible => 0x1F

end Sys2Proof.Machine
end

