-- ==== Sys2Proof/Syntax.lean ====
section
/-! DEFINITION. The commands of the T6403: `Instr` has one constructor per row of spec/opcode_table.json, in the
table's order, with the operands that the row's rule gives it. A happening that depends on the world outside the device
(a sample of a comparator, a measured period, the outcome of a DMA) carries what the world answers as an operand. -/

namespace Sys2Proof

/-- A Tuivar Command Instruction as it reaches the Steward (R322): the queue it came from, its tag word, the flags and
reserved bits of its header, and its operand words W1 to WLENGTH. -/
structure Tci where
  q : Fin 4 := 0
  tag : Word := 0
  notify : Bool := false
  quiet : Bool := false
  fence : Bool := false
  rsvd : BitVec 5 := 0
  words : List Word := []
  deriving DecidableEq, Repr

/-- How the host answered the DMA of a command (R318): with the data, with UR or CA, with a poisoned TLP, or not in time. -/
inductive Dma where
  | done | unsupported | abort | poisoned | timeout
  deriving DecidableEq, Repr

/-- The comparator returns of all channels at the two strobes of one vector (bit c: channel c, R141), and, where SAFE_N
cuts the vector, the offset of the cut from its start in LSB (R144). -/
structure Strobe where
  chA : DWord := 0
  clA : DWord := 0
  chB : DWord := 0
  clB : DWord := 0
  cut : Option Nat := none
  deriving DecidableEq, Repr

/-- The scope of a distributed commit (R230). -/
inductive Scope where
  | all
  | subtree (a : BitVec 10)
  | list (l : List (BitVec 10))
  | group (g : BitVec 8)
  deriving DecidableEq, Repr

/-- A BEAT frame's payload (Table 11-4), with its OFFSET in 1/64 UI. -/
structure Mark where
  epoch : BitVec 8 := 0
  announce : Bool := false
  hold : Bool := false
  rld : Bool := false
  auto : Bool := false
  gci : BitVec 48 := 0
  offset : BitVec 16 := 0
  rldGci : BitVec 48 := 0
  newGci : BitVec 48 := 0
  deriving DecidableEq, Repr

/-- A directory entry of a TOPO frame (Table 11-15). -/
structure TopoEnt where
  addr : BitVec 10
  present : Bool := true
  eligible : Bool := false
  depth : BitVec 4 := 0
  parent : BitVec 10 := 0
  latPs : BitVec 20 := 0
  deriving DecidableEq, Repr

/-- What a Byith frame carries (Table 11-3). -/
inductive ByMsg where
  | mark (m : Mark)
  | prepare (xid : Word) (epoch : BitVec 8) (gci : BitVec 48) (scope : Scope)
  | vote (xid : Word) (yes : Bool) (status : Machine.Status) (dNs : BitVec 15)
  | decision (xid : Word) (commit : Bool) (cause : Machine.Status) (detail : BitVec 16) (scope : Scope)
  | hello (uid : DWord) (addr : Option (BitVec 10)) (depth : BitVec 4) (root : Bool) (free : BitVec 2)
  | echoReq (t : DWord)
  | echoRsp (t : DWord) (turn : BitVec 32)
  | joinReq (uid : DWord) (parent : BitVec 10) (depth : BitVec 5) (latPs : BitVec 20)
  | joinAck (uid : DWord) (addr : BitVec 10)
  | joinRefuse (uid : DWord) (status : Machine.Status)
  | ready (addr : BitVec 10)
  | notReady (addr : BitVec 10) (reason : BitVec 8)
  | leave (addr : BitVec 10)
  | topo (l : List TopoEnt) (announce : Bool)
  | summary (w : QWord)
  | event (w : BitVec 256)
  | ack
  deriving DecidableEq, Repr

/-- The direction of a frame (Table 11-2). -/
inductive ByDir where
  | hop | up | down | bcast
  deriving DecidableEq, Repr

/-- A Byith frame (R241). -/
structure Frame where
  dir : ByDir := .hop
  dst : BitVec 10 := 0
  src : BitVec 10 := 0
  seq : BitVec 8 := 0
  msg : ByMsg
  deriving DecidableEq, Repr

/-- A 66-bit block of a Byith lane (R239): sync header 1 data, 2 control. -/
structure Block where
  lane : Bool := false
  sync : BitVec 2 := 1
  bits : DWord := 0
  deriving DecidableEq, Repr

/-- What a port receives, in the order of the line: the last 58 line bits of each lane before it, and scrambled blocks. -/
structure Received where
  line0 : BitVec 58 := 0
  line1 : BitVec 58 := 0
  blocks : List Block := []
  deriving DecidableEq, Repr

/-- Why a loop lost lock (Table 16-4), with the last window's count difference or phase error. -/
inductive LossCause where
  | difference | noReference | dllPhase
  deriving DecidableEq, Repr

/-- What the verify of a program found in the media (R394, R426): passed with the given corrected bits, or failed. -/
inductive Verify where
  | passed (cbits : BitVec 4)
  | failed
  deriving DecidableEq, Repr

/-- A NoC packet (R346, Table 15-5): a request as its target receives it, or a response. `cycle` is the SPLL0 cycle that
a Lens probe stamps it with. -/
structure Packet where
  dx : BitVec 3 := 0
  dy : BitVec 3 := 0
  tag : BitVec 10 := 0
  src : BitVec 6 := 0
  len : BitVec 6 := 0
  be : BitVec 16 := 0xFFFF
  addr : BitVec 48 := 0
  status : BitVec 8 := 0
  data : List QWord := []
  cycle : BitVec 48 := 0
  deriving DecidableEq, Repr

/-- An access of host software to BAR0 or BAR2 (R21 to R25): its offset, its size in bytes, the bytes that a write
enables (bit i: byte i of the access) and its data words. -/
structure Access where
  bar2 : Bool := false
  off : BitVec 30 := 0
  size : Nat := 4
  be : Nat := 15
  data : List Word := []
  deriving DecidableEq, Repr

/-- What Breeze does in a breeze slot of a channel (R152, R153): arm the TDC for an edge type, take a captured edge, inject
a pulse that gives a rising and a falling sample, or take a loopback sample. Samples are in 1/128 ECLK. -/
inductive Sample where
  | arm (typ : Fin 4)
  | capture (v : Int)
  | inject (rise fall : Int)
  | loopback (v : Int)
  deriving DecidableEq, Repr

/-- What a full sweep measured on one entry: the channel, the edge type and the error in 1/64 ECLK (R172). -/
structure SweepRes where
  ch : Fin 64
  typ : Fin 5
  err : Int
  deriving DecidableEq, Repr

/-- What reaches the elements of the fabric at an edge of a global net, and with it what the border shows: the spec does
not give the place of a frame's bits, so what the routing inside a region carries is an operand (log 7). An element that
is not listed has every such input at 0. -/
inductive FabIn where
  /-- Inputs I0 to I5 of LUT `k` of a tile. -/
  | lut (tile : Nat) (k : Fin 8) (ins : BitVec 6)
  /-- The bypass input of flip-flop `i`. -/
  | bypass (tile : Nat) (i : Fin 16) (v : Bool)
  /-- Clock enable and set-reset of half `h`. -/
  | half (tile : Nat) (h : Fin 2) (ce sr : Bool)
  /-- The inputs of a word cell. -/
  | cell (tile : Nat) (a b : BitVec 16) (ctl : BitVec 2) (ce cin : Bool)
  /-- A port of a block memory; `clash`: the other port, on another net, had its edge less than 0.40 ns before. -/
  | mem (region : Fin 16) (bm : Fin 24) (port : Fin 2) (en : Bool) (we : BitVec 8) (addr : BitVec 15) (data : BitVec 72)
      (clash : Bool)
  /-- The FABF and SCRINV lines that logic drives at the port of engine `n`. -/
  | lines (n : Fin 64) (fabf scrinv : Bool)
  /-- User logic asserts ready at the FAT hook. -/
  | hookReady
  /-- User logic asserts ready at NoC port `p` for a unit of a request (R286). -/
  | portReady (p : Fin 4)
  /-- What the multiplexer of a general routing line across border `b` gives: line `l` eastward or westward (R276). -/
  | route (b : Fin 15) (east : Bool) (l : Fin 3072) (v : Bool)
  /-- What logic gives the enabled driver of spine segment `i` (32 × band + track) of border `b` (R277). -/
  | spine (b : Fin 15) (i : Fin 256) (v : Bool)
  /-- What logic drives at user I/O ball `u`; none: it does not drive it. -/
  | uio (u : Fin 16) (v : Option Bool)
  deriving DecidableEq, Repr

/-- The boundary register: the pins that R473 names, a PEB pin pair as SCL and SDA of PEB0, then of PEB1. An active-low pin
stands with its level. -/
structure Bsr where
  dOut : DWord := 0
  eOut : DWord := 0
  ch : DWord := 0
  cl : DWord := 0
  uio : BitVec 16 := 0
  presN : BitVec 4 := 0
  peb : BitVec 4 := 0
  resetN : Bool := false
  safeN : Bool := false
  confDone : Bool := false
  confErr : Bool := false
  alertN : Bool := false
  logfail : Bool := false
  deriving DecidableEq, Repr

/-- A target that answers on a partner bus (R457 to R459): its bus, its provisional ID or, for a legacy I2C target, its
static address from 0x50, and the bytes that a read of its descriptor returns (none where it answers with none). -/
structure BusTarget where
  bus : Bool := false
  legacy : Option (Fin 8) := none
  pid : BitVec 48 := 0
  desc : List Byte := []
  deriving DecidableEq, Repr

/-- The commands: one constructor per row of spec/opcode_table.json. -/
inductive Instr where
  /-- VEC (R86): Engine issues a VEC instruction and produces REPEAT_M1 + 1 vectors with the immediate symbol pair. -/
  | vec (n : Fin 64) (dut : List Strobe)
  /-- VGEN (R113): Engine forms one vector from the generators through the Pin Map, then applies XOPC, YOPC and DGOPC. -/
  | vgen (n : Fin 64) (dut : Strobe)
  /-- VSTR (R88): Engine produces COUNT_M1 + 1 vectors from its stream FIFO, or stops with UNDERRUN_STREAM when data is missing. -/
  | vstr (n : Fin 64) (dut : List Strobe)
  /-- VHOLD (R114): Engine issues hold vectors until the condition becomes true or the repeat count runs out. -/
  | vhold (n : Fin 64) (k : Nat)
  /-- BRZ (R115): Engine declares COUNT_M1 + 1 idle breeze slots without forming vectors. -/
  | brz (n : Fin 64)
  /-- NOP (R112): Engine does nothing for one issue ECLK. -/
  | nop (n : Fin 64)
  /-- JMP (R118): Engine sets PC to ADDR. -/
  | jmp (n : Fin 64)
  /-- JSR (R118): Engine pushes the return address and jumps, or stops with STACK when RSP is 16. -/
  | jsr (n : Fin 64)
  /-- RTS (R118): Engine pops the return address into the active page, or stops with STACK when RSP is 0. -/
  | rts (n : Fin 64)
  /-- BRC (R118): Engine branches when COND XOR INV is true, waiting for the fail decision on fail conditions. -/
  | brc (n : Fin 64)
  /-- LOOP (R119): Engine decrements the loop counter and returns to TOP, or falls through when it is zero. -/
  | loop (n : Fin 64)
  /-- MLOOP (R120): Engine checks the match body and repeats it until the final vector passes or the count expires. -/
  | mloop (n : Fin 64)
  /-- PAGE (R83): Engine swaps program pages and continues at ENTRY, or stops with UNDERRUN_PAGE when SVALID is 0. -/
  | page (n : Fin 64)
  /-- HALT (R96): Engine stops with cause HALT. -/
  | halt (n : Fin 64)
  /-- LDI (R122): Engine writes an immediate into the selected register. -/
  | ldi (n : Fin 64)
  /-- ALU (R122): Engine computes RD = RA op RB and sets the flags. -/
  | alu (n : Fin 64)
  /-- ALUI (R122): Engine computes RD = RA op IMM and sets the flags. -/
  | alui (n : Fin 64)
  /-- XOP (R116): Engine applies a generator operation to XA. -/
  | xop (n : Fin 64)
  /-- YOP (R116): Engine applies a generator operation to YA. -/
  | yop (n : Fin 64)
  /-- DGOP (R117): Engine applies a data generator operation to DG. -/
  | dgop (n : Fin 64)
  /-- MAP (R123): Engine selects the Pin Map index for the vectors that start after it. -/
  | map (n : Fin 64)
  /-- MOV (R122): Engine copies the source register into the destination register. -/
  | mov (n : Fin 64)
  /-- WAITG (R124): Engine enters WAIT for a named (EPOCH, GCI), or raises LATE or BAD_OPERAND and keeps waiting. -/
  | waitg (n : Fin 64)
  /-- SYNC (R125): Engine enters a SYNC rendezvous with a normalised mask. -/
  | sync (n : Fin 64)
  /-- SYNC_TIMEOUT (R126): The SYNC timeout expires, and the engine leaves SYNC with Z = 0 and raises TIMEOUT. -/
  | syncTimeout (n : Fin 64)
  /-- FCTL_ENABLE (R127): Fail bits of the source form fail entries from the next vector. -/
  | fctlEnable (n : Fin 64)
  /-- FCTL_DISABLE (R127): Fail bits of the source stop forming fail entries. -/
  | fctlDisable (n : Fin 64)
  /-- FCTL_BLOCK_START (R204): The source opens a repair region, closing any region it held open, and restarts its vector count. -/
  | fctlBlockStart (n : Fin 64)
  /-- FCTL_BLOCK_END (R204): The source closes a repair region that it holds open and makes a close point. -/
  | fctlBlockEnd (n : Fin 64)
  /-- FCTL_MARK (R179): The source writes a MARK marker entry carrying CODE. -/
  | fctlMark (n : Fin 64)
  /-- FCTL_FLUSH (R127): The source pushes the collector's buffered entries and counters to the FAT. -/
  | fctlFlush (n : Fin 64)
  /-- FCTL_CLRSTK (R127): The engine waits for the fail decision and clears FSTK. -/
  | fctlClrstk (n : Fin 64)
  /-- MASK (R128): Engine writes the dynamic compare masks of its channels. -/
  | mask (n : Fin 64)
  /-- ATTN (R129): Engine raises its attention event with CODE at the commit point and continues. -/
  | attn (n : Fin 64)
  /-- FXFER (R130): Engine presents FXOUT and/or reads FXIN over its fabric port. -/
  | fxfer (n : Fin 64)
  /-- FAIL_DECISION (R76): The fail decision of a vector reaches the fetch unit 15 ECLK after its last unmasked strobe, setting FAIL and FSTK. -/
  | failDecision (n : Fin 64)
  /-- STOP_BOUNDARY (R96): At the stop boundary the engine enters STOPPED, records the cause, stamps and raises its attention event. -/
  | stopBoundary (n : Fin 64) (parity : Bool)
  /-- FAIL_ENTRY (R175): A collector receives a failing vector's fail bits and forms a FAIL entry or compacts it. -/
  | failEntry (k : Fin 8)
  /-- COMPACTION_EXIT (R193): An ECLK begins with fewer than 2,048 FIFO entries, and the collector queues OVF entries and leaves compaction. -/
  | compactionExit (k : Fin 8)
  /-- FAT_INGEST (R185): In an SPLL0 cycle the FAT takes the entries that collector output stages present. -/
  | fatIngest (present : List Nat)
  /-- REGION_CLOSE (R204): Every collector has delivered up to the close point, and the region leaves CLOSING for QUEUED or CLOSED. -/
  | regionClose (r : Fin 4096)
  /-- FAT_CLEAR_DONE (R198): A mode selection finishes clearing the table, raises EV75 and answers OK. -/
  | fatClearDone
  /-- RAE_ANALYSIS_START (R205): The RAE takes the next queued region and starts its analysis. -/
  | raeAnalysisStart
  /-- GATHER_DONE (R206): The RAE finishes the gather pass over the FAT. -/
  | gatherDone
  /-- MUST_REPAIR_DONE (R207): The must-repair pass ends with an outcome or the start of the search. -/
  | mustRepairDone
  /-- SEARCH_DONE (R208): The depth-first search ends by solution, exhaustion or budget. -/
  | searchDone
  /-- RECORD_WRITE (R210): The RAE writes a solution record into the host ring when space and RING_EN allow, and raises EV76. -/
  | recordWrite
  /-- BEAT_BOUNDARY (R34): A beat boundary increments the GCI and applies committed actions, Breeze effects and engine releases in order. -/
  | beatBoundary (per : BitVec 24)
  /-- AUTO_RELOAD_ANNOUNCE (R44): The root's GCI reaches 0xFFFF_FFFF_0000 and the automatic reload is announced. -/
  | autoReloadAnnounce
  /-- STEP_BOUNDARY (R161): The 8-bit step counter wraps and Breeze makes micro-steps and jumps. -/
  | stepBoundary
  /-- MEASUREMENT_DONE (R155): The 256th sample of an entry arrives, setting TARGET and MVALID or out of range. -/
  | measurementDone (c : Fin 64) (t : Fin 5)
  /-- BREEZE_SAMPLE (R152): The TDC or loopback sampler takes a sample in a breeze slot, after its reference self-check. -/
  | breezeSample (c : Fin 64) (x : Sample) (ok : Bool)
  /-- ARM_LAPSE (R152): A capture arm captures nothing within 256 ECLK and lapses. -/
  | armLapse (q : Fin 16)
  /-- OM2_WINDOW (R169): A GCI multiple of INTV in OM2 with STEAL = 1 makes every running engine take a 512 ECLK window. -/
  | om2Window
  /-- WINDOW_CHECK (R170): With STEAL = 0 the interval ending at a GCI multiple of INTV is judged and misses are flagged. -/
  | windowCheck
  /-- HOLDOFF_END (R167): 4,096 beats after a ramp ends, rescaled corrections are written and Breeze resumes. -/
  | holdoffEnd
  /-- SWEEP_DONE (R172): A full sweep ends and sets CORR = TARGET on swept entries. -/
  | sweepDone (res : List SweepRes)
  /-- SWEEP_REPEAT (R168): In OM0 a full sweep starts every 1 ms on sweep-enabled channels. -/
  | sweepRepeat
  /-- RAMP_DEV_CHECK (R52): Every 1,024 beats of a ramp the beat period is compared with the profile, ending the ramp on deviation. -/
  | rampDevCheck (meas : BitVec 24)
  /-- RAMP_SEGMENT_END (R48): The beat count of a ramp segment runs out and the next segment starts or the ramp ends. -/
  | rampSegmentEnd
  /-- LOCK (R359): A PLL-kind loop's lock detector declares lock. -/
  | lock (pll : Fin 6) (band : BitVec 6) (cw : BitVec 16) (d1 d2 d3 diff : BitVec 8) (table : List (BitVec 16))
  /-- DLL_LOCK (R360): A DLL declares lock after four windows within ±2 phase steps. -/
  | dllLock (pll : Fin 6) (d1 d2 d3 diff : BitVec 8)
  /-- LOCK_LOSS (R368): A loop loses lock and enters holdover, stopping engines fed by a TPLL. -/
  | lockLoss (pll : Fin 6) (cause : LossCause) (diff : BitVec 8) (cw : BitVec 16)
  /-- BAND_FAIL (R358): A loop has not locked within 200 µs, EV120 fires and the search repeats. -/
  | bandFail (pll : Fin 6) (table : List (BitVec 16))
  /-- HOLD_EXPIRED (R368): Holdover exceeds 100 µs, HOLDEXP sets and EV126 fires. -/
  | holdExpired (pll : Fin 6)
  /-- TRACK_TIMEOUT (R369): A tracking TPLL has not locked within 1 ms, gates its output and runs a band search. -/
  | trackTimeout (pll : Fin 6)
  /-- FMAX_TRIP (R366): The period checker suppresses an edge shorter than MINPER. -/
  | fmaxTrip (pll : Fin 6)
  /-- SPREAD_APEX (R365): At the triangle apex a pending spread depth and seed apply. -/
  | spreadApex
  /-- ROLE_WINDOW_END (R28): 100 µs after RESET_N release the device fixes its role as root or downstream. -/
  | roleWindowEnd (clock : Bool)
  /-- MARK (R251): A downstream device receives a BEAT frame and places and checks the marked beat edge. -/
  | mark (p : Fin 4) (f : Frame) (arr : BitVec 32)
  /-- MARK_SEND (R250): At each beat whose GCI is a multiple of 256 the device sends BEAT frames downstream. -/
  | markSend (offset : BitVec 16)
  /-- MARK_MISSING (R253): An expected marker is missing, and the fourth in a row clears ALIGNED. -/
  | markMissing
  /-- PREPARE (R231): A participant receives PREPARE, fences its power groups and votes. -/
  | prepare (p : Fin 4) (f : Frame)
  /-- VOTE (R232): The coordinator receives a vote and decides when all are in or one is NO. -/
  | vote (p : Fin 4) (f : Frame)
  /-- DECISION (R233): A VOTED participant receives COMMIT or ABORT, or ignores a late one with EV168. -/
  | decision (p : Fin 4) (f : Frame)
  /-- VOTE_TIMEOUT (R232): VOTE_TMO elapses without every vote and the coordinator decides ABORT with TIMEOUT. -/
  | voteTimeout (t : Fin 8)
  /-- COORDINATOR_LATE (R232): The time left to the target falls below L + Dmax and the coordinator decides ABORT with LATE. -/
  | coordinatorLate (t : Fin 8)
  /-- DELIVERY_START (R223): Delivery of a local AT_GCI commit starts at the latest boundary D + 1 µs before the target. -/
  | deliveryStart (t : Fin 8)
  /-- DELIVERY_DONE (R223): Every action of a committed transaction has been placed in its block. -/
  | deliveryDone (t : Fin 8)
  /-- HELLO (R244): A port receives HELLO and chooses its role. -/
  | hello (p : Fin 4) (f : Frame)
  /-- ECHO_SEND (R248): A downstream device sends one ECHO_REQ per µs on its upstream port. -/
  | echoSend (t : DWord)
  /-- ECHO_REQ (R248): A port receives ECHO_REQ and answers ECHO_RSP with its turnaround. -/
  | echoReq (p : Fin 4) (f : Frame) (turn : BitVec 32)
  /-- ECHO_RSP (R248): A downstream device receives ECHO_RSP and updates the hop latency mean. -/
  | echoRsp (p : Fin 4) (f : Frame) (rtt : BitVec 32)
  /-- JOIN_REQ (R245): The root receives JOIN_REQ and assigns an address or refuses. -/
  | joinReq (p : Fin 4) (f : Frame)
  /-- JOIN_ACK (R249): A device receives its address and starts alignment. -/
  | joinAck (p : Fin 4) (f : Frame)
  /-- JOIN_REFUSE (R245): A device receives a refusal and sets JSTATE to REFUSED. -/
  | joinRefuse (p : Fin 4) (f : Frame)
  /-- JOIN_RETRY (R245): A refused device retries its JOIN_REQ every 10 ms. -/
  | joinRetry
  /-- READY (R254): The root receives READY and notes the device for the next announcement. -/
  | ready (p : Fin 4) (f : Frame)
  /-- NOTREADY (R254): The root receives NOTREADY and makes the device ineligible. -/
  | notready (p : Fin 4) (f : Frame)
  /-- LEAVE (R255): The root receives LEAVE, frees the departed subtree's addresses and broadcasts TOPO. -/
  | leave (p : Fin 4) (f : Frame)
  /-- TOPO (R246): A device receives TOPO and updates its directory, raising the leave event when needed. -/
  | topo (p : Fin 4) (f : Frame)
  /-- SUMMARY (R260): The root receives a SUMMARY frame and writes it into BYT_SUMTAB. -/
  | summary (p : Fin 4) (f : Frame)
  /-- EVENT (R260): The root receives a forwarded EVENT frame and adds it to the forwarded event ring. -/
  | event (p : Fin 4) (f : Frame)
  /-- ACK (R242): A sender receives the ACK of a CTRL or DISC frame. -/
  | ack (p : Fin 4) (f : Frame)
  /-- ACK_TIMEOUT (R242): No ACK arrives within 200 ns, the frame is resent or the port is declared down. -/
  | ackTimeout (p : Fin 4) (seq : BitVec 8)
  /-- TRAINING_STAGE_DONE (R247): A port completes a training stage. -/
  | trainingStageDone (p : Fin 4)
  /-- TRAINING_TIMEOUT (R247): A training stage misses its maximum time and the port restarts training. -/
  | trainingTimeout (p : Fin 4)
  /-- PORT_DOWN (R255): A port loses block lock or valid blocks and is declared down. -/
  | portDown (p : Fin 4)
  /-- READ (R346): A target receives a READ packet and answers RESP or ERR_RESP. -/
  | read (p : Packet)
  /-- WRITE (R346): A target receives a WRITE packet and answers RESP or ERR_RESP. -/
  | write (p : Packet)
  /-- WRITE_POSTED (R351): A target receives a WRITE_POSTED packet, or it is dropped and counted. -/
  | writePosted (p : Packet)
  /-- RESP (R352): An initiator receives a RESP and frees its tag, or discards a late one. -/
  | resp (origin : Fin 36) (p : Packet)
  /-- ERR_RESP (R351): An initiator receives an error response for its tag. -/
  | errResp (origin : Fin 36) (p : Packet)
  /-- ATOMIC_OR (R346): An SRAM-like target ORs a value and returns the old value. -/
  | atomicOr (p : Packet)
  /-- ATOMIC_ADD (R346): An SRAM-like target adds a value and returns the old value. -/
  | atomicAdd (p : Packet)
  /-- ATOMIC_SWAP (R346): An SRAM-like target swaps a value and returns the old value. -/
  | atomicSwap (p : Packet)
  /-- ATOMIC_CAS (R346): An SRAM-like target compares and swaps and returns the old value. -/
  | atomicCas (p : Packet)
  /-- FLUSH (R346): A target answers once every earlier write of the SRC is complete. -/
  | flush (p : Packet)
  /-- NOC_TIMEOUT (R352): An initiator's request times out and a TIMEOUT response is synthesised. -/
  | nocTimeout (src : Fin 64) (tag : Fin 1024)
  /-- DRAIN_TIMEOUT (R353): A drain exceeds NOC_DRAIN and the domain unfences and refuses. -/
  | drainTimeout (n : Fin 40)
  /-- FENCE_COMPLETE (R382): A domain's drain completes and it agrees or refuses the power request. -/
  | fenceComplete (n : Fin 40)
  /-- RESTORE_DONE (R386): A domain finishes its restore sequence, opens its NoC edge and EV179 fires. -/
  | restoreDone (n : Fin 40)
  /-- ENTRY_DONE (R385): A domain finishes its entry sequence into Retention or Off. -/
  | entryDone (n : Fin 40)
  /-- WAKE (R387): An enabled wake source fires for a sleeping domain and its restore starts. -/
  | wake (n : Fin 40) (src : Fin 5) (lost : Bool)
  /-- PWR_TIMER_EXPIRED (R387): PWR_TIMER counts to zero and EXPIRED sets. -/
  | pwrTimerExpired
  /-- POWER_ON (R308): VIN rises through the lockout threshold and the power-on sequence runs. -/
  | powerOn (globErr vref33 : Bool) (planeErr : BitVec 16) (upto : Fin 8)
  /-- LOCKOUT (R374): VIN falls through the lockout threshold and the device shuts down. -/
  | lockout
  /-- DROOP (R375): VIN falls below the droop threshold, DROOP sets and EV248 fires. -/
  | droop (mv : Nat)
  /-- DROOP_CLEAR (R375): VIN rises 200 mV above the threshold and DROOP clears. -/
  | droopClear (mv : Nat)
  /-- RAIL_FAULT (R377): A rail leaves its window, sets its fault bit or engages the lockout. -/
  | railFault (rail : Fin 8) (deep : Bool)
  /-- THERMAL (R414): The junction sensor crosses a threshold and EV249 fires with HOT, OVER or NORMAL. -/
  | thermal (temp : Int)
  /-- THERMAL_SHUTDOWN (R495): The sensor reads 130 °C or more and the lockout response applies. -/
  | thermalShutdown (temp : Int)
  /-- RESET_N_ASSERT (R487): RESET_N is asserted and the device resets. -/
  | resetNAssert
  /-- RESET_N_RELEASE (R57): RESET_N is released and the device starts in OM0. -/
  | resetNRelease (globErr : Bool) (planeErr : BitVec 16) (upto : Fin 8)
  /-- SAFE_N_ASSERT (R144): SAFE_N is asserted, channels go safe within 20 ns and engines stop with SAFE. -/
  | safeNAssert
  /-- SAFE_N_RELEASE (R414): SAFE_N is released and EV253 fires with RELEASED. -/
  | safeNRelease
  /-- PRES_N_CHANGE (R462): A PRES_N edge starts discovery or polls the slot's partners. -/
  | presNChange (card : Fin 4) (level : Bool) (ans : DWord)
  /-- PCIE_RESET (R316): FLR, hot reset or DL_Down resets the CMD block only. -/
  | pcieReset (link : Option (Fin 3 × Fin 4))
  /-- TAP_RESET (R487): TRST_N resets the TAP. -/
  | tapReset
  /-- WATCHDOG (R338): The Steward watchdog expires and the Steward restarts. -/
  | watchdog
  /-- STEWARD_MEMERR (R338): An uncorrectable Steward SRAM read restarts the Steward. -/
  | stewardMemerr
  /-- RESTART_DONE (R339): A Steward restart ends, queues return to RUN and EV255 fires. -/
  | restartDone
  /-- DOORBELL (R320): Host software writes CMD_CQ_TAIL, accepted or dropped with DBERR. -/
  | doorbell (q : Fin 4) (w : Word)
  /-- RQ_HEAD_WRITE (R320): Host software writes CMD_RQ_HEAD to free response space. -/
  | rqHeadWrite (q : Fin 4) (w : Word)
  /-- CQ_CTL_WRITE (R319): Host software writes CMD_CQ_CTL to enable, relocate or resize a queue. -/
  | cqCtlWrite (q : Fin 4) (w : Word)
  /-- CQ_RESET (R324): Writing RESET with EN = 0 zeroes the queue pointers and disables it. -/
  | cqReset (q : Fin 4)
  /-- COMMAND_FETCH (R323): The Steward reads a command header and tag and consumes the command once all words are present. -/
  | commandFetch (q : Fin 4) (x : Dma)
  /-- RESPONSE_POST (R326): A completed command's response is written when the response ring has room. -/
  | responsePost (q : Fin 4)
  /-- NOTIFY_TIMER (R326): The coalescing time expires and EV254 fires. -/
  | notifyTimer (q : Fin 4)
  /-- SYS_NOP (R331): Command answers OK. -/
  | sysNop (c : Tci)
  /-- SYS_INFO (R331): Command returns SYS_IDCODE, life-cycle state and mode. -/
  | sysInfo (c : Tci)
  /-- SYS_GCI (R331): Command returns the current stamp. -/
  | sysGci (c : Tci)
  /-- SYS_ECHO (R331): Command returns its two operands. -/
  | sysEcho (c : Tci)
  /-- ENG_START (R332): Command starts named engines at the first boundary at least 1 µs later. -/
  | engStart (c : Tci)
  /-- ENG_RESUME (R333): Command resumes stopped engines at their PC. -/
  | engResume (c : Tci)
  /-- ENG_HALT (R333): Command stops named running engines with cause HOST. -/
  | engHalt (c : Tci)
  /-- ENG_RELEASE (R333): Command releases named waiting engines at the next boundary. -/
  | engRelease (c : Tci)
  /-- ENG_PAGE_SWAP (R83): Command swaps the pages of a halted engine. -/
  | engPageSwap (c : Tci)
  /-- ENG_REFILL (R334): Command loads an engine's shadow page from vector memory or the NV store. -/
  | engRefill (c : Tci)
  /-- REFILL_TRANSFER (R84): The quad's refill port moves up to 512 bytes for the requester whose turn it is. -/
  | refillTransfer (q : Fin 16)
  /-- REFILL_DONE (R85): A refill completes, setting SVALID, or ends with MEDIA_ERROR. -/
  | refillDone (n : Fin 64)
  /-- REFILL_DEADLINE (R85): A refill misses its deadline and the engine stops with UNDERRUN_PAGE. -/
  | refillDeadline (n : Fin 64)
  /-- ENG_GANG (R90): Command forms or dissolves a gang. -/
  | engGang (c : Tci)
  /-- ENG_STREAM (R471): Command arms a stream from vector memory to an engine. -/
  | engStream (c : Tci)
  /-- STREAM_FETCH (R472): The stream unit fetches 64 bytes into an armed engine's FIFO, ending the stream at its last byte. -/
  | streamFetch (n : Fin 64)
  /-- TIM_SET_MULT (R335): Command sets N and relocks the TPLLs. -/
  | timSetMult (c : Tci)
  /-- TIM_SPREAD (R365): Command sets spread depth and seed for the next apex. -/
  | timSpread (c : Tci)
  /-- CAL_SWEEP (R172): Command runs a full sweep. -/
  | calSweep (c : Tci)
  /-- FCP_MODE (R198): Command selects the FAT mode and clears the table. -/
  | fcpMode (c : Tci)
  /-- FCP_READ (R197): Command copies FAT entries to host memory by DMA. -/
  | fcpRead (c : Tci) (x : Dma)
  /-- RAE_LOAD (R201): Command loads region descriptors. -/
  | raeLoad (c : Tci) (x : Dma)
  /-- RAE_READ (R201): Command copies region descriptors to the host. -/
  | raeRead (c : Tci) (x : Dma)
  /-- RAE_START (R205): Command queues named regions for analysis. -/
  | raeStart (c : Tci)
  /-- RAE_ABORT (R211): Command aborts the analysis and empties the queue. -/
  | raeAbort (c : Tci)
  /-- TXN_OPEN (R217): Command takes the lowest FREE slot. -/
  | txnOpen (c : Tci)
  /-- TXN_STAGE (R219): Command validates and stages action records in an open slot. -/
  | txnStage (c : Tci)
  /-- TXN_COMMIT (R224): Command commits a slot IMMEDIATE, AT_GCI, DISTRIBUTED or JOIN. -/
  | txnCommit (c : Tci)
  /-- TXN_ABORT (R226): Command aborts an OPEN, READY or undelivered AT_GCI slot. -/
  | txnAbort (c : Tci)
  /-- TXN_RELEASE (R236): Command frees an ended slot. -/
  | txnRelease (c : Tci)
  /-- TXN_QUERY (R236): Command returns a slot's status and detail. -/
  | txnQuery (c : Tci)
  /-- TXN_CLEAR_OOS (R234): Command leaves an OUT_OF_STEP caused by a transaction. -/
  | txnClearOos (c : Tci)
  /-- CFG_LOAD (R301): Command loads a configuration stream in two passes. -/
  | cfgLoad (c : Tci) (x : Dma)
  /-- LOAD_PASS1_DONE (R301): Pass 1 checks complete and pass 2 starts. -/
  | loadPass1Done (bad : Option Nat) (x : Dma)
  /-- LOAD_PASS2_DONE (R302): Pass 2 programming completes and the target plane becomes valid or active. -/
  | loadPass2Done (bad : Option Nat) (x : Dma)
  /-- STARTUP_STEP (R306): A start-up step completes, or its delay elapses, and the next slot starts. -/
  | startupStep
  /-- SHADOW_CHECK (R309): The background check of a region's shadow plane completes. -/
  | shadowCheck (r : Fin 16) (ok : Bool)
  /-- ACTIVE_STORE (R292): The new ACTIVE selection is written into the non-volatile store after a swap. -/
  | activeStore
  /-- CFG_SWAP (R291): Command swaps a region's planes at a boundary. -/
  | cfgSwap (c : Tci)
  /-- CFG_ABORT (R311): Command ends the load in progress with ABORTED. -/
  | cfgAbort (c : Tci)
  /-- CFG_KEY_PROG (R300): Command programs a base key into the next OTP generation. -/
  | cfgKeyProg (c : Tci) (v : Verify)
  /-- CFG_ENCONLY (R300): Command blows ENCONLY. -/
  | cfgEnconly (c : Tci)
  /-- HOLD_END (R282): 32 fabric reference cycles end a region's hold and GSR is released. -/
  | holdEnd (r : Fin 16)
  /-- EVENT_LINE (R285): A fabric event line rises and EV80 + l fires. -/
  | eventLine (l : Fin 32) (v : Bool)
  /-- FXIN_WRITE (R95): The fabric writes a new FXIN word, setting FXN. -/
  | fxinWrite (n : Fin 64) (w : DWord)
  /-- BYT_EPOCH_RELOAD (R42): Command requests a GCI reload on the root. -/
  | bytEpochReload (c : Tci)
  /-- BYT_REALIGN (R258): Command clears an OUT_OF_STEP from a count mismatch by realigning. -/
  | bytRealign (c : Tci)
  /-- BYT_PORT_CTL (R262): Command enables, disables or retrains a port. -/
  | bytPortCtl (c : Tci)
  /-- PWR_SET (R388): Command requests a power state for a set of domains. -/
  | pwrSet (c : Tci)
  /-- PWR_QUERY (R388): Command returns domain states. -/
  | pwrQuery (c : Tci)
  /-- BST_RUN (R434): Command queues a self-test. -/
  | bstRun (c : Tci)
  /-- BST_START (R435): The head test's power and save fit and it starts. -/
  | bstStart (drainFail : Bool)
  /-- BST_CHECKPOINT (R438): A test reaches a checkpoint and yields or aborts when required. -/
  | bstCheckpoint (n : Fin 40)
  /-- BST_END (R440): A test ends, writes its results and raises its event. -/
  | bstEnd (n : Fin 40) (pass : Bool) (dur : Word) (cells : List (Word × BitVec 9))
  /-- BST_ABORT (R439): Command removes or stops a domain's test. -/
  | bstAbort (c : Tci)
  /-- BST_REPAIR (R442): Command applies a soft or fuse repair. -/
  | bstRepair (c : Tci) (v : Verify)
  /-- LOG_FREEZE (R429): Command freezes the log. -/
  | logFreeze (c : Tci)
  /-- LOG_RELEASE (R429): Command releases a frozen log. -/
  | logRelease (c : Tci)
  /-- LOG_SEQ (R428): Command returns the oldest and newest sealed SEQ. -/
  | logSeq (c : Tci)
  /-- FREEZE_EFFECT (R429): A pending freeze takes effect when the recorder's operation ends. -/
  | freezeEffect (v : Verify)
  /-- FREEZE_AUTO_RELEASE (R429): A freeze ends automatically 10 s after it took effect. -/
  | freezeAutoRelease
  /-- LOG_RECORD_WRITE (R419): The recorder writes the next waiting record into the log. -/
  | logRecordWrite (v : Verify)
  /-- RECORD_SEAL (R422): An open EVENT record is sealed 1 s after its body was programmed. -/
  | recordSeal (v : Verify)
  /-- OPSEC_TICK (R421): Operating seconds advance by one. -/
  | opsecTick
  /-- OPSEC_STORE (R421): Every 64 s the operating-hours pair is programmed into the store. -/
  | opsecStore (v : Verify)
  /-- LCY_QUERY (R456): Command returns LCY_STAT and LCY_FUSE. -/
  | lcyQuery (c : Tci)
  /-- LCY_TRANSITION (R451): Command checks a token and runs a life-cycle transition with its wipe. -/
  | lcyTransition (c : Tci) (upto : Fin 8)
  /-- NVS_READ (R407): Command copies an NV store range to the host. -/
  | nvsRead (c : Tci) (x : Dma)
  /-- NVS_PROGRAM (R407): Command programs code words from host memory. -/
  | nvsProgram (c : Tci) (x : Dma)
  /-- NVS_ERASE (R407): Command erases one block. -/
  | nvsErase (c : Tci)
  /-- NVS_UNLOCK (R407): Command unlocks a protection zone. -/
  | nvsUnlock (c : Tci)
  /-- STW_VERSION (R331): Command returns the ROM version and patch level. -/
  | stwVersion (c : Tci)
  /-- STW_PATCH (R343): Command activates a patch entry and restarts the Steward. -/
  | stwPatch (c : Tci)
  /-- STW_INSTALL (R342): Command installs a bundle and restarts the Steward. -/
  | stwInstall (c : Tci)
  /-- NVS_SEQUENCE (R400): A write of NVS_KEY, NVS_CMD, NVS_ADDR or NVS_DATA advances or breaks the sequencer. -/
  | nvsSequence (src : Fin 64) (reg : Fin 7) (w : Word)
  /-- NVS_SEQ_TIMEOUT (R400): More than 10 µs pass between sequence steps and the sequence ends with SEQERR. -/
  | nvsSeqTimeout
  /-- PROGRAM (R394): Sequencer PROGRAM starts programming one code word. -/
  | program (src : Fin 64) (addr : Word) (w : QWord)
  /-- ERASE (R401): Sequencer ERASE starts erasing one block. -/
  | erase (src : Fin 64) (addr : Word)
  /-- SUSPEND (R403): Sequencer SUSPEND suspends a running erase. -/
  | suspend (src : Fin 64) (addr : Word)
  /-- RESUME (R403): Sequencer RESUME resumes an explicitly suspended erase. -/
  | resume (src : Fin 64) (addr : Word)
  /-- ZUNLOCK (R406): Sequencer ZUNLOCK tries a zone password. -/
  | zunlock (src : Fin 64) (addr : Word) (data : List Word)
  /-- ZLOCK (R406): Sequencer ZLOCK locks an unlocked zone. -/
  | zlock (src : Fin 64) (addr : Word)
  /-- ZSET (R406): Sequencer ZSET configures a zone's password and range. -/
  | zset (src : Fin 64) (addr : Word) (data : List Word)
  /-- ZCLEAR (R406): Sequencer ZCLEAR unconfigures an unlocked zone. -/
  | zclear (src : Fin 64) (addr : Word)
  /-- PROGRAM_DONE (R401): A program finishes with verify and EV208 fires. -/
  | programDone (b : Fin 4) (v : Verify)
  /-- ERASE_DONE (R401): An erase finishes with verify and EV208 fires. -/
  | eraseDone (b : Fin 4) (ok : Bool)
  /-- ERASE_AUTO_RESUME (R399): A read-suspended erase resumes after 20 µs without reads or 160 µs. -/
  | eraseAutoResume (b : Fin 4)
  /-- DISCOVERY (R458): Discovery runs RSTDAA and ENTDAA on both partner buses. -/
  | discovery (ts : List BusTarget)
  /-- GETSTATUS_POLL (R462): Every 10 ms each partner is polled, and two misses make it LOST. -/
  | getstatusPoll (ans : DWord)
  /-- HOT_JOIN (R462): A partner hot-joins and its descriptor is read. -/
  | hotJoin (t : BusTarget)
  /-- PTR_HDCTL_GO (R463): Host software submits a descriptor for a partner entry. -/
  | ptrHdctlGo (w : Word)
  /-- TRAINING_DONE (R468): LPDDR5X training completes or a channel fails. -/
  | trainingDone (ok : BitVec 4) (cap : Nat)
  /-- WIPE_DONE (R470): The vector memory wipe completes and accesses are served. -/
  | wipeDone
  /-- REFRESH (R469): The device issues a per-bank refresh at the rate MR4 calls for. -/
  | refresh (k : Fin 4)
  /-- VMI_CFG_TRAIN (R468): Writing TRAIN starts vector memory training. -/
  | vmiCfgTrain (w : Word)
  /-- VMI_CFG_WRITE (R478): Host software writes RATE and RANKS2, or the write is dropped. -/
  | vmiCfgWrite (w : Word)
  /-- VMI_WPAGE_WRITE (R27): Host software selects the BAR2 vector memory page. -/
  | vmiWpageWrite (w : Word)
  /-- EPM_WRITE (R80): A write to an EPM window latches a low half or stores an instruction, or is dropped. -/
  | epmWrite (n : Fin 64) (word : Fin 8192) (hi : Bool) (v : Word)
  /-- ENG_HALT_WRITE (R96): Writing 1 to ENG_HALT stops the engine with cause HOST. -/
  | engHaltWrite (n : Fin 64) (v : Word)
  /-- SVALID_WRITE (R82): Host software sets or clears ENG_PAGE.SVALID. -/
  | svalidWrite (n : Fin 64) (v : Word)
  /-- ENG_STATE_WRITE (R100): A write to an engine state register applies only while IDLE or STOPPED. -/
  | engStateWrite (n : Fin 64) (off : Fin 4096) (v : Word)
  /-- PINMAP_WRITE (R93): A write to ENG_PINMAP is validated and applied or dropped. -/
  | pinmapWrite (c : Fin 64) (m : Fin 16) (v : Word)
  /-- SCRAMBLE_MASK_WRITE (R94): A write to the scramble masks is applied or dropped. -/
  | scrambleMaskWrite (c : Fin 64) (k : Fin 4) (v : Word)
  /-- TIM_SHADOW_WRITE (R133): A write to a shadow timing set clears its SVALID bit. -/
  | timShadowWrite (c k : Fin 64) (j : Fin 4) (w : Word)
  /-- TIM_TSCHK_WRITE (R133): A write to TIM_TSCHK starts validation of a shadow set. -/
  | timTschkWrite (c : Fin 64) (w : Word)
  /-- TSCHK_DONE (R133): A timing set validation completes and records its status. -/
  | tschkDone (c : Fin 64)
  /-- TIM_SWAP_WRITE (R134): A write to TIM_SWAP_LO or TIM_SWAP_HI swaps the named sets or is dropped. -/
  | timSwapWrite (c : Fin 64) (hi : Bool) (w : Word)
  /-- TIM_CHCFG_WRITE (R148): A write to TIM_CHCFG changes safe state, mask, slew and swing under its rules. -/
  | timChcfgWrite (c : Fin 64) (w : Word)
  /-- CAL_CORR_WRITE (R174): A write to CAL_CORR sets CORR and TARGET of an idle channel. -/
  | calCorrWrite (c : Fin 64) (t : Fin 5) (w : Word)
  /-- CAL_MODECFG_WRITE (R174): A write to CAL_MODECFG is applied or dropped. -/
  | calModecfgWrite (m : Fin 8) (w : Word)
  /-- CLK_RAMP_SEG_WRITE (R49): A write to a ramp segment is applied or ignored while its slot is locked. -/
  | clkRampSegWrite (k : Fin 2) (n : Fin 16) (hi : Bool) (v : Word)
  /-- FCP_RPTR_WRITE (R200): Host software advances FCP_RPTR, or the write is dropped. -/
  | fcpRptrWrite (w : Word)
  /-- RAE_RING_WRITE (R214): A write to the RAE ring base or size resets HEAD and TAIL, or is dropped. -/
  | raeRingWrite (reg : Fin 3) (w : Word)
  /-- RAE_RTAIL_WRITE (R214): Host software advances RAE_RTAIL, or the write is dropped. -/
  | raeRtailWrite (w : Word)
  /-- RAE_CTL_WRITE (R214): A write to RAE_CTL is applied or dropped for a zero DEFBUDGET. -/
  | raeCtlWrite (w : Word)
  /-- FAB_GCLK_WRITE (R280): A write to FAB_GCLK switches a global net glitchlessly or is dropped. -/
  | fabGclkWrite (k : Fin 32) (w : Word)
  /-- FAB_RCTL_WRITE (R288): A write to FAB_RCTL sets border policies or is dropped. -/
  | fabRctlWrite (n : Fin 16) (w : Word)
  /-- NOC_RT_CHECK (R349): A write to NOC_RT_CHECK_HI validates named shadow route tables. -/
  | nocRtCheck (w : Word)
  /-- NOC_RT_SWAP (R350): A write to NOC_RT_SWAP_HI swaps named route tables or is dropped. -/
  | nocRtSwap (w : Word)
  /-- LENS_ARM (R354): Writing ARM clears a probe's counters and starts it. -/
  | lensArm (k : Fin 8) (w : Word)
  /-- BYT_GROUP_WRITE (R259): A write to a group table applies to later PREPAREs. -/
  | bytGroupWrite (g : Fin 256) (k : Fin 32) (w : Word)
  /-- PWR_WAKE_WRITE (R390): A write to PWR_WAKE sets wake sources or is dropped. -/
  | pwrWakeWrite (n : Fin 40) (v : Word)
  /-- PWR_TIMER_WRITE (R390): A write to PWR_TIMER restarts the count. -/
  | pwrTimerWrite (v : Word)
  /-- EVT_STAT_CLEAR (R411): Writing 1 to a status bit clears it and zeroes COUNT. -/
  | evtStatClear (k : Fin 8) (bits : Word)
  /-- LOG_FRZCTL_FREEZE (R431): The Steward or JTAG writes FREEZE to freeze the log. -/
  | logFrzctlFreeze (src : Fin 64)
  /-- LOG_FRZCTL_RELEASE (R431): The Steward or JTAG writes RELEASE to release the log. -/
  | logFrzctlRelease (src : Fin 64)
  /-- LOG_ANN_GO (R427): Writing GO requests an ANNOTATION record. -/
  | logAnnGo (v : Word)
  /-- CLK_GCI_LO_READ (R56): A read of CLK_GCI_LO captures the rest of the stamp. -/
  | clkGciLoRead
  /-- SYS_MODE_GCI_LO_READ (R70): A read of SYS_MODE_GCI_LO captures SYS_MODE_GCI_HI. -/
  | sysModeGciLoRead
  /-- ENG_STOP_LO_READ (R100): A read of an engine's LO capture register captures its HI half. -/
  | engStopLoRead (n : Fin 64)
  /-- TXN_TGT_LO_READ (R238): A read of TXN_TGT_LO captures TXN_TGT_HI. -/
  | txnTgtLoRead (t : Fin 8)
  /-- EVT_LAST_PAY_READ (R430): A read of EVT_LAST_PAY captures the other EVT_LAST words. -/
  | evtLastPayRead (n : Fin 256)
  /-- LOG_SEQ_NEW_READ (R428): A read of LOG_SEQ_NEW captures LOG_SEQ_OLD. -/
  | logSeqNewRead
  /-- READ_CLEAR (R6): A read of an RC register returns its value and clears it. -/
  | readClear (a : Access)
  /-- REGISTER_WRITE (R7): A write to a register without behaviour of its own applies within its field rules. -/
  | registerWrite (a : Access)
  /-- EXTEST (R475): JTAG EXTEST becomes current and the device acts as under SAFE_N. -/
  | extest
  /-- IDCODE (R474): JTAG IDCODE selects the 32-bit identity register. -/
  | idcode
  /-- SAMPLE_PRELOAD (R474): JTAG SAMPLE/PRELOAD selects the boundary register. -/
  | samplePreload (upd ins : Bsr)
  /-- BYPASS (R474): JTAG BYPASS, or a closed private instruction, selects the 1-bit register. -/
  | bypass
  /-- NOCACC (R476): A JTAG NOCACC Update-DR issues one 32-bit NoC access with SRC 6. -/
  | nocacc (router : BitVec 6) (wr : Bool) (addr : BitVec 48) (data : Word)
  /-- LCYACC (R474): A JTAG LCYACC access issues LCY_TRANSITION operands. -/
  | lcyacc (tgt : BitVec 4) (token : QWord) (upto : Fin 8)
  /-- UNUSED_OPCODE (R104): The engine decodes an instruction whose opcode is unused, including 0x00, and stops with cause ILLEGAL. -/
  | unusedOpcode (n : Fin 64)
  /-- NOC_RESERVED_CMD (R351): A packet with a reserved CMD or an unused SRC reaches its first router, which answers ERR_RESP with BAD_OPCODE. -/
  | nocReservedCmd (r : Fin 36) (cmd : Fin 16) (p : Packet)
  /-- BAD_FRAME (R241): A Byith receiver takes a frame with a CRC mismatch, reserved TYPE or DIR, bad LEN or a reserved control block, drops it and counts it. -/
  | badFrame (p : Fin 4) (x : Received)
  /-- REFERENCE_RETURN (R369): The reference of a loop in holdover returns, and the loop releases its frozen control word and enters TRACK. -/
  | referenceReturn (pll : Fin 6)
  /-- GLOBAL_NET_EDGE (R268): An edge of a fabric global net clocks flip-flops, word cells, block memory ports and the fabric sides of the dedicated ports. -/
  | globalNetEdge (k : Fin 32) (rising : Bool) (ins : List FabIn)
  /-- ROUTE_CHECK_DONE (R349): A shadow route table check completes, sets SVALID bits or records the failing router, port and destination, and clears VBUSY. -/
  | routeCheckDone
  /-- HDESC_CHECK_DONE (R463): The check of a host-supplied partner descriptor completes, records its STATUS and clears PTR_HDCTL.BUSY. -/
  | hdescCheckDone
  /-- ERASE_STOP (R399): A suspended NV erase actually stops within 30 µs of the suspend request, and the waiting reads of the bank are served. -/
  | eraseStop (b : Fin 4)
  /-- BUS_MASTER_ENABLE (R318): A PCIe configuration write sets Bus Master Enable or clears the MSI-X function mask, so waiting fetches, DMA and pending MSI-X messages proceed. -/
  | busMasterEnable (bme mask : Bool)
  /-- MSIX_TABLE_WRITE (R317): A write to the MSI-X table clears a vector's mask, and a pending message for that vector is sent. -/
  | msixTableWrite (v : Fin 256) (r : Fin 4) (w : Word)
  /-- EVT_CFG_WRITE (R411): A write to EVT_CFG changes the enable, severity and routes, and setting MSI while the status bit is 1 requests the vector once. -/
  | evtCfgWrite (n : Fin 256) (v : Word)
  /-- NOC_SHADOW_TABLE_WRITE (R349): A write to a shadow route table word clears the router's SVALID bit, or is dropped with WERR for a reserved field. -/
  | nocShadowTableWrite (r : Fin 36) (p ix : Fin 5) (w : Word)
  /-- NO_BEAT_TICK (R388): With no beat present, the device counts one beat as 10 ns, so PWR_SET applies and start-up delays elapse. -/
  | noBeatTick
  deriving DecidableEq, Repr

end Sys2Proof
end

