-- ==== Sys2Proof/Machine/Bits.lean ====
section
/-! DEFINITION. Bit fields of words, as the spec's tables write them: field `[hi:lo]` of a word is a natural number. -/

namespace Sys2Proof.Machine

/-- The field of `len` bits that starts at bit `lo` (R6: a range is [msb:lsb]). -/
def fld {n : Nat} (w : BitVec n) (lo len : Nat) : Nat := w.toNat / 2 ^ lo % 2 ^ len

/-- The field of `len` bits at bit `lo` of a natural number. -/
def nfld (w lo len : Nat) : Nat := w / 2 ^ lo % 2 ^ len

/-- One bit. -/
def bit {n : Nat} (w : BitVec n) (i : Nat) : Bool := w.getLsbD i

/-- 1 for true, 0 for false. -/
def b2n (b : Bool) : Nat := if b then 1 else 0

/-- The word with bit `i` set. -/
def setBit {n : Nat} (w : BitVec n) (i : Nat) : BitVec n := w ||| BitVec.ofNat n (2 ^ i)

/-- The word with bit `i` cleared. -/
def clrBit {n : Nat} (w : BitVec n) (i : Nat) : BitVec n := w &&& ~~~(BitVec.ofNat n (2 ^ i))

/-- The word with bit `i` made `b`. -/
def putBit {n : Nat} (w : BitVec n) (i : Nat) (b : Bool) : BitVec n := if b then setBit w i else clrBit w i

/-- A 32-bit word from a number (the sum of its shifted fields). -/
def word (v : Nat) : Word := BitVec.ofNat 32 v

/-- `v` placed with its least significant bit at bit `lo`. -/
def at' (lo v : Nat) : Nat := v * 2 ^ lo

/-- A flag placed at bit `lo`. -/
def flag (lo : Nat) (b : Bool) : Nat := if b then 2 ^ lo else 0

/-- The indices of the set bits, rising. -/
def bitsOf {n : Nat} (w : BitVec n) : List Nat := (List.range n).filter fun i => w.getLsbD i

/-- The word whose set bits are those of the list. -/
def ofBits (n : Nat) (l : List Nat) : BitVec n := l.foldl (fun w i => setBit w i) 0#n

/-- The number of set bits. -/
def popcount {n : Nat} (w : BitVec n) : Nat := (bitsOf w).length

/-- A two's complement field of `len` bits as an integer. -/
def sgn (len v : Nat) : Int := if v % 2 ^ len < 2 ^ (len - 1) then (v % 2 ^ len : Int) else (v % 2 ^ len : Int) - 2 ^ len

/-- An integer as a two's complement field of `len` bits. -/
def unsgn (len : Nat) (v : Int) : Nat := (v % (2 ^ len : Int)).toNat

/-- The quotient rounded up. -/
def ceilDiv (a b : Nat) : Nat := (a + b - 1) / b

/-- Count up, saturating at `m`. -/
def satAdd (m a b : Nat) : Nat := if a + b ≤ m then a + b else m

/-- The low 32 bits of a 64-bit quantity. -/
def lo32 (w : DWord) : Word := BitVec.ofNat 32 w.toNat

/-- The high 32 bits of a 64-bit quantity. -/
def hi32 (w : DWord) : Word := BitVec.ofNat 32 (w.toNat / 2 ^ 32)

/-- Two words as one 64-bit quantity, the low word first (R6). -/
def dword (lo hi : Word) : DWord := BitVec.ofNat 64 (lo.toNat + hi.toNat * 2 ^ 32)

/-- The bytes of a number, least significant first (R6: little-endian). -/
def leBytes : Nat → Nat → List Byte
  | 0, _ => []
  | n + 1, v => BitVec.ofNat 8 v :: leBytes n (v / 256)

/-- The number that little-endian bytes hold. -/
def ofLeBytes : List Byte → Nat
  | [] => 0
  | b :: r => b.toNat + 256 * ofLeBytes r

/-- A register merge: the bits of `mask` from `new`, the rest from `old` (R7: a write to a read-only field is ignored). -/
def merge {n : Nat} (mask old new : BitVec n) : BitVec n := (old &&& ~~~mask) ||| (new &&& mask)

/-- A round of a fixed number of steps: `f` applied to 0, 1, …, n − 1 in turn. -/
def times {σ : Type} (n : Nat) (f : Nat → σ → σ) (s : σ) : σ := (List.range n).foldl (fun s i => f i s) s

end Sys2Proof.Machine
end

