-- ==== Sys2Proof/Machine/Crc.lean ====
section
/-! DEFINITION. CRC-32C (Castagnoli, reflected, initial value and final XOR 0xFFFF_FFFF), as R187, R301, R349 and the
other chapters use it. -/

namespace Sys2Proof.Machine

/-- One bit of the reflected CRC-32C division. -/
def crcBit (c : Word) : Word := if bit c 0 then (c >>> 1) ^^^ 0x82F63B78#32 else c >>> 1
/-- One byte. -/
def crcByte (c : Word) (b : Byte) : Word := times 8 (fun _ c => crcBit c) (c ^^^ b.zeroExtend 32)
/-- The CRC register after a list of bytes. -/
def crcRun (c : Word) (l : List Byte) : Word := l.foldl crcByte c
/-- CRC-32C of a list of bytes. -/
def crc32c (l : List Byte) : Word := ~~~(crcRun 0xFFFFFFFF#32 l)
/-- CRC-32C of words in little-endian byte order. -/
def crcWords (l : List Word) : Word := ~~~(l.foldl (fun c w => crcRun c (leBytes 4 w.toNat)) 0xFFFFFFFF#32)

end Sys2Proof.Machine
end

