-- ==== Sys2Proof/Machine/Crypto.lean ====
section
/-! DEFINITION. The cryptographic functions that the spec names and that their own standards define: SHA-256, HMAC-SHA-256,
AES-256 and AES-256-GCM (R298, R299, R448). Byte lists are in the order in which the bytes are fed. -/

namespace Sys2Proof.Machine

/-! ## Bytes -/

/-- The bytes of a number, most significant first. -/
def beBytes (n v : Nat) : List Byte := (leBytes n v).reverse
/-- The number that bytes hold, most significant first. -/
def ofBeBytes (l : List Byte) : Nat := l.foldl (fun v b => v * 256 + b.toNat) 0
/-- Cut a list into pieces of `k`, at most `fuel` of them. -/
def pieces {α : Type} (k : Nat) : Nat → List α → List (List α)
  | 0, _ => []
  | fuel + 1, l => if l.isEmpty then [] else l.take k :: pieces k fuel (l.drop k)

/-! ## SHA-256 -/

/-- The round constants. -/
def shaK : List Word :=
  [0x428a2f98, 0x71374491, 0xb5c0fbcf, 0xe9b5dba5, 0x3956c25b, 0x59f111f1, 0x923f82a4, 0xab1c5ed5] ++
  [0xd807aa98, 0x12835b01, 0x243185be, 0x550c7dc3, 0x72be5d74, 0x80deb1fe, 0x9bdc06a7, 0xc19bf174] ++
  [0xe49b69c1, 0xefbe4786, 0x0fc19dc6, 0x240ca1cc, 0x2de92c6f, 0x4a7484aa, 0x5cb0a9dc, 0x76f988da] ++
  [0x983e5152, 0xa831c66d, 0xb00327c8, 0xbf597fc7, 0xc6e00bf3, 0xd5a79147, 0x06ca6351, 0x14292967] ++
  [0x27b70a85, 0x2e1b2138, 0x4d2c6dfc, 0x53380d13, 0x650a7354, 0x766a0abb, 0x81c2c92e, 0x92722c85] ++
  [0xa2bfe8a1, 0xa81a664b, 0xc24b8b70, 0xc76c51a3, 0xd192e819, 0xd6990624, 0xf40e3585, 0x106aa070] ++
  [0x19a4c116, 0x1e376c08, 0x2748774c, 0x34b0bcb5, 0x391c0cb3, 0x4ed8aa4a, 0x5b9cca4f, 0x682e6ff3] ++
  [0x748f82ee, 0x78a5636f, 0x84c87814, 0x8cc70208, 0x90befffa, 0xa4506ceb, 0xbef9a3f7, 0xc67178f2]

/-- The message schedule: 48 further words after the 16 of the block, newest first. -/
def shaExtend : Nat → List Word → List Word
  | 0, w => w
  | n + 1, w =>
    let a := w.getD 14 0
    let b := w.getD 1 0
    let s0 := a.rotateRight 7 ^^^ a.rotateRight 18 ^^^ (a >>> 3)
    let s1 := b.rotateRight 17 ^^^ b.rotateRight 19 ^^^ (b >>> 10)
    shaExtend n ((w.getD 15 0 + s0 + w.getD 6 0 + s1) :: w)

/-- The eight working words. -/
structure Sha where
  a : Word
  b : Word
  c : Word
  d : Word
  e : Word
  f : Word
  g : Word
  h : Word

/-- The initial hash value. -/
def shaInit : Sha := ⟨0x6a09e667, 0xbb67ae85, 0x3c6ef372, 0xa54ff53a, 0x510e527f, 0x9b05688c, 0x1f83d9ab, 0x5be0cd19⟩

/-- One round with constant plus schedule word `kw`. -/
def Sha.round (s : Sha) (kw : Word) : Sha :=
  let s1 := s.e.rotateRight 6 ^^^ s.e.rotateRight 11 ^^^ s.e.rotateRight 25
  let ch := (s.e &&& s.f) ^^^ (~~~s.e &&& s.g)
  let t1 := s.h + s1 + ch + kw
  let s0 := s.a.rotateRight 2 ^^^ s.a.rotateRight 13 ^^^ s.a.rotateRight 22
  let maj := (s.a &&& s.b) ^^^ (s.a &&& s.c) ^^^ (s.b &&& s.c)
  ⟨t1 + (s0 + maj), s.a, s.b, s.c, s.d + t1, s.e, s.f, s.g⟩

/-- Add two hash values word by word. -/
def Sha.add (x y : Sha) : Sha :=
  ⟨x.a + y.a, x.b + y.b, x.c + y.c, x.d + y.d, x.e + y.e, x.f + y.f, x.g + y.g, x.h + y.h⟩

/-- Compress one 64-byte block. -/
def Sha.block (s : Sha) (bs : List Byte) : Sha :=
  let ws := (pieces 4 16 bs).map fun p => word (ofBeBytes p)
  let sched := (shaExtend 48 ws.reverse).reverse
  s.add ((shaK.zip sched).foldl (fun s x => s.round (x.1 + x.2)) s)

/-- SHA-256 as 32 bytes. -/
def sha256 (m : List Byte) : List Byte :=
  let pad := (119 - m.length % 64) % 64
  let padded := m ++ [0x80#8] ++ List.replicate pad 0#8 ++ beBytes 8 (8 * m.length)
  let s := (pieces 64 (m.length / 64 + 2) padded).foldl Sha.block shaInit
  [s.a, s.b, s.c, s.d, s.e, s.f, s.g, s.h].flatMap fun w => beBytes 4 w.toNat

/-- SHA-256 as a number whose first byte is most significant. -/
def sha256n (m : List Byte) : BitVec 256 := BitVec.ofNat 256 (ofBeBytes (sha256 m))

/-- HMAC-SHA-256. -/
def hmac (key m : List Byte) : List Byte :=
  let k := if 64 < key.length then sha256 key else key
  let k := k ++ List.replicate (64 - k.length) 0#8
  sha256 (k.map (· ^^^ 0x5C#8) ++ sha256 (k.map (· ^^^ 0x36#8) ++ m))

/-- One iteration of the counter-mode KDF (R299): the counter, the label, a zero byte, the context and the length. -/
def kdf (key label ctx : List Byte) : List Byte :=
  hmac key (beBytes 4 1 ++ label ++ [0#8] ++ ctx ++ beBytes 4 0x100)

/-! ## AES-256 -/

/-- Multiply by x in the field of AES. -/
def xtime (b : Byte) : Byte := if b.msb then (b <<< 1) ^^^ 0x1B#8 else b <<< 1

/-- Multiply in the field of AES, over the low `n` bits of the second factor. -/
def gmul : Nat → Byte → Byte → Byte
  | 0, _, _ => 0
  | n + 1, a, b => (if b.getLsbD 0 then a else 0) ^^^ gmul n (xtime a) (b >>> 1)

/-- The inverse in the field of AES: the 254th power. -/
def ginv (a : Byte) : Byte :=
  let sq (x : Byte) : Byte := gmul 8 x x
  let a2 := sq a
  let a4 := sq a2
  let a8 := sq a4
  let a16 := sq a8
  let a32 := sq a16
  let a64 := sq a32
  let a128 := sq a64
  [a4, a8, a16, a32, a64, a128].foldl (gmul 8) a2

/-- The substitution box. -/
def sbox (a : Byte) : Byte :=
  let b := ginv a
  b ^^^ b.rotateLeft 1 ^^^ b.rotateLeft 2 ^^^ b.rotateLeft 3 ^^^ b.rotateLeft 4 ^^^ 0x63#8

/-- XOR of two byte lists. -/
def xorBytes (a b : List Byte) : List Byte := a.zipWith (· ^^^ ·) b

/-- Extend the key schedule of AES-256 by `n` words; the words are newest first, `i` is the next word's number. -/
def aesExpand : Nat → Nat → Byte → List (List Byte) → List (List Byte)
  | 0, _, _, w => w
  | n + 1, i, rc, w =>
    let t := w.headD []
    let old := w.getD 7 []
    if i % 8 = 0 then
      let r := ((t.drop 1) ++ t.take 1).map sbox
      aesExpand n (i + 1) (xtime rc) (xorBytes old (xorBytes r [rc, 0, 0, 0]) :: w)
    else aesExpand n (i + 1) rc (xorBytes old (if i % 8 = 4 then t.map sbox else t) :: w)

/-- The 15 round keys of a 32-byte key. -/
def aesKeys (key : List Byte) : List (List Byte) :=
  (pieces 4 15 (aesExpand 52 8 1 (pieces 4 8 key).reverse).reverse).map fun ws => ws.flatMap id

/-- Shift the rows of a state held column by column. -/
def shiftRows (s : List Byte) : List Byte := (List.range 16).map fun i => s.getD ((i + 4 * (i % 4)) % 16) 0

/-- Mix one column. -/
def mixColumn (c : List Byte) : List Byte :=
  (List.range 4).map fun i =>
    let x (k : Nat) : Byte := c.getD ((i + k) % 4) 0
    xtime (x 0) ^^^ (xtime (x 1) ^^^ x 1) ^^^ x 2 ^^^ x 3

/-- The rounds after the first key addition. -/
def aesRounds : List (List Byte) → List Byte → List Byte
  | [], s => s
  | [k], s => xorBytes (shiftRows (s.map sbox)) k
  | k :: ks, s => aesRounds ks (xorBytes ((pieces 4 4 (shiftRows (s.map sbox))).flatMap mixColumn) k)

/-- AES-256 of one block under its round keys. -/
def aesBlock (ks : List (List Byte)) (s : List Byte) : List Byte := aesRounds (ks.drop 1) (xorBytes s (ks.headD []))

/-! ## GCM -/

/-- Multiply in the field of GHASH: `z` gathers `v` for each set bit of the first factor, most significant first. -/
def ghMul : Nat → QWord → QWord → QWord → QWord
  | 0, _, _, z => z
  | n + 1, x, v, z =>
    let z := if x.getLsbD n then z ^^^ v else z
    let v := if v.getLsbD 0 then (v >>> 1) ^^^ BitVec.ofNat 128 (0xE1 * 2 ^ 120) else v >>> 1
    ghMul n x v z

/-- Pad to whole blocks. -/
def padBlocks (l : List Byte) : List Byte := l ++ List.replicate ((16 - l.length % 16) % 16) 0#8

/-- GHASH of the additional data and the ciphertext under hash key `h`. -/
def ghash (h : QWord) (aad c : List Byte) : QWord :=
  let m := padBlocks aad ++ padBlocks c ++ beBytes 8 (8 * aad.length) ++ beBytes 8 (8 * c.length)
  (pieces 16 (m.length / 16) m).foldl (fun y b => ghMul 128 (y ^^^ BitVec.ofNat 128 (ofBeBytes b)) h 0) 0

/-- The keystream of `n` blocks from counter `i`. -/
def gcmStream (ks : List (List Byte)) (iv : List Byte) : Nat → Nat → List Byte
  | 0, _ => []
  | n + 1, i => aesBlock ks (iv ++ beBytes 4 i) ++ gcmStream ks iv n (i + 1)

/-- AES-256-GCM decryption with a 96-bit IV: none where the tag does not match. -/
def gcmOpen (key iv aad c tag : List Byte) : Option (List Byte) :=
  let ks := aesKeys key
  let h := BitVec.ofNat 128 (ofBeBytes (aesBlock ks (List.replicate 16 0)))
  let s := beBytes 16 (ghash h aad c).toNat
  if xorBytes s (aesBlock ks (iv ++ beBytes 4 1)) = tag then
    some (xorBytes c (gcmStream ks iv ((c.length + 15) / 16) 2))
  else none

end Sys2Proof.Machine
end

