-- ==== Sys2Proof/Config.lean ====
section
/-! DEFINITION. What the spec leaves open as a VALUE: constants without a body, so that nothing can evaluate them or
prove a value of them (assumption log 6). Each is applied to the model's counter `Dev.fresh`, which the step that uses
it advances, or to what it depends on. -/

namespace Sys2Proof

/-- What a state register of a running engine reads as (R100: a value not coordinated with the vector stream). -/
opaque Config.runningRead : Nat → Word

/-- BYT_STAT.UPPORT on the root (Table 11-13: undefined on the root). -/
opaque Config.rootUpPort : Nat → BitVec 2

/-- What a block memory location holds after its two ports wrote it in one cycle (R273). -/
opaque Config.memCollision : Nat → BitVec 72

/-- What a code word reads as after a power loss cut its program or erase (R395). -/
opaque Config.cutWord : Nat → QWord

/-- What such a code word reads as: erased, or programmed with the CBITS given (15: uncorrectable) (R395). -/
opaque Config.cutErased : Nat → Bool

/-- The CBITS of a read of such a code word (R395, R397). -/
opaque Config.cutBits : Nat → BitVec 4

/-- Byte `i` of what a save leaves in the overflow area (R436, step 2). -/
opaque Config.savedByte : (fresh i : Nat) → Byte

/-- A correction or target whose value does not fit its 12 bits (R155, R159, R167: the spec states a range for the seed
alone). -/
opaque Config.corrWide : Int → BitVec 12

/-- The flip-flops, the initial contents and the routing that a fabric frame's payload gives (R277: the spec gives the
frame's size and not the place of its bits): the element `n` of kind `k` as the plane's frames decode it. -/
opaque Config.fabricBits : (frames : List (Nat × BitVec 960)) → (kind n : Nat) → Nat

/-- Word `i` of the Steward's ROM (R337: the spec gives its size and not its code). -/
opaque Config.stwRom : (i : Nat) → BitVec 32

/-- The last row and the last column of the memory array `a` of domain `d` (Table 20-3 names the arrays and not their
sizes). -/
opaque Config.lastRow : (d a : Nat) → Nat
/-- See `Config.lastRow`. -/
opaque Config.lastCol : (d a : Nat) → Nat

/-- The bits of entry `i` of the memory behind an array that the row or column of a repair record holds (R442). -/
opaque Config.repairMask : (w2 w3 : Word) → (i : Nat) → QWord

/-- BST_STAT.PWR_USED where the sum, in 1/100 W, is no whole number of watts (Table 20-8). -/
opaque Config.partWatts : Nat → BitVec 8

/-- The Steward address of staging memory, to which NoC requests may go (Table 15-8; the spec gives no address). -/
opaque Config.stagingBase : BitVec 48

/-- What a host read returns in its data where its target answers with an error other than FENCED or none in time (R24 gives
the data of FENCED alone). -/
opaque Config.errRead : Nat → Word

/-- The payload words of a frame whose layout the spec does not give (Table 11-3 names the contents alone). -/
opaque Config.framePayload : ByMsg → List DWord

/-- Whether a loop that acquires lock is past its band search (R358 gives both stages together 200 µs). -/
opaque Config.acquires : Nat → Bool

/-- The control word that brings loop `i` in band `b` to a frequency, a fraction in Hz (R363: the spec has the ramp generator
write the matching word and gives no law of the VCO). -/
opaque Config.rampWord : (i b num den : Nat) → BitVec 16

/-- Whether that frequency lies within band `b` of loop `i` (R363). -/
opaque Config.bandHolds : (i b num den : Nat) → Bool

/-- How far a phase of a repair analysis has come when an abort cuts it short (R209 asks for the count so far, and R212
gives the phases times and no count per time). -/
opaque Config.soFar : Nat → Nat

end Sys2Proof
end

