-- ==== Sys2Proof/Machine/Store.lean ====
section
/-! DEFINITION. Sparse tables as plain data. A `Store α` is a list of (key, value) pairs with strictly rising keys and
no value equal to what an unlisted key reads as (`d key`), so that equal tables are equal lists. Every array of the
device (engines, channels, memories) is a `Store` or a list of `Host.Cell`, which is the same shape. -/

namespace Sys2Proof.Machine

/-- A sparse table. -/
abbrev Store (α : Type) := List (Nat × α)

/-- What key `k` reads as: its entry, or the default `d k`. -/
def Store.get {α : Type} (d : Nat → α) : Store α → Nat → α
  | [], k => d k
  | (j, v) :: r, k => if j = k then v else Store.get d r k

/-- The list without the entries of key `k`. -/
def Store.drop {α : Type} : Store α → Nat → Store α
  | [], _ => []
  | (j, v) :: r, k => if j = k then Store.drop r k else (j, v) :: Store.drop r k

/-- Put a new entry before the first larger key. -/
def Store.insert {α : Type} : Store α → Nat → α → Store α
  | [], k, v => [(k, v)]
  | (j, w) :: r, k, v => if k < j then (k, v) :: (j, w) :: r else (j, w) :: Store.insert r k v

/-- Write key `k`: writing the default removes the entry. -/
def Store.put {α : Type} [DecidableEq α] (d : Nat → α) (l : Store α) (k : Nat) (v : α) : Store α :=
  if v = d k then Store.drop l k else Store.insert (Store.drop l k) k v

/-- Read, change and write key `k`. -/
def Store.upd {α : Type} [DecidableEq α] (d : Nat → α) (l : Store α) (k : Nat) (f : α → α) : Store α :=
  Store.put d l k (f (Store.get d l k))

/-- Every key of the list is above `k`. -/
def Store.above {α : Type} (k : Nat) : Store α → Bool
  | [] => true
  | (j, _) :: r => decide (k < j) && Store.above k r

/-- The canonical form: keys strictly rising, no entry equal to its default. -/
def Store.wf {α : Type} [DecidableEq α] (d : Nat → α) : Store α → Bool
  | [] => true
  | (k, v) :: r => decide (v ≠ d k) && Store.above k r && Store.wf d r

/-- Drop every entry whose key satisfies `p` (a wipe of a range). -/
def Store.clear {α : Type} (l : Store α) (p : Nat → Bool) : Store α :=
  l.filter fun e => !p e.1

/-- Change every listed value; what becomes the default is dropped. -/
def Store.mapVals {α : Type} [DecidableEq α] (d : Nat → α) (f : α → α) : Store α → Store α
  | [] => []
  | (k, v) :: r => if f v = d k then Store.mapVals d f r else (k, f v) :: Store.mapVals d f r

/-- Write consecutive keys from `k`. -/
def Store.putList {α : Type} [DecidableEq α] (d : Nat → α) : Store α → Nat → List α → Store α
  | l, _, [] => l
  | l, k, v :: vs => Store.putList d (Store.put d l k v) (k + 1) vs

/-- Read `n` consecutive keys from `k`. -/
def Store.getList {α : Type} (d : Nat → α) (l : Store α) : Nat → Nat → List α
  | _, 0 => []
  | k, n + 1 => Store.get d l k :: Store.getList d l (k + 1) n

end Sys2Proof.Machine
end

