-- ==== Sys2Proof/Machine/State.lean ====
section
/-! DEFINITION. The state of the T6403 as plain data: one structure per block of the device, `Dev` holding them all,
`Otp` the one-time programmable bits, and `State` both with the queue of waiting commands.
Each field's reset value stands in its structure; a value marked DESIGN CHOICE is one the spec does not give (the
assumption log names it). -/

namespace Sys2Proof.Machine

/-! ## Shared records -/

/-- A long stamp (R39): EPOCH, STATUS byte, GCI and FRAC. -/
structure Stamp where
  epoch : BitVec 8 := 0
  status : BitVec 8 := 0
  gci : BitVec 48 := 0
  frac : BitVec 16 := 0
  deriving DecidableEq, Repr

/-- A scheduled time, an (EPOCH, GCI) pair (R41). -/
structure Target where
  epoch : BitVec 8 := 0
  gci : BitVec 48 := 0
  deriving DecidableEq, Repr

/-- The command that a response answers, kept by whatever waits to complete it (R325 to R327). `gen` tells a command
accepted before a PCIe reset from one accepted after it (R316). -/
structure Owner where
  q : Nat := 0
  tag : Word := 0
  op : Nat := 0
  notify : Bool := false
  quiet : Bool := false
  gen : Nat := 0
  deriving DecidableEq, Repr

/-! ## 02: beat, GCI, epochs, ramps -/

/-- The role of the device (R28, Table 2-6). -/
inductive Role where
  | undetermined | root | downstream
  deriving DecidableEq, Repr

/-- A pending reload of the GCI (R42, R43). -/
structure Reload where
  target : BitVec 48
  newGci : BitVec 48
  deriving DecidableEq, Repr

/-- The CLK block's time half (02_beat_and_gci.md). `base` is the number, counted in ECLK since reset, of ECLK 0 of the
current beat; `ticks` counts beat boundaries and ticks without a beat since reset: both are the model's own clock. -/
structure TimeState where
  gci : BitVec 48 := 0
  epoch : BitVec 8 := 0
  eclk : Nat := 0
  base : Nat := 0
  ticks : Nat := 0
  mult : Nat := 8
  beatoutEn : Bool := true
  role : Role := .undetermined
  /-- The count is the tree's: on the root once its role is fixed, on a downstream device from its first marker (R31, R251). -/
  started : Bool := false
  /-- The count shows in the registers and the stamps: from the first alignment (R31). -/
  shown : Bool := false
  /-- CLK_BEAT_PER: it reads zero until a beat is present. -/
  period : BitVec 24 := 0
  capHi : Word := 0
  capFrac : Word := 0
  reload : Option Reload := none
  autoAnnounced : Bool := false
  rampActive : Bool := false
  rampDev : Bool := false
  rampWerr : Bool := false
  rampSlot : Nat := 0
  rampSeg : Nat := 0
  /-- Beats since the start of the current segment (R50). -/
  rampBeat : Nat := 0
  startHz0 : BitVec 29 := 0
  startHz1 : BitVec 29 := 0
  /-- Segment words, slot `s` segment `n` at key 16 s + n (R47); DESIGN CHOICE (log 5): zero. -/
  segs : Store DWord := []
  /-- Beats left of the 4,096 after a ramp in which Breeze rests (R53). -/
  holdoff : Nat := 0
  /-- The profile frequency at the end of the last ramp, as a fraction in Hz (R53). -/
  rampHz : Nat × Nat := (0, 1)
  deriving DecidableEq, Repr

/-! ## 03: operating modes -/

/-- The SYS block's mode half (03_operating_modes.md). -/
structure ModeState where
  mode : Nat := 0
  prev : Nat := 0
  settled : Bool := false
  stamp : Stamp := {}
  capHi : Word := 0
  deriving DecidableEq, Repr

/-! ## 16: clock loops -/

/-- CLK_LOOP_STAT.STATE (Table 16-7). -/
inductive LoopSt where
  | off | search | acquire | locked | holdover | track
  deriving DecidableEq, Repr

/-- One of the six loops (16_clocking.md). `search` stands for both stages of acquiring lock, band search and acquisition. KIND, FBDIV and POSTDIV2 follow from the mode, N and ECLK (R356, Table 16-1). -/
structure Loop where
  state : LoopSt := .off
  loss : Bool := false
  holdExp : Bool := false
  bsFail : Bool := false
  fmaxTrip : Bool := false
  werr : Bool := false
  diff : BitVec 8 := 0
  trips : Nat := 0
  minper : Nat := 320
  band : BitVec 6 := 0
  cw : BitVec 16 := 0
  /-- Detail [15:8] of the last loss: 1 difference, 2 no reference, 3 FMAX, 4 DLL phase (Table 16-4). -/
  cause : Nat := 0
  /-- The loop has locked since reset (R68, R39). -/
  everLocked : Bool := false
  /-- The tick at which EV121 last fired for this loop (R366: at most once per millisecond). -/
  fmaxAt : Option Nat := none
  /-- The first band search after reset has measured every band (R358). -/
  searched : Bool := false
  /-- The band table that it filled; DESIGN CHOICE (log 5): empty. -/
  bandTable : Store (BitVec 16) := []
  deriving DecidableEq, Repr

/-- The loops and the spread modulator. -/
structure ClkState where
  loops : Store Loop := []
  spreadDepth : BitVec 4 := 0
  spreadSeed : BitVec 23 := 1
  spreadEff : BitVec 4 := 0
  lfsr : BitVec 23 := 1
  /-- A TIM_SPREAD accepted and waiting for the next apex (R365). -/
  spreadPend : Bool := false
  /-- The owners of the TIM_SET_MULT commands that wait for SETTLED (R335). -/
  multOwners : List Owner := []
  deriving DecidableEq, Repr

/-! ## 19: events and the event recorder -/

/-- EVT_CFG (Table 19-9). -/
structure EvtCfg where
  en : Bool := true
  byt : Bool := false
  alert : Bool := false
  rcd : Bool := false
  stw : Bool := false
  msi : Bool := false
  sev : Nat := 0
  deriving DecidableEq, Repr

/-- EVT_LAST (Table 19-9). -/
structure EvtLast where
  payload : Word := 0
  stamp : Stamp := {}
  count : Nat := 0
  deriving DecidableEq, Repr

/-- The words that a read of EVT_LAST_PAY captures (R430). -/
structure EvtCap where
  lo : Word := 0
  hi : Word := 0
  fc : Word := 0
  deriving DecidableEq, Repr

/-- The EVT block and the pins it drives. -/
structure EvtState where
  cfg : Store EvtCfg := []
  stat : BitVec 256 := 0
  last : Store EvtLast := []
  cap : Store EvtCap := []
  logfail : Bool := false
  /-- Firings routed to the Steward (Table 19-1, firmware use only), newest last. -/
  steward : List Nat := []
  deriving DecidableEq, Repr

/-- Record kinds (Table 19-6). -/
inductive RecKind where
  | event | mediaFault | annotation | boot
  deriving DecidableEq, Repr

/-- An entry of the staging ring: header, stamp and repeat count (R424). -/
structure LogEnt where
  kind : RecKind := .event
  event : Nat := 0
  payload : Word := 0
  sev : Nat := 0
  opsec : Word := 0
  pcc : BitVec 24 := 0
  stamp : Stamp := {}
  /-- Data words (one in the ring; 1 to 61 of an annotation, R427). -/
  data : List QWord := []
  rep : Nat := 0
  staged : Bool := false
  deriving DecidableEq, Repr

/-- A record whose seal is not yet programmed (R422): its seal's code word and what the seal will hold. -/
structure OpenRec where
  ent : LogEnt
  sealWord : Nat
  body : List QWord
  seq : Word
  dropsBefore : Bool
  /-- The seal is due (R422). -/
  due : Bool := false
  deriving DecidableEq, Repr

/-- What the recorder knows of one log block (R416, R423, R425). -/
structure LogBlk where
  used : Bool := false
  reclaimable : Bool := false
  gen : Nat := 0
  firstSeq : Word := 0
  lastSeq : Word := 0
  maxSev : Nat := 0
  next : Nat := 0
  deriving DecidableEq, Repr

/-- A freeze that waits to take effect (R429). -/
structure FreezeReq where
  src : Nat
  owner : Option Owner
  deriving DecidableEq, Repr

/-- The LOG block and the always-on staging ring. -/
structure LogState where
  degraded : Bool := false
  dcause : Nat := 0
  frozen : Bool := false
  werr : Bool := false
  erasing : Option Nat := none
  annBusy : Bool := false
  curblk : Nat := 0
  blks : Store LogBlk := []
  gen : Nat := 0
  seqOld : Word := 0
  seqNew : Word := 0
  seqOldCap : Word := 0
  /-- The SEQ that the next record takes (R419). -/
  seqNext : Word := 0
  opened : Option OpenRec := none
  ring : List LogEnt := []
  ann : Option LogEnt := none
  drops0 : Word := 0
  drops1 : Word := 0
  drops2 : Word := 0
  drops3 : Word := 0
  dropsBefore : Bool := false
  /-- The tick at which EV241 was last raised (R420: at most once per second). -/
  dropEvAt : Option Nat := none
  retired : BitVec 30 := 0
  /-- The degraded flag of the calibration store (R426). -/
  calDegraded : Bool := false
  freezePend : Option FreezeReq := none
  freezeSrc : Nat := 0
  remainMs : Nat := 0
  opsec : Word := 0
  pcc : BitVec 24 := 0
  /-- The operating-hours store: block 992 or 993 in use and its next code word (R421). -/
  opBlk : Nat := 992
  opPos : Nat := 0
  dlen : Nat := 0
  annSev : Nat := 0
  annPayload : Word := 0
  annBuf : Store Word := []
  /-- The power-on scan has been made since reset (R423). -/
  scanned : Bool := false
  /-- The last reset was a rise of VIN (the BOOT record of R419); after it only RESET_N, false. -/
  bootVin : Bool := true
  deriving DecidableEq, Repr

/-! ## 14: host interface and command queues -/

/-- CMD_CQ_STAT.STATE (Table 14-12). -/
inductive QState where
  | disabled | run | halted | paused
  deriving DecidableEq, Repr

/-- A completed command whose response waits to be posted (R325, R326). -/
structure Completion where
  tag : Word := 0
  op : Nat := 0
  status : Status := .ok
  data0 : Word := 0
  data1 : Word := 0
  notify : Bool := false
  deriving DecidableEq, Repr

/-- A command queue with its rings and pointers (Tables 14-11 to 14-13). -/
structure Queue where
  loc : Bool := false
  en : Bool := false
  rqLog2 : Nat := 4
  cqLog2w : Nat := 10
  state : QState := .disabled
  dberr : Bool := false
  werr : Bool := false
  hstatus : Status := .ok
  cqBase : DWord := 0
  rqBase : DWord := 0
  cqTail : BitVec 24 := 0
  cqHead : BitVec 24 := 0
  rqHead : BitVec 24 := 0
  rqTail : BitVec 24 := 0
  coalTime : BitVec 16 := 0
  coalCount : BitVec 8 := 0
  haltTag : Word := 0
  /-- Commands consumed and not started, with their opcodes, oldest first (R323, R327). -/
  accepted : List (Nat × Tci) := []
  /-- How many of them, from the oldest, were consumed before a PCIe reset (R316). -/
  stale : Nat := 0
  /-- Commands consumed whose response is neither posted nor suppressed (R327). -/
  inflight : Nat := 0
  done : List Completion := []
  /-- Responses posted since the last notification (R326). -/
  unnotified : Nat := 0
  /-- The BAR0 command and response windows (R319). -/
  cqWin : Store Word := []
  rqWin : Store Word := []
  deriving DecidableEq, Repr

/-- An MSI-X table entry (R317); every vector is masked after reset. -/
structure MsixVec where
  addrLo : Word := 0
  addrHi : Word := 0
  data : Word := 0
  masked : Bool := true
  deriving DecidableEq, Repr

/-- A message sent to the host (R317). -/
structure Message where
  vector : Nat
  addr : DWord
  data : Word
  deriving DecidableEq, Repr

/-- The CMD block and the PCI Express function. -/
structure CmdState where
  queues : Store Queue := []
  linkWidth : BitVec 4 := 0
  linkSpeed : BitVec 4 := 0
  lost : Word := 0
  /-- Counts PCIe resets, so that a command accepted before one is known by its `Owner.gen` (R316); an owner with 0 is
  always lost. -/
  gen : Nat := 1
  /-- Bus Master Enable and the MSI-X function mask; PRESUMED (log 10): 0, the PCI Express default. -/
  bme : Bool := false
  funcMask : Bool := false
  msix : Store MsixVec := []
  pba : BitVec 256 := 0
  /-- Messages sent to the host, oldest first (the model's record of what left the device, log 9). -/
  messages : List Message := []
  /-- Host memory, as the device's DMA reads and writes it (R319); an unlisted byte reads 0 (log 8). -/
  hostMem : List Host.Cell := []
  /-- The queue served last in the rotation of R327; DESIGN CHOICE (log 5): 3. -/
  last : Nat := 3
  /-- Subsystem Vendor ID and Subsystem ID, read from OTP (R314); DESIGN CHOICE (log 4): 0. -/
  subsystem : Word := 0
  /-- Commands that have started and wait for a DMA channel, for Bus Master Enable or for a domain under test (R318, R344). -/
  parked : List (Nat × Tci × Owner) := []
  /-- The command that holds each DMA channel (R344). -/
  chan : Store (Option Owner) := []
  /-- The Uncorrectable Error Status of AER (R314, R318); PRESUMED (log 10): the PCI Express bits 12, 14, 15 and 20. -/
  aer : Word := 0
  deriving DecidableEq, Repr

/-! ## 04, 05: Yunor engines -/

/-- ENG_STAT.STATE (Table 4-3). -/
inductive EngSt where
  | idle | run | wait | sync | stopped | follower
  deriving DecidableEq, Repr

/-- An effect outside the engine that waits for its commit point (R504, R98). -/
inductive Effect where
  | enable | disable
  | blockStart (region : Nat)
  | blockEnd (region : Nat)
  | mark (code : Nat)
  | flush
  | attn (code : Nat)
  | mask (half : Bool) (bits : Word)
  deriving DecidableEq, Repr

/-- A running match loop (R120): the first address of its body, the address after the body, and its loop counter. -/
structure MatchLoop where
  first : BitVec 12
  after : BitVec 12
  lc : Nat
  deriving DecidableEq, Repr

/-- The architectural state of an engine (Table 4-1), with what a discarded instruction must give back (R98). -/
structure Arch where
  g : Store Word := []
  lc : Store (BitVec 24) := []
  xa : BitVec 24 := 0
  ya : BitVec 24 := 0
  xmax : BitVec 24 := 0
  ymax : BitVec 24 := 0
  dg : DWord := 0
  /-- FLAGS without FABF, which is a live copy of the fabric line (Table 4-2). -/
  flags : BitVec 16 := 0
  rstk : Store (BitVec 13) := []
  rsp : Nat := 0
  pc : BitVec 12 := 0
  /-- Active physical page (ENG_PAGE.ACTIVE, and PC[12]). -/
  active : Bool := false
  svalid : Bool := false
  map : BitVec 4 := 0
  fxout : DWord := 0
  mloop : Option MatchLoop := none
  /-- Address of the LOOP whose body runs from the loop buffer (R75, R119). -/
  lbuf : Option Nat := none
  /-- Repeats not yet started by the instruction at PC (ENG_REPLEFT, Table 4-13). -/
  repLeft : Nat := 0
  deriving DecidableEq, Repr

/-- A vector that waits for its decision (R76, R109): the ECLK at which the decision arrives, and its outcome. -/
structure Decision where
  arrives : Nat
  fail : Bool
  deriving DecidableEq, Repr

/-- A strobe of a vector that only TIM_CHCFG.SMASK could still mask (R142): its channel, its time at the ball in LSB, whether
SMASK masked it at the ball, and whether it was taken there and failed (R76). -/
structure Cand where
  ch : Nat
  time : Int
  masked : Bool := false
  fail : Bool := false
  deriving DecidableEq, Repr

/-- What is known of an engine's last vector that started (R76): there was none since the engine start, or its strobes. -/
inductive LastVec where
  | none
  | made (cands : List Cand)
  deriving DecidableEq, Repr

/-- A vector that was fetched and has not started at the ball (R13, R35): its set and start, its symbols or the VGEN that forms
them, the engine's registers before and after it, the comparator returns, and the effects whose commit point is its start
(R504). -/
structure Flight where
  ts : Nat
  start : Nat
  period : Nat
  gen : Option DWord
  sa : BitVec 4
  sb : BitVec 4
  pre : Arch
  after : Arch
  stb : Strobe
  commits : List Effect
  deriving DecidableEq, Repr

/-- A WAITG in progress (R124). -/
structure WaitG where
  target : Target := {}
  frac : BitVec 16 := 0
  refused : Bool := false
  deriving DecidableEq, Repr

/-- A refill of the shadow page (R84, R85, R334). -/
structure Refill where
  fromNv : Bool := false
  /-- The physical page that it loads. -/
  page : Bool := false
  addr : DWord := 0
  count : Nat := 0
  moved : Nat := 0
  deadline : Option Target := none
  /-- The deadline has passed (R85). -/
  late : Bool := false
  /-- A source read error was met. -/
  err : Bool := false
  owner : Option Owner := none
  deriving DecidableEq, Repr

/-- How a pending stop is to be taken (R96, R98). -/
inductive StopKind where
  | instr | data | async
  deriving DecidableEq, Repr

/-- One engine. `a` is its architectural state, `ckpt` the state after the last vector that started (R98). -/
structure Engine where
  st : EngSt := .idle
  a : Arch := {}
  ckpt : Arch := {}
  mem : Store DWord := []
  /-- The low half held by the EPM latch: instruction index over both pages, and the word (R80). -/
  epmLatch : Option (Nat × Word) := none
  cause : Nat := 0
  also : BitVec 11 := 0
  tinv : Bool := false
  werr : Bool := false
  stopStamp : Stamp := {}
  stopHiCap : Word := 0
  /-- Gang size as a power of two, and membership (Table 4-15). -/
  sizeLog2 : Nat := 0
  /-- ENG_STRMAP. -/
  strmap : BitVec 16 := 0
  /-- The stream FIFO in 4-bit units, oldest first (R87). -/
  fifo : List (BitVec 4) := []
  /-- Fabric lines of the engine's port (R95). -/
  fxin : DWord := 0
  fxinCap : Word := 0
  fxoutCap : Word := 0
  /-- The valid strobe of FXOUT: a new word waits for the fabric's next cycle (R95). -/
  fxValid : Bool := false
  fabf : Bool := false
  scrinv : Bool := false
  pinmap : Store (BitVec 16) := []
  scrx : BitVec 24 := 0
  scry : BitVec 24 := 0
  scrd : DWord := 0
  /-- FCTL, ATTN and MASK effects that wait for their commit point, oldest first (R504). -/
  uncommitted : List Effect := []
  /-- Decisions that have not reached the engine, in the order in which they arrive. -/
  decisions : List Decision := []
  lastVec : LastVec := .none
  /-- Vectors fetched and not started at the ball, oldest first (R13). -/
  flight : List Flight := []
  /-- A fail-dependent instruction waits for a vector in flight: the channels whose SMASK was set at its fetch (R76). -/
  await : Option DWord := none
  /-- The start of an OM2 window that the fetch unit has not reached: later fetches are 512 ECLK late (R169). -/
  late : Option Nat := none
  waitg : WaitG := {}
  /-- Normalised mask, timeout and issue ECLK of a SYNC (R125, R126). -/
  syncMask : DWord := 0
  syncTmo : BitVec 16 := 0
  syncAt : Nat := 0
  /-- The address fetched when a wait or a rendezvous ends (R37, R83, R125). -/
  waitNext : BitVec 12 := 0
  /-- Pending stop causes and the kind that arrived first (R96, R97). -/
  stops : List Nat := []
  stopKind : StopKind := .async
  refill : Option Refill := none
  /-- The ECLK at which the next instruction may issue, and the next vector instruction (R77). -/
  issueAt : Nat := 0
  slotAt : Nat := 0
  /-- The ECLK at which the last vector that started ends at the ball. -/
  vecEnd : Nat := 0
  /-- The ECLK at which the engine's last OM2 window starts at the ball (R169). -/
  winAt : Option Nat := none
  deriving DecidableEq, Repr

/-- The engines' own pending commands. -/
structure EngPend where
  mask : DWord
  resume : Bool
  entry : BitVec 12
  /-- Beat boundaries left until the start applies (R332). -/
  due : Nat
  owner : Owner
  deriving DecidableEq, Repr

/-- A halt that waits for its engines to stop (R333). -/
structure HaltPend where
  mask : DWord
  left : DWord
  owner : Owner
  deriving DecidableEq, Repr

/-- The 64 engines. -/
structure EngState where
  eng : Store Engine := []
  starts : List EngPend := []
  halts : List HaltPend := []
  /-- Engines that ENG_RELEASE releases at the next boundary, with the owner that then answers (R333). -/
  releases : List (DWord × Owner) := []
  /-- Requester served last by each quad's refill port (R84); DESIGN CHOICE (log 5): 4, the host writes. -/
  served : Store Nat := []
  deriving DecidableEq, Repr

/-! ## 06: Prism -/

/-- A timing set under validation (R133). -/
structure TsCheck where
  set : Nat
  status : Status
  /-- The shadow copy was written since the TIM_TSCHK write. -/
  dirty : Bool := false
  deriving DecidableEq, Repr

/-- One channel formatter. Times are in LSB (1/64 ECLK) on the model's own clock. -/
structure Channel where
  act : Store QWord := []
  shd : Store QWord := []
  svalid : DWord := 0
  chSafe : BitVec 2 := 1
  slew : BitVec 2 := 3
  swing : Bool := false
  smask : Bool := false
  dmask : Bool := false
  vstatus : Status := .ok
  vset : Nat := 0
  check : Option TsCheck := none
  inSafe : Bool := true
  werr : Bool := false
  coll : Bool := false
  cmpErr : Bool := false
  stbDrop : Nat := 0
  edgeDrop : Nat := 0
  /-- Levels of D and E at the ball (R138, R139, R145). -/
  d : Bool := false
  e : Bool := false
  /-- D has driven a level since reset (R106). -/
  dDriven : Bool := false
  lastD : Option Int := none
  lastE : Option Int := none
  lastStb : Option Int := none
  /-- The last vector's symbols, for K (R106). -/
  symA : Option (BitVec 4) := none
  symB : Option (BitVec 4) := none
  /-- The ECLK at which the breeze slot in progress began: the end of the last vector with a D or E transition or a strobe
  taken (Table 7-2). -/
  quiet : Nat := 0
  /-- The edge type that the TDC is armed for, and the first transition of it that was formatted since (R152). -/
  armTyp : Option Nat := none
  hit : Option Int := none
  /-- The ECLK of the last injected pulse's rise, until its loopback sample is taken (R152, R153). -/
  pulse : Option Nat := none
  deriving DecidableEq, Repr

/-- The 64 channel formatters. -/
structure TimState where
  ch : Store Channel := []
  deriving DecidableEq, Repr

/-! ## 07: Breeze -/

/-- A correction entry (R150, Table 7-14). -/
structure CorrEntry where
  corr : Int := 0
  target : Int := 0
  oor : Bool := false
  mvalid : Bool := false
  /-- Samples gathered, and their sum in 1/128 ECLK (R151, R155). -/
  count : Nat := 0
  sum : Int := 0
  deriving DecidableEq, Repr

/-- CAL_MODECFG (Table 7-12). -/
structure ModeCfg where
  stepEn : Bool := true
  measEn : Bool := true
  orl : Nat := 8
  deriving DecidableEq, Repr

/-- An armed capture of a TDC (R152). -/
structure CapArm where
  ch : Nat
  typ : Fin 4
  /-- The ECLK of the arm. -/
  since : Nat := 0
  deriving DecidableEq, Repr

/-- What the OM2 interval check knows of a channel (R170). -/
structure OM2Chan where
  /-- The channel has been in traffic since the interval began. -/
  throughout : Bool := false
  /-- A BRZ of 512 ECLK or more was seen in the interval. -/
  brz : Bool := false
  deriving DecidableEq, Repr

/-- A sweep in progress: its channels, the entries measured so far, as 5 c + t, and the owner of a CAL_SWEEP (R172). -/
structure Sweep where
  swept : DWord
  got : List Nat := []
  owner : Option Owner
  deriving DecidableEq, Repr

/-- The CAL block. Entry `t` of channel `c` lies at key 5 c + t. -/
structure CalState where
  ent : Store CorrEntry := []
  freeze : Bool := false
  holdoff : Bool := false
  werr : Bool := false
  stepcnt : BitVec 8 := 0
  /-- The step counter runs: a TPLL has locked since reset (R161). -/
  counting : Bool := false
  /-- The counter wrapped at the last boundary and its steps are still due: the channels in traffic at step 2 (R161). -/
  stepDue : Option DWord := none
  /-- Channels whose step at the current boundary is cancelled (R36). -/
  cancel : DWord := 0
  tdcFault : BitVec 16 := 0
  steal : Bool := true
  intv : BitVec 24 := 100000
  /-- The first GCI multiple of INTV since OM2 was entered has passed (R170). -/
  intvFull : Bool := false
  om2 : Store OM2Chan := []
  /-- The GCI was a multiple of INTV in OM2 at the last boundary and the window or its check is still due: the engines in
  RUN at step 2 (R169, R170). -/
  winDue : Option DWord := none
  refPer : BitVec 24 := 0
  modeCfg : Store ModeCfg := []
  sweepEn : DWord := 0
  winz : DWord := 0
  miss : DWord := 0
  sweep : Option Sweep := none
  arms : Store (Option CapArm) := []
  /-- Channel served last by each quad's TDC (R156); DESIGN CHOICE (log 5): 0. -/
  lastServed : Store Nat := []
  /-- Loops whose first lock has seeded the channels (R158). -/
  seeded : BitVec 4 := 0
  deriving DecidableEq, Repr

/-! ## 08: fail capture -/

/-- What a collector takes in from the engines, in order (R175, R179, R505). -/
inductive FcItem where
  /-- A failing vector: source, the ECLK at which its fail bits reach the collector (R15), generators, failing channels of the
  octet (bit i: channel 8 k + i), count. -/
  | fail (src at_ : Nat) (xa ya : BitVec 24) (mask : BitVec 8) (cyc : BitVec 26)
  /-- A marker entry of a source, already formed (R183). -/
  | marker (src : Nat) (entry : BitVec 120)
  /-- A close point of a source's region (R505). -/
  | close (src : Nat) (region : Nat)
  /-- A region opens for a source (R204). -/
  | opened (src : Nat) (region : Nat)
  /-- FCTL FLUSH of a source (R127, R192). -/
  | flush (src : Nat)
  /-- A stop of a source: COUNT counters go out (R189). -/
  | count (src : Nat)
  deriving DecidableEq, Repr

/-- An entry queued in a collector, or a close point travelling with the entries (R505). -/
inductive FcEntry where
  /-- An entry, the region that its source had open in the collector when it was formed, and whether it took a reserve
  place (R192). -/
  | entry (e : BitVec 120) (region : Option Nat) (rsv : Bool)
  | close (src : Nat) (region : Nat)
  deriving DecidableEq, Repr

/-- A source (R175 to R179). -/
structure Source where
  enabled : Bool := false
  count : BitVec 26 := 0
  region : Option Nat := none
  wraps : Nat := 0
  deriving DecidableEq, Repr

/-- A source's record inside a collector: its compaction counters (R191) and the region its entries take (R505). -/
structure FcSource where
  region : Option Nat := none
  count : Nat := 0
  first : BitVec 26 := 0
  last : BitVec 26 := 0
  chmask : BitVec 8 := 0
  deriving DecidableEq, Repr

/-- The COUNT-mode counters of one channel (R189). -/
structure FcCount where
  fvec : Nat := 0
  first : BitVec 26 := 0
  last : BitVec 26 := 0
  deriving DecidableEq, Repr

/-- A fail collector. -/
structure Collector where
  /-- What has arrived and is not yet taken in, oldest first. -/
  inq : List FcItem := []
  fifo : List FcEntry := []
  compact : Bool := false
  src : Store FcSource := []
  cnt : Store FcCount := []
  ovf : Nat := 0
  mkDrop : Nat := 0
  deriving DecidableEq, Repr

/-- The FAT modes (Table 8-10). -/
inductive FatMode where
  | append | mergeMode | count
  deriving DecidableEq, Repr

/-- The collectors, the FAT and the FCP block. FAT entries are 120 bits; key k is entry k. -/
structure FcpState where
  src : Store Source := []
  fc : Store Collector := []
  fat : Store (BitVec 120) := []
  /-- Entries with a single-bit error (1) or an uncorrectable error (2) in store (R195). -/
  bad : Store Nat := []
  mode : FatMode := .append
  clrBusy : Option Owner := none
  clearing : Bool := false
  mloss : Bool := false
  ue : Bool := false
  ce : Bool := false
  werr : Bool := false
  wptr : BitVec 22 := 0
  rptr : BitVec 22 := 0
  ueCnt : Nat := 0
  ceCnt : Nat := 0
  eccAddr : Nat := 0
  mlossCnt : Nat := 0
  noblkCnt : Nat := 0
  rloss : BitVec 4096 := 0
  /-- Collector served first in the last SPLL0 cycle (R185); DESIGN CHOICE (log 5): 7. -/
  lastFirst : Nat := 7
  deriving DecidableEq, Repr

/-! ## 09: repair analysis -/

/-- Region states (Table 9-3). -/
inductive RegSt where
  | idle | opened | closing | closed | queued | active | done
  deriving DecidableEq, Repr

/-- A region: its state, its openers (bit n: source n), and for CLOSING the (collector, source) pairs still delivering. -/
structure Region where
  st : RegSt := .idle
  openers : DWord := 0
  waiting : List (Nat × Nat) := []
  deriving DecidableEq, Repr

/-- RAE_STAT.STATE (Table 9-12). -/
inductive RaeSt where
  | idle | gather | must | search | write | ringWait | held
  deriving DecidableEq, Repr

/-- The node state of the solver (R207, R208): assigned rows and columns with their MUST mark. -/
structure RaeNode where
  rows : List (Nat × Bool) := []
  cols : List (Nat × Bool) := []
  sr : Nat := 0
  sc : Nat := 0
  deriving DecidableEq, Repr

/-- The analysis in progress. -/
structure Analysis where
  region : Nat
  cells : List (Nat × Nat) := []
  overflow : Bool := false
  gathered : Bool := false
  loss : Bool := false
  node : RaeNode := {}
  nodes : Nat := 0
  deriving DecidableEq, Repr

/-- A record that waits for the ring (R209, R210). -/
structure RaeRecord where
  words : List Word
  status : Status
  region : Nat
  loss : Bool
  /-- The state the region takes when the record is written. -/
  next : RegSt
  deriving DecidableEq, Repr

/-- The RAE. Descriptors are 128 bits, W0 lowest. -/
structure RaeState where
  desc : Store QWord := []
  reg : Store Region := []
  queue : List Nat := []
  st : RaeSt := .idle
  cur : Option Analysis := none
  out : List RaeRecord := []
  region : Nat := 0
  seq : BitVec 24 := 0
  ringEn : Bool := false
  autoEn : Bool := true
  defBudget : BitVec 16 := 0x100
  werr : Bool := false
  rbase : DWord := 0
  log2u : Nat := 0
  rhead : BitVec 20 := 0
  rtail : BitVec 20 := 0
  deriving DecidableEq, Repr

/-! ## 10: transactions -/

/-- Slot states (Table 10-1). -/
inductive TxnSt where
  | free | opened | preparing | ready | voted | committed | applied | aborted | outstep
  deriving DecidableEq, Repr

/-- A staged action (Table 10-2). -/
inductive Action where
  | tsWrite (set ch : Nat) (tsw : QWord)
  | tsSwap (set ch : Nat)
  | chCfg (ch : Nat) (slew : BitVec 2) (swing : Bool)
  | pageSwap (eng : Nat) (entry : BitVec 12)
  | pinmap (ch map : Nat) (entry : BitVec 16)
  | scrmask (ch : Nat) (scrx scry : BitVec 24) (scrd : DWord)
  | gang (dissolve : Bool) (leader sizeLog2 : Nat) (map : BitVec 4)
  | fabSwap (region : Nat)
  | calBulk (mask : DWord)
  | mode (target : Nat)
  | pwrGroup (state : Nat) (domains : BitVec 40)
  | routeSwap (routers : BitVec 36)
  | rampStart (slot : Nat)
  deriving DecidableEq, Repr

/-- A vote received by the coordinator (R231, R232). -/
structure VoteRec where
  addr : Nat
  yes : Bool
  dNs : Nat
  deriving DecidableEq, Repr

/-- A transaction slot. -/
structure TxnSlot where
  st : TxnSt := .free
  kind : Nat := 0
  cause : Status := .ok
  acts : List Action := []
  xid : Word := 0
  target : Target := {}
  detail : Nat := 0
  dNs : Nat := 0
  tgtHiCap : Word := 0
  owner : Option Owner := none
  /-- Delivery has started, and has been completed (R223). -/
  delivering : Bool := false
  delivered : Bool := false
  /-- Order of decision on this device (R227). -/
  order : Nat := 0
  scope : Scope := .all
  participants : List Nat := []
  votes : List VoteRec := []
  /-- PREPARE has been sent or received. -/
  prepared : Bool := false
  /-- What the delivery of a timing set write overwrote: channel, set, shadow copy and its TIM_SVALID bit (R135). -/
  saved : List (Nat × Nat × QWord × Bool) := []
  deriving DecidableEq, Repr

/-- The TXN block. -/
structure TxnState where
  slot : Store TxnSlot := []
  voteTmo : Nat := 50
  /-- OUT_OF_STEP under R233 and under R43, each with what TXN_OOS shows. -/
  oosTxn : Bool := false
  oosBeat : Bool := false
  oosSrcBeat : Bool := false
  oosSlot : Nat := 0
  oosXid : Word := 0
  /-- Decisions made so far on this device (R227). -/
  decided : Nat := 0
  /-- Staging memory as NoC requests read and write it (Table 15-8), key the offset in it. Where in it the staged actions
  lie the spec does not say (DESIGN CHOICE, log 54). DESIGN CHOICE (log 5): zero at reset. -/
  staging : List Host.Cell := []
  deriving DecidableEq, Repr

/-! ## 11: Byith link -/

/-- BYT_PORT_STAT.ROLE (Table 11-14). -/
inductive PortRole where
  | down | training | upstream | downstream | blocked
  deriving DecidableEq, Repr

/-- A CTRL or DISC frame that waits for its ACK (R242). -/
structure TxFrame where
  frame : Frame
  resends : Nat := 0
  deriving DecidableEq, Repr

/-- A Byith port. -/
structure Port where
  role : PortRole := .down
  stage : Nat := 0
  partner : Nat := 0
  partnerHolds : Bool := false
  partnerRoot : Bool := false
  partnerDepth : Nat := 0
  partnerUid : DWord := 0
  /-- HELLO has been received since training began. -/
  hello : Bool := false
  enabled : Bool := true
  latValid : Bool := false
  latPs : Nat := 0
  asym : BitVec 16 := 0
  retrain : Nat := 0
  frames : Nat := 0
  seq : BitVec 8 := 0
  unacked : List TxFrame := []
  echoCount : Nat := 0
  /-- Sum of the echo values, in 1/256 ps (R248). -/
  echoSum : Int := 0
  /-- A new mean to apply at the next marker (R248). -/
  latNew : Option Nat := none
  /-- When the last frames were dropped, at most 16, newest first, and when EV152's CRC was raised last (R261), in beats
  since the device began to count. -/
  drops : List Nat := []
  dropEv : Option Nat := none
  /-- UPFIX and UPSEL as this training of the port began with them (R263). -/
  fix : Option Nat := none
  deriving DecidableEq, Repr

/-- BYT_STAT.JSTATE (Table 11-13). -/
inductive JState where
  | none | training | joining | joined | refused | root
  deriving DecidableEq, Repr

/-- A directory entry (Table 11-15), with the UID that last held the address (R245). -/
structure DirEnt where
  present : Bool := false
  eligible : Bool := false
  ready : Bool := false
  depth : Nat := 0
  parent : Nat := 0
  latPs : Nat := 0
  uid : DWord := 0
  deriving DecidableEq, Repr

/-- The BYT block. -/
structure BytState where
  upFix : Bool := false
  upSel : Nat := 0
  jstate : JState := .none
  aligned : Bool := false
  eligible : Bool := false
  upPort : Option Nat := none
  depth : Nat := 0
  addr : Nat := 0
  /-- The unique identity from OTP (R245); DESIGN CHOICE (log 4): 0. -/
  uid : DWord := 0
  sumIntv : BitVec 16 := 0
  fwdDrop : Nat := 0
  fwdTail : BitVec 8 := 0
  fwdHead : BitVec 8 := 0
  fwdRing : Store (BitVec 256) := []
  port : Store Port := []
  dir : Store DirEnt := []
  group : Store (BitVec 1024) := []
  sumTab : Store QWord := []
  /-- Channels with a fail bit since the last summary, and the summary number (Table 11-9). -/
  failMask : DWord := 0
  sumSeq : BitVec 16 := 0
  /-- Markers in a row within 5 ps (R251), and missing in a row (R253). -/
  good : Nat := 0
  missing : Nat := 0
  /-- The next marker loads EPOCH and GCI (R251, R258). -/
  loadNext : Bool := false
  realigning : Bool := false
  /-- The next marker of this device is the first of a new epoch (R254). -/
  newEpoch : Bool := false
  /-- HOLD is set in the device's own markers (R253, R256). -/
  hold : Bool := false
  /-- Frames sent, oldest first: the port and the frame (the model's record of what left the device, log 9). -/
  sent : List (Nat × Frame) := []
  deriving DecidableEq, Repr

/-! ## 17: power domains -/

/-- A domain's state (Table 17-12). -/
inductive DomSt where
  | on | retention | off | changing
  deriving DecidableEq, Repr

/-- A power domain (17_power_domains.md). -/
structure Domain where
  st : DomSt := .on
  /-- The state that a changing domain goes to. -/
  goal : DomSt := .on
  /-- The domain has been Off since it was last On (R379). -/
  lost : Bool := false
  /-- The NoC edge is closed (R19, R353). -/
  closed : Bool := false
  /-- EV193 has been raised in this fence (R353). -/
  told : Bool := false
  /-- PWR_WAKE: EN, EVT and LATCH, and the source that set the latch. -/
  en : BitVec 5 := 0
  evt : BitVec 8 := 0
  latch : Bool := false
  latchSrc : Nat := 0
  deriving DecidableEq, Repr

/-- A power request (R380 to R388): a PWR_SET command, or one power action of a transaction; the requests of one
transaction fence, agree and apply together. -/
structure PwrReq where
  slot : Option Nat := none
  owner : Option Owner := none
  goal : DomSt := .on
  /-- The domains that the request names. -/
  set : BitVec 40 := 0
  /-- Domains whose drain is not complete, and domains that the request fenced, in order. -/
  draining : BitVec 40 := 0
  fenced : List Nat := []
  /-- Every domain has agreed, and the beat boundaries left until a PWR_SET applies (R388). -/
  agreed : Bool := false
  due : Nat := 0
  applied : Bool := false
  /-- Domains whose entry or restore is not complete. -/
  left : BitVec 40 := 0
  deriving DecidableEq, Repr

/-- The PWR block. -/
structure PwrState where
  dom : Store Domain := []
  reqs : List PwrReq := []
  droop : Bool := false
  seen : Bool := false
  /-- VIN in mV as last sensed; DESIGN CHOICE (log 4): 12,000. -/
  vinMv : Nat := 12000
  droopMv : Nat := 4400
  werr : Bool := false
  lstatus : Status := .ok
  ldomain : Nat := 0
  rail : BitVec 8 := 0
  timerEn : Bool := false
  expired : Bool := false
  countUs : BitVec 24 := 0
  /-- When PWR_TIMER was written last, in ticks of the model's clock. -/
  timerAt : Nat := 0
  /-- The lockout is engaged (R374). -/
  lockout : Bool := false
  deriving DecidableEq, Repr

/-! ## 15: the network on chip and the Steward -/

/-- A Lens probe (R354, R355, Table 15-15). -/
structure Lens where
  mode : Nat := 0
  /-- 0 IDLE, 1 RUNNING, 2 TRIGGERED, 3 STOPPED. -/
  st : Nat := 0
  post : BitVec 7 := 0
  dir : Bool := false
  port : BitVec 3 := 0
  router : BitVec 6 := 0
  mtch : QWord := 0
  mask : QWord := 0
  pkt : Nat := 0
  units : Nat := 0
  thresh : Word := 0
  wptr : BitVec 8 := 0
  /-- Entries still to write after the trigger. -/
  left : Nat := 0
  /-- EV200 + k has fired since the last arming (R354). -/
  fired : Bool := false
  trace : Store (BitVec 256) := []
  deriving DecidableEq, Repr

/-- A request of an initiator (R348, R352): outstanding, or timed out with its response still to come. -/
inductive TagSt where
  | free | outstanding | timedOut
  deriving DecidableEq, Repr

/-- The NOC block. Route table words lie at key 0x100 r + 0x20 p + 4 w, as in Table 15-13. -/
structure NocState where
  werr : Bool := false
  drainFail : Bool := false
  unmap : Nat := 0
  postDrop : Nat := 0
  late : Nat := 0
  drainTmo : Nat := 200
  vstatus : Status := .ok
  /-- The routers that a check in progress names (R349). -/
  check : Option (BitVec 36) := none
  vrouter : Nat := 0
  vport : Nat := 0
  vdest : Nat := 0
  checkLo : Word := 0
  swapLo : Word := 0
  svalid : BitVec 36 := 0
  act : Store Word := []
  shd : Store Word := []
  /-- NOC_TMO, as the difference from its reset value of 100 µs is listed: key i. -/
  tmo : Store Nat := []
  /-- Key 1024 SRC + TAG. -/
  tags : Store TagSt := []
  lens : Store Lens := []
  /-- Requests that wait, oldest first: the domain, the CMD and the request. They wait at the edge of a domain under
  self-test (R436), inside a domain that is being fenced (R353), or, with 40 for the domain, for Bus Master Enable (R318). A
  request with a STATUS that is not zero is an access of host software. -/
  held : List (Nat × Nat × Packet) := []
  /-- Responses sent to initiators, oldest first (log 9). -/
  sent : List Packet := []
  deriving DecidableEq, Repr

/-- The registers of the Steward's RV32IMC core (R337): pc and x1 to x31; DESIGN CHOICE (log 57): zero after a reset. -/
structure StwCore where
  pc : Word := 0
  x : Store Word := []
  deriving DecidableEq, Repr

/-- The Steward (R337 to R343). -/
structure StwState where
  restarting : Bool := false
  safeRom : Bool := false
  /-- The next restart runs without patches (R338). -/
  safeNext : Bool := false
  /-- The installed bundle, its active entries and its LEVEL, as the newest boot record gives them; DESIGN CHOICE (log 4):
  none. -/
  installed : Bool := false
  bundle : Nat := 0
  active : Word := 0
  level : BitVec 16 := 0
  werr : Bool := false
  lastRsn : Nat := 0
  periodMs : Nat := 100
  wdogCnt : Nat := 0
  restarts : Nat := 0
  /-- Watchdog restarts in the operating second `wdogSec` (R338). -/
  wdogSec : Word := 0
  wdogIn : Nat := 0
  /-- Steward SRAM, key the offset from 0x1000_0000; DESIGN CHOICE (log 5): zero. -/
  sram : List Host.Cell := []
  /-- The active patch table: slot, ROM address, word. -/
  patch : Store (Word × Word) := []
  core : StwCore := {}
  /-- The command that waits for the end of the restart (R342, R343). -/
  owner : Option Owner := none
  deriving DecidableEq, Repr

/-! ## 18: NV store -/

/-- What a code word holds (R393, R395): nothing, data with the CBITS that a read of it finds (R397; 15: uncorrectable),
or an unknown state after a power loss or a failed verify. -/
inductive NvCell where
  | erased
  | data (w : QWord) (cbits : BitVec 4)
  | unknown
  deriving DecidableEq, Repr

/-- A program in progress (R394): its code word, of the store or of the factory calibration row, and its data; `job` says
that the oldest NVS_PROGRAM job waits for it. -/
structure NvProg where
  word : Nat
  row : Bool := false
  data : QWord
  job : Bool := false
  deriving DecidableEq, Repr

/-- An erase in progress: its block or the row, the suspend cause (Table 18-10), and whether it has stopped (R399). -/
structure NvErase where
  block : Nat
  row : Bool := false
  susp : Nat := 0
  stopped : Bool := false
  owner : Option Owner := none
  deriving DecidableEq, Repr

/-- A bank's operations (R403). -/
structure NvBank where
  prog : Option NvProg := none
  erase : Option NvErase := none
  lstatus : Status := .ok
  deriving DecidableEq, Repr

/-- A TCI command that waits for its bank (R407). -/
inductive NvJob where
  | read (o : Owner) (addr len host : Nat)
  | program (o : Owner) (word : Nat) (left : List QWord) (done : Nat)
  | erase (o : Owner) (block : Nat)
  deriving DecidableEq, Repr

/-- The sequencer (R400): the step reached (0 closed, 1 and 2 keys, 3 command, 4 address, 5 to 7 data), its owner and
what was written. -/
structure NvSeq where
  step : Nat := 0
  src : Nat := 0
  cmd : Nat := 0
  addr : Word := 0
  data : List Word := []
  deriving DecidableEq, Repr

/-- A protection zone (R406): 0 OPEN, 1 LOCKED, 2 UNLOCKED, 3 BLOCKED; DESIGN CHOICE (log 4): OPEN. -/
structure Zone where
  st : Nat := 0
  wp : Bool := false
  rp : Bool := false
  attempts : Nat := 8
  last : Nat := 0
  first : Nat := 0
  pass : DWord := 0
  deriving DecidableEq, Repr

/-- NVS_RDSTAT (Table 18-11). -/
structure RdStat where
  ue : Bool := false
  susp : Bool := false
  early : Bool := false
  cbits : BitVec 4 := 0
  line : Nat := 0
  deriving DecidableEq, Repr

/-- A line that the Steward core's read path keeps (R398): its number A[25:5], and its two code words with their CBITS. -/
structure NvBuf where
  line : Nat
  words : List (QWord × BitVec 4) := []
  deriving DecidableEq, Repr

/-- The NVS block and the flash. -/
structure NvsState where
  /-- Code words of the store, by A[25:4]; DESIGN CHOICE (log 4): erased. -/
  words : Store NvCell := []
  /-- Blocks that a cut or failed erase left in an unknown state where no code word is listed (R395). -/
  lost : Store Bool := []
  /-- The factory calibration row, by code word (R405); DESIGN CHOICE (log 4): erased. -/
  row : Store NvCell := []
  rowLost : Bool := false
  seq : NvSeq := {}
  seqErr : Bool := false
  werr : Bool := false
  lstatus : Status := .ok
  autosusp : Bool := true
  xip : BitVec 16 := 0
  ethr : Nat := 4
  ewarn : Nat := 0
  bank : Store NvBank := []
  rdstat : Store RdStat := []
  zone : Store Zone := []
  /-- Erase counters (R404); DESIGN CHOICE (log 4): 0. -/
  ecnt : Store Nat := []
  /-- The tick of the last EV209 (R397). -/
  earlyAt : Option Nat := none
  jobs : List NvJob := []
  /-- READ requests that wait for a bank, oldest first (R399). -/
  waiting : List Packet := []
  /-- The initiator served last in the rotation of R398; DESIGN CHOICE (log 5): 63, so that 0 comes first. -/
  lastSrc : Nat := 63
  /-- The prefetch buffer, at most 4 lines, and the branch cache, at most 32, the one used last first (R398). -/
  prefetch : List NvBuf := []
  branch : List NvBuf := []
  /-- The line that the Steward core has read last, from which R398 tells a sequential read. -/
  coreLine : Option Nat := none
  deriving DecidableEq, Repr

/-! ## 12: fabric -/

/-- A port of a block memory (R272): its read data and its optional output register. -/
structure MemPort where
  q : BitVec 72 := 0
  q2 : BitVec 72 := 0
  /-- The bits that the port read and wrote at its last edge (R273). -/
  rd : List Nat := []
  wr : List Nat := []
  deriving DecidableEq, Repr

/-- A fabric region (R282 to R288). -/
structure FabRegion where
  hold : Bool := true
  fxDrop : Bool := false
  rspDrop : Bool := false
  /-- FAB_RCTL, and the policies sampled when the hold began (R283). -/
  rctl : Word := 0
  held : Word := 0
  gsr : Bool := true
  /-- The hold is the start-up's alone: it ends with OUT_RELEASE (Table 13-5). -/
  boot : Bool := true
  /-- The hold is that of a load into the active plane (R302). -/
  loadHold : Bool := false
  deriving DecidableEq, Repr

/-- The fabric. -/
structure FabState where
  gclk : Store Word := []
  werr : Bool := false
  reg : Store FabRegion := []
  hookCfg : Word := 0
  hookDrop : Nat := 0
  /-- Copies in the hook's FIFO with their GAP bits, oldest first (R287). -/
  hook : List (BitVec 120 × Bool) := []
  hookGap : Bool := false
  portClk : BitVec 25 := 0
  /-- Flip-flops that do not hold INIT: key 16 × tile + i, tile 768 n + local number (R266, R267). -/
  ff : Store (Option Bool) := []
  /-- ACC of each word cell (R268). -/
  acc : Store (BitVec 16) := []
  /-- Block memories in bytes with their ninth bit: key 4096 × (24 n + m) + byte (R271). -/
  mem : Store (BitVec 9) := []
  port : Store MemPort := []
  /-- Edges of net k since the GSR of region n was released, up to 2: key 32 n + k (R281). -/
  edges : Store Nat := []
  /-- Event lines as the synchroniser last saw them (R285). -/
  line : Store Bool := []
  /-- WRITE_ENABLE and OUT_RELEASE have completed (Table 13-5). -/
  writeEn : Bool := false
  outRel : Bool := false
  /-- Requests delivered to the user logic of a NoC port and not answered, with the port and the CMD, oldest first
  (R286). -/
  delivered : List (Nat × Nat × Packet) := []
  /-- Requests in the buffer of a NoC port: the units that user logic has still to take, the port, the CMD (R286). -/
  inbox : List (Nat × Nat × Nat × Packet) := []
  /-- What the multiplexer of each general routing line across a border gave last: key 6,144 × border + 3,072 for a line
  eastward + line (R275, R276). -/
  route : Store Bool := []
  /-- What logic gave the enabled driver of each spine segment last: key 256 × border + 32 × band + track (R277). -/
  spine : Store Bool := []
  /-- The carry that each word cell of a region's east column gave last, by tile (R269). -/
  carry : Store Bool := []
  /-- What logic drives at each user I/O ball (R297). -/
  uio : Store (Option Bool) := []
  deriving DecidableEq, Repr

/-! ## 13: configuration -/

/-- A configuration plane (R289). CFG frame payloads by FRAME, block memory chunks by 39 × BM + CHUNK. -/
structure Plane where
  cfg : Store (BitVec 960) := []
  bmi : Store (BitVec 960) := []
  valid : Bool := false
  sid : Word := 0
  deriving DecidableEq, Repr

/-- The global record (R297). -/
structure GlobalRec where
  valid : Bool := false
  gclk : List Word := []
  rctl : List Word := []
  portClk : Word := 0
  hookCfg : Word := 0
  pulls : Word := 0
  su : DWord := 0
  tpllWait : Bool := false
  deriving DecidableEq, Repr

/-- The header of a load in progress (R294), and where its source lies (R311). -/
structure Load where
  owner : Owner
  src : Nat
  addr : Nat
  len : Nat
  full : Bool
  region : Nat
  toActive : Bool
  keysel : Nat
  frames : Nat
  nonce : List Byte
  su : DWord
  tpllWait : Bool
  sid : Word
  /-- The 64 header bytes, the additional authenticated data (R298). -/
  hdr : List Byte
  /-- 1 VERIFY, 2 PROGRAM, 3 the start-up steps of a FULL load. -/
  pass : Nat
  /-- The stream after the header, as pass 1 read it: pass 2 must find the same (R301). -/
  seen : List Byte := []
  deriving DecidableEq, Repr

/-- A CFG_SWAP that waits for its boundary (R291). -/
structure SwapPend where
  region : Nat
  due : Nat
  owner : Owner
  deriving DecidableEq, Repr

/-- The CFG block and the planes; what is non-volatile is DESIGN CHOICE (log 4): never loaded. -/
structure CfgState where
  /-- Plane p of region n at key 2 n + p. -/
  plane : Store Plane := []
  active : BitVec 16 := 0
  glob : GlobalRec := {}
  load : Option Load := none
  done : Bool := false
  err : Bool := false
  nocfg : Bool := true
  /-- A FULL load runs or has failed, or the device is unconfigured (R303, R304). -/
  blank : Bool := true
  startup : Bool := false
  suStep : Nat := 0
  /-- The step of the slot has completed and so many beats of its delay are left (R306). -/
  suWait : Option Nat := none
  lfull : Bool := false
  lregion : Nat := 0
  lstatus : Status := .ok
  errPos : BitVec 24 := 0xFFFFFF
  prog : Nat := 0
  checked : BitVec 16 := 0
  su : DWord := 0
  tpllWait : Bool := false
  pulls : Word := 0
  swaps : List SwapPend := []
  /-- Regions whose new ACTIVE selection is not yet in the non-volatile store, and the selection that is (R292). -/
  storing : BitVec 16 := 0
  stored : BitVec 16 := 0
  deriving DecidableEq, Repr

/-! ## 20: self-test -/

/-- A self-test, queued or running (R434 to R439). -/
structure BstTest where
  domain : Nat
  cls : Nat
  mask : BitVec 8
  owner : Owner
  running : Bool := false
  /-- What it holds of the save SRAM and of the overflow area (R435). -/
  sram : Nat := 0
  ovf : Nat := 0
  /-- It has stopped at a checkpoint, and whether it yields there (R438). -/
  stopped : Option Bool := none
  /-- A held request asks for a yield, or a BST_ABORT for an abort; its owner waits for the restore. -/
  wantYield : Bool := false
  wantAbort : Bool := false
  aborters : List Owner := []
  /-- SAFE_N fell, and a loop lost lock, while the test ran (R436). -/
  cut : Bool := false
  lockLost : Bool := false
  deriving DecidableEq, Repr

/-- The BST block. -/
structure BstState where
  werr : Bool := false
  budget : Nat := 10
  policy : BitVec 40 := 0x1C00000000
  ovfBase : DWord := 0
  ovfMib : BitVec 12 := 0
  failDrop : Nat := 0
  movf : Bool := false
  /-- The failing cells of the last memory test: both words of each entry. -/
  mfail : List (Word × Word) := []
  res0 : Store Word := []
  res1 : Store Word := []
  tests : List BstTest := []
  /-- Soft repairs: the domain and the repair record (R442). -/
  soft : List (Nat × Word × Word) := []
  deriving DecidableEq, Repr

/-! ## 21: life cycle -/

/-- A transition record (R445). -/
structure TransRec where
  origin : Nat
  target : Nat
  intent : Bool := true
  wiped : Bool := false
  written : Bool := false
  cleared : Bool := false
  deriving DecidableEq, Repr

/-- A base-key slot (R300): the key in force and the OTP generations used. -/
structure KeySlot where
  key : Option (BitVec 256) := none
  gens : Nat := 0
  deriving DecidableEq, Repr

/-- The one-time programmable bits; DESIGN CHOICE (log 4): three transitions to OPERATIONAL, nothing else used. -/
structure Otp where
  recs : List TransRec :=
    [{ origin := 0, target := 1, wiped := true, written := true, cleared := true },
     { origin := 1, target := 2, wiped := true, written := true, cleared := true },
     { origin := 2, target := 3, wiped := true, written := true, cleared := true }]
  /-- Use fuses blown of DIAG_1 to DIAG_4, keys 0 to 3 (R446). -/
  diagUsed : Store Nat := []
  /-- Token digests: 0 TK_FACT, 1 TK_PROV, 2 TK_OPER, 3 TK_RET, 4 to 7 TK_DIAG1 to TK_DIAG4, 8 TK_SCRAP (R448). -/
  digest : Store (Option (BitVec 256)) := []
  /-- The kill bit of R452. -/
  kill : Bool := false
  keys : Store KeySlot := []
  encOnly : Bool := false
  /-- Fuse repairs: the domain and the repair record (R442). -/
  fuses : List (Nat × Word × Word) := []
  deriving DecidableEq, Repr

/-- The LCY block. -/
structure LcyState where
  busy : Bool := false
  resumed : Bool := false
  attempts : Nat := 3
  lstatus : Status := .ok
  deriving DecidableEq, Repr

/-! ## 22: partners, vector memory, test access -/

/-- A partner table entry (Table 22-2, Table 22-7): 0 EMPTY, 1 PRESENT, 2 NODESC, 3 CONFLICT, 4 LOST, 5 HOST. -/
structure PtrEnt where
  st : Nat := 0
  legacy : Bool := false
  bus : Bool := false
  daddr : BitVec 7 := 0
  pid : BitVec 48 := 0
  /-- The descriptor's bytes, while there is one. -/
  desc : List Byte := []
  digest : Word := 0
  missed : Nat := 0
  deriving DecidableEq, Repr

/-- The PTR block. -/
structure PtrState where
  werr : Bool := false
  full : Bool := false
  calRowBad : Bool := false
  legacy : BitVec 2 := 0
  hdBusy : Bool := false
  hdStatus : Status := .ok
  hdIndex : Nat := 0
  hdesc : Store Byte := []
  ent : Store PtrEnt := []
  /-- The entry in force for each channel (R461). -/
  force : Store (Option Nat) := []
  deriving DecidableEq, Repr

/-- A stream (R471, R472): the next address to fetch and the bytes still to enter the FIFO (0 when it is not armed). -/
structure Stream where
  next : Nat := 0
  left : Nat := 0
  owner : Option Owner := none
  deriving DecidableEq, Repr

/-- The VMI block and the vector memory. -/
structure VmiState where
  mem : List Host.Cell := []
  wpage : BitVec 5 := 0
  chFail : BitVec 4 := 0
  training : Bool := true
  wiping : Bool := false
  /-- A wipe follows the training in progress (R470). -/
  wipeDue : Bool := true
  ready : Bool := false
  werr : Bool := false
  cap : Nat := 0
  ranks2 : Bool := false
  rate : BitVec 3 := 0
  wipe : DWord := 0xFFFFFFFFFFFFFFFF
  errStatus : Status := .ok
  errCount : Nat := 0
  stream : Store Stream := []
  /-- The engine served last in the rotation of R472; DESIGN CHOICE (log 5): 63. -/
  last : Nat := 63
  /-- Refreshes issued per channel (the model's record, log 9). -/
  refreshed : Store Nat := []
  deriving DecidableEq, Repr

/-- The TAP (R473 to R476). -/
structure TapState where
  /-- The current instruction; PRESUMED (log 10): IDCODE, as IEEE 1149.1 selects in Test-Logic-Reset. -/
  ir : BitVec 8 := 1
  /-- The update cells of the boundary register, which EXTEST drives from, and what its last Capture-DR found. -/
  bsr : Bsr := {}
  cap : Bsr := {}
  addr : BitVec 48 := 0
  write : Bool := false
  router : BitVec 6 := 0
  data : Word := 0
  status : BitVec 8 := 0
  busy : Bool := false
  /-- The identity register, as IDCODE selects and captures it (R4, R474). -/
  idReg : Word := 0x16403C9B
  /-- The status of the last LCYACC access, and the LCY_STAT that its Capture-DR found (R474). -/
  lcy : Status := .ok
  lcyCap : Word := 0
  deriving DecidableEq, Repr

/-! ## 23: pins -/

/-- The pins and the supply. -/
structure PinState where
  /-- SAFE_N is asserted, or the device acts as though it were (R475). -/
  safeN : Bool := false
  /-- SAFE_N itself. -/
  safePin : Bool := false
  /-- RESET_N is asserted. -/
  reset : Bool := false
  /-- VIN lies above the lockout threshold (R373). -/
  vin : Bool := true
  /-- The device runs: VIN is there and no lockout response has shut it down since (R374, R377, R495). -/
  powered : Bool := true
  /-- The thermal shutdown of R495 holds until VIN is cycled or RESET_N is pulsed. -/
  thermal : Bool := false
  /-- The last thermal event: 0 NORMAL, 1 HOT, 2 OVER (R414). -/
  band : Nat := 0
  /-- Junction temperature as last read, °C; DESIGN CHOICE (log 4): 25. -/
  temp : Int := 25
  /-- The input thresholds of the VREF_IO group, as sensed at power-on: 3.3 V, or else 1.8 V (R481); DESIGN CHOICE (log 4):
  1.8 V. -/
  vref33 : Bool := false
  /-- PRES_N[3:0]; DESIGN CHOICE (log 4): all high. -/
  presN : BitVec 4 := 15
  deriving DecidableEq, Repr

/-- What is fixed at manufacture (R2, R3); DESIGN CHOICE (log 4): speed grade 3, the wider temperature grade, ROM version 0. -/
structure FuseState where
  grade3 : Bool := true
  gradeX : Bool := true
  /-- STW_ROMVER (Table 15-12: fixed, its value not stated). -/
  romVer : Word := 0
  deriving DecidableEq, Repr

/-! ## The device and the state -/

/-- The device: one structure per block. -/
structure Dev where
  fuse : FuseState := {}
  time : TimeState := {}
  mode : ModeState := {}
  clk : ClkState := {}
  evt : EvtState := {}
  log : LogState := {}
  cmd : CmdState := {}
  eng : EngState := {}
  tim : TimState := {}
  cal : CalState := {}
  fcp : FcpState := {}
  rae : RaeState := {}
  txn : TxnState := {}
  byt : BytState := {}
  pwr : PwrState := {}
  noc : NocState := {}
  nvs : NvsState := {}
  fab : FabState := {}
  cfg : CfgState := {}
  bst : BstState := {}
  lcy : LcyState := {}
  ptr : PtrState := {}
  vmi : VmiState := {}
  tap : TapState := {}
  stw : StwState := {}
  pin : PinState := {}
  /-- What register reads returned, oldest first (log 9). -/
  rdata : List Word := []
  fresh : Nat := 0
  deriving DecidableEq, Repr

/-- The reasons a step could stop. No command of this device stops the model: every row of the table has an effect. -/
inductive Fault where
  /-- Raised by no meaning; the type is closed and needs a constructor. Safe: a step never ends in it. -/
  | neverRaised
  deriving DecidableEq, Repr

/-- The reasons a command could be refused. -/
inductive Refusal where
  /-- The command has no meaning yet: raised by its arm of `exec` alone. Safe: no claim about the command is provable. -/
  | notModelled (mnemonic : String)
  deriving DecidableEq, Repr

/-- The whole state: the queue of waiting commands (first in, first out), the one-time programmable bits, and the
device. -/
structure State where
  pending : List Instr := []
  otp : Otp := {}
  dev : Dev := {}
  deriving DecidableEq, Repr

/-- The machine right after the release of RESET_N, before anything has happened to it: every field at the value that
its structure states. -/
def State.reset : State := {}

end Sys2Proof.Machine
end

