-- ==== Sys2Proof/Machine/Ops.lean ====
section
/-! DEFINITION. The named operations over the state: reading and changing an entry of each array of the device, the
tables of the modes (03_operating_modes.md), and the lifting of a change of the device to a step. -/

namespace Sys2Proof.Machine

/-! ## Lifting -/

/-- The device is powered and out of reset: nothing but its supply and its reset pins acts on it otherwise. -/
def Dev.live (d : Dev) : Bool := d.pin.powered && !d.pin.reset

/-- A command that reads the one-time bits and changes the device only; a device without power or in reset ignores it. -/
def State.onDev (s : State) (f : Otp → Dev → Dev) : Host.Outcome State Fault Refusal :=
  .next (if s.dev.live then { s with dev := f s.otp s.dev } else s)

/-- A command that changes the one-time bits and the device. -/
def State.onBoth (s : State) (f : Otp → Dev → Otp × Dev) : Host.Outcome State Fault Refusal :=
  .next (if s.dev.live then { s with otp := (f s.otp s.dev).1, dev := (f s.otp s.dev).2 } else s)

/-- A happening at the supply or at a reset pin. -/
def State.onPins (s : State) (f : Otp → Dev → Otp × Dev) : Host.Outcome State Fault Refusal :=
  .next { s with otp := (f s.otp s.dev).1, dev := (f s.otp s.dev).2 }

/-! ## Arrays -/

/-- The reset value of an engine. -/
def engineReset (_ : Nat) : Engine := {}
/-- Engine `n`. -/
def Dev.engine (d : Dev) (n : Nat) : Engine := Store.get engineReset d.eng.eng n
/-- Make engine `n` be `e`. -/
def Dev.setEngine (d : Dev) (n : Nat) (e : Engine) : Dev :=
  { d with eng := { d.eng with eng := Store.put engineReset d.eng.eng n e } }
/-- Change engine `n`. -/
def Dev.updEngine (d : Dev) (n : Nat) (f : Engine → Engine) : Dev := d.setEngine n (f (d.engine n))

/-- Write a flag (Table 4-2). -/
def Arch.setFlag (a : Arch) (i : Nat) (b : Bool) : Arch := { a with flags := putBit a.flags i b }
/-- Change the registers, those of the state after the last vector, and those that the vectors in flight leave. -/
def Engine.mapArch (e : Engine) (f : Arch → Arch) : Engine :=
  { e with a := f e.a, ckpt := f e.ckpt, flight := e.flight.map fun v => { v with after := f v.after } }

/-- The reset value of a channel. -/
def channelReset (_ : Nat) : Channel := {}
/-- Channel `c`. -/
def Dev.channel (d : Dev) (c : Nat) : Channel := Store.get channelReset d.tim.ch c
/-- Make channel `c` be `x`. -/
def Dev.setChannel (d : Dev) (c : Nat) (x : Channel) : Dev :=
  { d with tim := { d.tim with ch := Store.put channelReset d.tim.ch c x } }
/-- Change channel `c`. -/
def Dev.updChannel (d : Dev) (c : Nat) (f : Channel → Channel) : Dev := d.setChannel c (f (d.channel c))

/-- The reset value of a correction entry. -/
def corrReset (_ : Nat) : CorrEntry := {}
/-- Correction entry `t` of channel `c` (R150). -/
def Dev.corr (d : Dev) (c t : Nat) : CorrEntry := Store.get corrReset d.cal.ent (5 * c + t)
/-- Make correction entry `t` of channel `c` be `x`. -/
def Dev.setCorr (d : Dev) (c t : Nat) (x : CorrEntry) : Dev :=
  { d with cal := { d.cal with ent := Store.put corrReset d.cal.ent (5 * c + t) x } }
/-- Change correction entry `t` of channel `c`. -/
def Dev.updCorr (d : Dev) (c t : Nat) (f : CorrEntry → CorrEntry) : Dev := d.setCorr c t (f (d.corr c t))

/-- The reset value of CAL_MODECFG. -/
def modeCfgReset (_ : Nat) : ModeCfg := {}
/-- CAL_MODECFG of mode `m`. -/
def Dev.modeCfg (d : Dev) (m : Nat) : ModeCfg := Store.get modeCfgReset d.cal.modeCfg m

/-- The reset value of a loop (Tables 16-6 to 16-9); MINPER_PS depends on the grade and the loop (Table 16-8). -/
def loopReset (grade3 : Bool) (i : Nat) : Loop :=
  { minper := if i < 4 then (if grade3 then 320 else 400) else if i = 4 then 640 else 1280 }
/-- Loop `i`: 0 to 3 TPLL0 to TPLL3, 4 SPLL0, 5 SPLL1. -/
def Dev.loop (d : Dev) (i : Nat) : Loop := Store.get (loopReset d.fuse.grade3) d.clk.loops i
/-- Make loop `i` be `l`. -/
def Dev.setLoop (d : Dev) (i : Nat) (l : Loop) : Dev :=
  { d with clk := { d.clk with loops := Store.put (loopReset d.fuse.grade3) d.clk.loops i l } }
/-- Change loop `i`. -/
def Dev.updLoop (d : Dev) (i : Nat) (f : Loop → Loop) : Dev := d.setLoop i (f (d.loop i))

/-- The reset value of a queue. -/
def queueReset (_ : Nat) : Queue := {}
/-- Command queue `q`. -/
def Dev.queue (d : Dev) (q : Nat) : Queue := Store.get queueReset d.cmd.queues q
/-- Make queue `q` be `x`. -/
def Dev.setQueue (d : Dev) (q : Nat) (x : Queue) : Dev :=
  { d with cmd := { d.cmd with queues := Store.put queueReset d.cmd.queues q x } }
/-- Change queue `q`. -/
def Dev.updQueue (d : Dev) (q : Nat) (f : Queue → Queue) : Dev := d.setQueue q (f (d.queue q))

/-- The reset value of an MSI-X entry. -/
def msixReset (_ : Nat) : MsixVec := {}

/-- The reset value of a source. -/
def sourceReset (_ : Nat) : Source := {}
/-- Source `n` of the fail path. -/
def Dev.source (d : Dev) (n : Nat) : Source := Store.get sourceReset d.fcp.src n
/-- Change source `n`. -/
def Dev.updSource (d : Dev) (n : Nat) (f : Source → Source) : Dev :=
  { d with fcp := { d.fcp with src := Store.upd sourceReset d.fcp.src n f } }

/-- The reset value of a collector. -/
def collectorReset (_ : Nat) : Collector := {}
/-- Fail collector `k`. -/
def Dev.collector (d : Dev) (k : Nat) : Collector := Store.get collectorReset d.fcp.fc k
/-- Make collector `k` be `x`. -/
def Dev.setCollector (d : Dev) (k : Nat) (x : Collector) : Dev :=
  { d with fcp := { d.fcp with fc := Store.put collectorReset d.fcp.fc k x } }
/-- Change collector `k`. -/
def Dev.updCollector (d : Dev) (k : Nat) (f : Collector → Collector) : Dev := d.setCollector k (f (d.collector k))

/-- The reset value of a region. -/
def regionReset (_ : Nat) : Region := {}
/-- Repair region `r`. -/
def Dev.region (d : Dev) (r : Nat) : Region := Store.get regionReset d.rae.reg r
/-- Change repair region `r`. -/
def Dev.updRegion (d : Dev) (r : Nat) (f : Region → Region) : Dev :=
  { d with rae := { d.rae with reg := Store.upd regionReset d.rae.reg r f } }

/-- The reset value of a transaction slot. -/
def slotReset (_ : Nat) : TxnSlot := {}
/-- Transaction slot `t`. -/
def Dev.slot (d : Dev) (t : Nat) : TxnSlot := Store.get slotReset d.txn.slot t
/-- Make slot `t` be `x`. -/
def Dev.setSlot (d : Dev) (t : Nat) (x : TxnSlot) : Dev :=
  { d with txn := { d.txn with slot := Store.put slotReset d.txn.slot t x } }
/-- Change slot `t`. -/
def Dev.updSlot (d : Dev) (t : Nat) (f : TxnSlot → TxnSlot) : Dev := d.setSlot t (f (d.slot t))

/-- The reset value of a Byith port. -/
def portReset (_ : Nat) : Port := {}
/-- Byith port `p`. -/
def Dev.port (d : Dev) (p : Nat) : Port := Store.get portReset d.byt.port p
/-- Change Byith port `p`. -/
def Dev.updPort (d : Dev) (p : Nat) (f : Port → Port) : Dev :=
  { d with byt := { d.byt with port := Store.upd portReset d.byt.port p f } }

/-- The reset value of a directory entry. -/
def dirReset (_ : Nat) : DirEnt := {}
/-- Directory entry of address `a`. -/
def Dev.dirEnt (d : Dev) (a : Nat) : DirEnt := Store.get dirReset d.byt.dir a
/-- Change directory entry `a`. -/
def Dev.updDir (d : Dev) (a : Nat) (f : DirEnt → DirEnt) : Dev :=
  { d with byt := { d.byt with dir := Store.upd dirReset d.byt.dir a f } }

/-- The tree latency in ps: the largest latency of a device that the directory holds (R246). -/
def Dev.treeLat (d : Dev) : Nat := d.byt.dir.foldl (fun m e => if e.2.present then max m e.2.latPs else m) 0

/-- The reset value of a power domain. -/
def domainReset (_ : Nat) : Domain := {}
/-- Power domain `n` (Table 17-2). -/
def Dev.domain (d : Dev) (n : Nat) : Domain := Store.get domainReset d.pwr.dom n
/-- Change power domain `n`. -/
def Dev.updDomain (d : Dev) (n : Nat) (f : Domain → Domain) : Dev :=
  { d with pwr := { d.pwr with dom := Store.upd domainReset d.pwr.dom n f } }
/-- Domain `n` is On. -/
def Dev.domOn (d : Dev) (n : Nat) : Bool := decide ((d.domain n).st = .on)

/-- Domain `n` is under logic or memory test (R436). -/
def Dev.tested (d : Dev) (n : Nat) : Bool := d.bst.tests.any fun t => t.running && t.domain == n && (t.cls == 1 || t.cls == 2)

/-! ## Numbers of the power domains (Table 17-2) -/

/-- PD_EQ of the quad of engine or channel `n`. -/
def pdEq (n : Nat) : Nat := 2 + n / 4
/-- PD_RG of fabric region `r`. -/
def pdRg (r : Nat) : Nat := 18 + r
/-- PD_FAT. -/
def pdFat : Nat := 34
/-- PD_NVS. -/
def pdNvs : Nat := 35
/-- PD_VMI. -/
def pdVmi : Nat := 36
/-- PD_BY. -/
def pdBy : Nat := 38

/-! ## Gangs (R89) -/

/-- The first engine of the gang that engine `n` belongs to; `n` itself when ungrouped. -/
def Dev.leader (d : Dev) (n : Nat) : Nat := n / 2 ^ (d.engine n).sizeLog2 * 2 ^ (d.engine n).sizeLog2
/-- The channels that engine `n` drives: its own, or those of the gang it leads. -/
def Dev.driven (d : Dev) (n : Nat) : List Nat := (List.range (2 ^ (d.engine n).sizeLog2)).map (n + ·)
/-- The engine that drives channel `c` (R134). -/
def Dev.driver (d : Dev) (c : Nat) : Nat := d.leader c

/-- The engine is in RUN, WAIT or SYNC. -/
def EngSt.moving : EngSt → Bool
  | .run => true | .wait => true | .sync => true | .idle => false | .stopped => false | .follower => false
/-- The engine is IDLE or STOPPED. -/
def EngSt.halted : EngSt → Bool
  | .idle => true | .stopped => true | .run => false | .wait => false | .sync => false | .follower => false
/-- Every engine is IDLE or STOPPED (a follower counts with its leader). -/
def Dev.allHalted (d : Dev) : Bool := (List.range 64).all fun n => !(d.engine n).st.moving
/-- The channel is in traffic (R161): the engine that drives it is in RUN, WAIT or SYNC, or its own is a FOLLOWER. -/
def Dev.inTraffic (d : Dev) (c : Nat) : Bool := (d.engine (d.driver c)).st.moving || (d.engine c).st == .follower

/-! ## Transactions that hold objects -/

/-- A slot in one of these states holds its objects and is called open (R220). -/
def TxnSt.holds : TxnSt → Bool
  | .opened => true | .preparing => true | .ready => true | .voted => true | .committed => true
  | .free => false | .applied => false | .aborted => false | .outstep => false
/-- The actions staged in open transactions, slot by slot. -/
def Dev.openActs (d : Dev) : List Action :=
  (List.range 8).flatMap fun t => if (d.slot t).st.holds then (d.slot t).acts else []
/-- The actions staged in open transactions other than slot `t`. -/
def Dev.openActsBut (d : Dev) (t : Nat) : List Action :=
  (List.range 8).flatMap fun u => if u ≠ t && (d.slot u).st.holds then (d.slot u).acts else []
/-- The target of a mode-change action in a list of actions. -/
def modeOf : List Action → Option Nat
  | [] => none
  | .mode m :: _ => some m
  | _ :: r => modeOf r
/-- The target of the mode change staged in an open transaction (SYS_MODE_STAT.PEND_MODE). -/
def Dev.pendMode (d : Dev) : Option Nat := modeOf d.openActs

/-! ## Modes (03_operating_modes.md) -/

/-- Channel or engine `n` may run in mode `m` (Table 3-1). -/
def modeRuns (m n : Nat) : Bool := if m = 0 || m = 7 then false else if m = 6 then decide (n < 32) else true
/-- The ECLK range of mode `m` in Hz, and the grade's limit (Table 3-1, R30). -/
def eclkMax (grade3 : Bool) (m : Nat) : Nat := if m = 5 then 1500000000 else if grade3 then 3000000000 else 2400000000
/-- The least ECLK of mode `m` in Hz (Table 3-1). -/
def eclkMin (m : Nat) : Nat := if m = 2 then 2000000000 else 800000000
/-- TPLL `i` is used in mode `m` (Table 16-1: TPLL2 and TPLL3 are off in OM6). -/
def modeUsesTpll (m i : Nat) : Bool := if m = 6 then decide (i < 2) else decide (i < 4)
/-- The kind of loop `i` in mode `m` (Table 16-1): 0 OFF, 1 PLL, 2 DLL. -/
def loopKind (m i : Nat) : Nat := if m = 2 && (1 ≤ i && i ≤ 3) then 2 else if m = 6 && (2 ≤ i && i ≤ 3) then 0 else 1
/-- DNRZ is not allowed in mode `m` (R60). -/
def noDnrz (m : Nat) : Bool := m == 2 || m == 5
/-- Domain `n` is used by mode `m` (Table 3-9). -/
def modeUsesDomain (m n : Nat) : Bool :=
  n == 0 || n == 1 || n == 37 || n == 39 ||
  (if m = 0 || m = 7 then false
   else n == 38 || (decide (2 ≤ n) && decide (n ≤ if m = 6 then 9 else 17)) || (m == 3 && n == 34) || (m == 4 && n == 36))
/-- The change between the modes alters the TPLL arrangement (R64 check 4). -/
def altersTpll (m1 m2 : Nat) : Bool := (m1 == 2) != (m2 == 2) || (m1 == 6) != (m2 == 6)

/-- `mult` × beat frequency compared with a limit: `le` when N / period ≤ hz, with the period in fs. -/
def eclkLe (mult : Nat) (per : Nat) (hz : Nat) : Bool := decide (mult * 10 ^ 15 ≤ hz * per)
/-- N / period ≥ hz. -/
def eclkGe (mult : Nat) (per : Nat) (hz : Nat) : Bool := decide (hz * per ≤ mult * 10 ^ 15)
/-- ECLK with multiplier `n` at the measured beat lies in the range of mode `m`; while no beat is measured there is no
ECLK and no range holds it (log 11). -/
def Dev.eclkIn (d : Dev) (n m : Nat) : Bool :=
  eclkLe n d.time.period.toNat (eclkMax d.fuse.grade3 m) && eclkGe n d.time.period.toNat (eclkMin m)

/-- Every TPLL that the mode uses is locked (R68, Table 2-3). -/
def Dev.tpllsLocked (d : Dev) : Bool :=
  (List.range 4).all fun i => !modeUsesTpll d.mode.mode i || decide ((d.loop i).state = .locked)
/-- Some TPLL that the mode uses is in holdover (Table 2-3). -/
def Dev.tpllHoldover (d : Dev) : Bool :=
  (List.range 4).any fun i => modeUsesTpll d.mode.mode i && decide ((d.loop i).state = .holdover)

/-- The free value counter moves on (log 6). -/
def Dev.bump (d : Dev) : Dev := { d with fresh := d.fresh + 1 }

end Sys2Proof.Machine
end

