-- ==== Sys2Proof/Machine/Time.lean ====
section
/-! DEFINITION. Beats, stamps and schedule targets (02_beat_and_gci.md). -/

namespace Sys2Proof.Machine

/-! ## Durations -/

/-- Nanoseconds as beats, rounded up, at the measured beat period; without a beat one tick stands for 10 ns (log 11). -/
def Dev.beatsOf (d : Dev) (ns : Nat) : Nat :=
  if d.time.period = 0 then ceilDiv ns 10 else ceilDiv (ns * 1000000) d.time.period.toNat

/-- The boundaries to count from the present place in the beat until the first that lies at least `ns` later. -/
def Dev.boundariesFor (d : Dev) (ns : Nat) : Nat :=
  if d.time.period = 0 then max 1 (ceilDiv ns 10)
  else max 1 (ceilDiv (ns * 1000000 * d.time.mult + d.time.eclk * d.time.period.toNat)
    (d.time.mult * d.time.period.toNat))

/-- Picoseconds as beats, rounded up. -/
def Dev.beatsOfPs (d : Dev) (ps : Nat) : Nat :=
  if d.time.period = 0 then ceilDiv ps 10000 else ceilDiv (ps * 1000) d.time.period.toNat

/-- The present ECLK on the model's clock. -/
def Dev.now (d : Dev) : Nat := d.time.base + d.time.eclk

/-- One ECLK passes within the beat; the last ECLK of a beat lasts until its boundary is commanded (log 1). -/
def Dev.eclkTick (d : Dev) : Dev :=
  { d with time := { d.time with eclk := min (d.time.eclk + 1) (d.time.mult - 1) } }

/-- What passes while no command waits (log 1, DESIGN CHOICE): one ECLK of a device that is powered and out of reset. -/
def State.idle (s : State) : State := if s.dev.live then { s with dev := s.dev.eclkTick } else s

/-! ## Stamps (R39) -/

/-- The STATUS byte (Table 2-3). -/
def Dev.stampStatus (d : Dev) : BitVec 8 :=
  BitVec.ofNat 8 (flag 3 d.tpllHoldover + flag 2 d.time.rampActive + flag 1 d.byt.aligned + flag 0 d.tpllsLocked)

/-- FRAC of ECLK `e` and fine position `f` of a beat (R39). -/
def fracOf (e f n : Nat) : BitVec 16 := BitVec.ofNat 16 (65536 * (64 * e + f) / (64 * n))

/-- The long stamp of the present moment; before the first alignment GCI and EPOCH show as zero (R31). -/
def Dev.stamp (d : Dev) : Stamp :=
  let t := d.time
  { epoch := if t.shown then t.epoch else 0, status := d.stampStatus, gci := if t.shown then t.gci else 0,
    frac := fracOf t.eclk 0 t.mult }

/-- The stamp of the current beat's boundary: its FRAC is zero. -/
def Dev.boundaryStamp (d : Dev) : Stamp := { d.stamp with frac := 0 }

/-- The short stamp as one 64-bit word (R39). -/
def Stamp.short (s : Stamp) : DWord :=
  BitVec.ofNat 64 (at' 56 s.epoch.toNat + at' 48 s.status.toNat + s.gci.toNat)
/-- GCI[31:0] of a stamp. -/
def Stamp.lo (s : Stamp) : Word := lo32 s.short
/-- EPOCH, STATUS and GCI[47:32] in the layout of CLK_GCI_HI (Table 2-8). -/
def Stamp.hi (s : Stamp) : Word := hi32 s.short

/-! ## Targets (R41, R46) -/

/-- (E1, G1) is later than (E2, G2) (R41). -/
def Target.later (a b : Target) : Bool :=
  let diff := (a.epoch - b.epoch).toNat
  (1 ≤ diff && diff ≤ 127) || (diff == 0 && decide (b.gci.toNat < a.gci.toNat))

/-- The current (EPOCH, GCI). -/
def Dev.nowTarget (d : Dev) : Target := { epoch := d.time.epoch, gci := d.time.gci }

/-- How a schedule item's target stands to the present (R46): an earlier epoch, or the same epoch and a count at or
before the present one, is LATE; a later epoch is BAD_OPERAND. An epoch 128 away is neither and counts as later
(log 12, DESIGN CHOICE). -/
def Dev.targetStatus (d : Dev) (t : Target) : Status :=
  let diff := (t.epoch - d.time.epoch).toNat
  if diff = 0 then (if d.time.gci.toNat < t.gci.toNat then .ok else .late)
  else if 128 < diff then .late else .badOperand

/-- Beats from the current boundary to a target in the current epoch. -/
def Dev.beatsTo (d : Dev) (t : Target) : Nat := t.gci.toNat - d.time.gci.toNat

/-! ## The ramp profile (R47, R48) -/

/-- The reset value of a segment word. -/
def segReset (_ : Nat) : DWord := 0
/-- Segment word `n` of slot `s` (R47). -/
def Dev.seg (d : Dev) (s n : Nat) : DWord := Store.get segReset d.time.segs (16 * s + n)
/-- KIND of a segment word (Table 2-4): 0 LINEAR, 1 HOLD, 2 END, 3 reserved. -/
def segKind (w : DWord) : Nat := fld w 62 2
/-- DUR_M1. -/
def segDur (w : DWord) : Nat := fld w 40 22
/-- TGT_HZ. -/
def segTgt (w : DWord) : Nat := fld w 0 29
/-- CLK_RAMP_STARTs.START_HZ. -/
def Dev.startHz (d : Dev) (s : Nat) : Nat := if s = 0 then d.time.startHz0.toNat else d.time.startHz1.toNat
/-- The start frequency F of segment `n` of slot `s` (R48). -/
def Dev.segF (d : Dev) (s n : Nat) : Nat := if n = 0 then d.startHz s else segTgt (d.seg s (n - 1))
/-- The profile frequency, as a fraction, `k` beats into segment `n` (R48). -/
def Dev.profile (d : Dev) (s n k : Nat) : Nat × Nat :=
  let w := d.seg s n
  let f := d.segF s n
  let dur := segDur w + 1
  if segKind w = 0 then
    if f ≤ segTgt w then (f * dur + (segTgt w - f) * min k dur, dur)
    else (f * dur - (f - segTgt w) * min k dur, dur)
  else (f, 1)
/-- The profile frequency now; after the ramp's end, the one that it ended on. -/
def Dev.profileNow (d : Dev) : Nat × Nat :=
  if d.time.rampActive then d.profile d.time.rampSlot d.time.rampSeg d.time.rampBeat else d.time.rampHz

end Sys2Proof.Machine
end

