-- ==== Sys2Proof/Machine/Events.lean ====
section
/-! DEFINITION. Firing an event and its routes (R410 to R415), and a record request to the event recorder (R417 to
R425). -/

namespace Sys2Proof.Machine

/-- The payload layout of R199: status, reason, detail. -/
def payload (st : Status) (reason detail : Nat) : Word := word (at' 24 st.code + at' 16 (reason % 256) + detail % 65536)

/-- The payload layout of R173 and R99: status, reason, and two bytes. -/
def payload4 (st : Status) (reason a b : Nat) : Word :=
  word (at' 24 st.code + at' 16 (reason % 256) + at' 8 (a % 256) + b % 256)

/-- The default severity of EVn (Table 19-2). -/
def evtSev (n : Nat) : Nat :=
  if n ≤ 71 then 1
  else if n = 72 then 1 else if n = 73 || n = 74 then 2 else if n = 75 then 0
  else if n = 76 then 0 else if n = 77 then 1 else if n = 78 then 2 else if n = 79 then 1
  else if n ≤ 111 then 0 else if n ≤ 115 then 3 else if n ≤ 119 then 0
  else if n = 120 || n = 121 then 2 else if n = 122 || n = 123 then 3
  else if n = 124 then 0 else if n = 125 then 3 else if n = 126 then 2 else if n = 127 then 0
  else if n ≤ 143 then 2 else if n ≤ 147 then 0 else if n ≤ 151 then 2 else if n ≤ 155 then 1
  else if n = 156 then 0 else if n = 157 then 2 else if n = 158 then 0 else if n = 159 then 3
  else if n ≤ 167 then 1 else if n = 168 then 2
  else if n = 177 then 1 else if n = 180 then 3
  else if n = 192 then 2 else if n = 193 then 1 else if n = 194 || n = 195 then 2 else if n = 196 || n = 197 then 1
  else if n = 209 then 2 else if n = 210 then 3 else if n = 212 || n = 213 then 2 else if n = 214 || n = 215 then 1
  else if n = 225 then 2 else if n = 226 then 3 else if n = 227 then 2
  else if n = 233 then 2 else if n = 234 || n = 235 then 1
  else if n = 241 then 1 else if n = 242 then 3
  else if 244 ≤ n && n ≤ 247 then 2 else if n = 248 || n = 249 then 2 else if n = 251 then 1
  else if n = 252 || n = 253 then 2 else if n = 255 then 2 else 0

/-- EVT_CFG after RESET_N is released (R413). -/
def evtCfgReset (n : Nat) : EvtCfg := { sev := evtSev n, rcd := decide (1 ≤ evtSev n), alert := evtSev n == 3 }
/-- EVT_CFG(n). -/
def Dev.evtCfg (d : Dev) (n : Nat) : EvtCfg := Store.get evtCfgReset d.evt.cfg n
/-- The reset value of EVT_LAST. -/
def evtLastReset (_ : Nat) : EvtLast := {}
/-- EVT_LAST(n). -/
def Dev.evtLast (d : Dev) (n : Nat) : EvtLast := Store.get evtLastReset d.evt.last n

/-- ALERT_N is driven low (Table 19-1). -/
def Dev.alert (d : Dev) : Bool := (List.range 256).any fun n => bit d.evt.stat n && (d.evtCfg n).alert

/-! ## MSI-X (R317) -/

/-- Request vector `n`: the message goes out, or the pending bit is set while the vector or the function is masked or
Bus Master Enable is 0. -/
def Dev.requestVector (d : Dev) (n : Nat) : Dev :=
  let v := Store.get msixReset d.cmd.msix n
  if v.masked || d.cmd.funcMask || !d.cmd.bme then { d with cmd := { d.cmd with pba := setBit d.cmd.pba n } }
  else { d with cmd := { d.cmd with messages := d.cmd.messages ++ [⟨n, dword v.addrLo v.addrHi, v.data⟩] } }

/-- Send every pending message whose mask has cleared (R317). -/
def Dev.flushVectors (d : Dev) : Dev :=
  (bitsOf d.cmd.pba).foldl (fun d n =>
    let v := Store.get msixReset d.cmd.msix n
    if v.masked || d.cmd.funcMask || !d.cmd.bme then d
    else { d with cmd := { d.cmd with
      pba := clrBit d.cmd.pba n
      messages := d.cmd.messages ++ [⟨n, dword v.addrLo v.addrHi, v.data⟩] } }) d

/-! ## Record requests -/

/-- The entry is one more firing of `e` (R422: same event, same payload, KIND EVENT). -/
def LogEnt.same (e f : LogEnt) : Bool :=
  decide (e.kind = .event) && decide (f.kind = .event) && e.event == f.event && decide (e.payload = f.payload)

/-- Count one record of severity `sev` as dropped (R424, R425): LOG_DROP saturates. -/
def LogState.dropped (l : LogState) (sev : Nat) : LogState :=
  let inc (w : Word) : Word := if w = 0xFFFFFFFF#32 then w else w + 1
  let l := { l with dropsBefore := true }
  match sev with
  | 0 => { l with drops0 := inc l.drops0 }
  | 1 => { l with drops1 := inc l.drops1 }
  | 2 => { l with drops2 := inc l.drops2 }
  | _ => { l with drops3 := inc l.drops3 }

/-- Replace the oldest entry whose severity is at most `e`'s and that is no LOG_MEDIA_FAULT: the entry goes and `e`
takes the last place (R424). -/
def replaceOldest (e : LogEnt) : List LogEnt → Option (List LogEnt)
  | [] => none
  | f :: r => if decide (f.sev ≤ e.sev) && decide (f.kind ≠ .mediaFault) then some (r ++ [e])
      else (replaceOldest e r).map (f :: ·)

/-- Merge a repeat into the newest ring entry, or say that it does not match (R424). -/
def mergeNewest (e : LogEnt) : List LogEnt → Option (List LogEnt)
  | [] => none
  | [f] => if f.same e then some [{ f with rep := satAdd 65535 f.rep 1 }] else none
  | f :: r => (mergeNewest e r).map (f :: ·)

/-- The recorder is holding records back: frozen, without a usable block, erasing, before its scan, or PD_NVS is not On
(R424, R426). -/
def Dev.logHeld (d : Dev) : Bool :=
  d.log.frozen || (d.log.degraded && d.log.dcause == 1) || d.log.erasing.isSome || !d.log.scanned || !d.domOn pdNvs

/-- A record request: a repeat of the open record when nothing waits, a repeat of the newest ring entry, or a new ring
entry; an open record of another kind falls due for its seal (R422, R424). The flag says whether the request was
dropped. -/
def Dev.requestRecord (d : Dev) (e : LogEnt) : Dev × Bool :=
  match d.log.opened with
  | some o =>
    if d.log.ring.isEmpty && o.ent.same e && !o.due then
      let ent := { o.ent with rep := satAdd 65535 o.ent.rep 1 }
      ({ d with log := { d.log with opened := some { o with ent := ent, due := ent.rep == 65535 } } }, false)
    else push { d with log := { d.log with opened := some { o with due := true } } }
  | none => push d
where
  push (d : Dev) : Dev × Bool :=
    match mergeNewest e d.log.ring with
    | some r => ({ d with log := { d.log with ring := r } }, false)
    | none =>
      let e := { e with staged := d.logHeld || !d.log.ring.isEmpty }
      if d.log.ring.length < 64 then ({ d with log := { d.log with ring := d.log.ring ++ [e] } }, false)
      else match replaceOldest e d.log.ring with
        | some r => ({ d with log := { d.log with ring := r } }, false)
        | none => ({ d with log := d.log.dropped e.sev }, true)

/-! ## Firing -/

/-- An EVENT entry of the Byith summary path (Table 11-10): 32 bytes, W0 lowest. -/
def fwdEntry (src n : Nat) (p : Word) (s : Stamp) : BitVec 256 :=
  BitVec.ofNat 256 (at' 22 src + n + at' 32 p.toNat + at' 64 s.short.toNat + at' (128 + 16) s.frac.toNat)

/-- Add an entry to the root's forwarded event ring (R260): 128 entries, drops counted. -/
def Dev.forwardEvent (d : Dev) (w : BitVec 256) : Dev :=
  if (d.byt.fwdHead - d.byt.fwdTail).toNat < 128 then
    { d with byt := { d.byt with fwdRing := Store.put (fun _ => 0) d.byt.fwdRing (d.byt.fwdHead.toNat % 128) w,
                                 fwdHead := d.byt.fwdHead + 1 } }
  else { d with byt := { d.byt with fwdDrop := satAdd 65535 d.byt.fwdDrop 1 } }

/-- Send a frame on port `p` with the port's next SEQ (R241); CTRL and DISC frames wait for their ACK (R242). -/
def Dev.sendFrame (d : Dev) (p : Nat) (f : Frame) (acked : Bool) : Dev :=
  let f := { f with seq := (d.port p).seq, src := BitVec.ofNat 10 d.byt.addr }
  let d := d.updPort p fun x =>
    { x with seq := x.seq + 1, unacked := if acked then x.unacked ++ [{ frame := f }] else x.unacked }
  { d with byt := { d.byt with sent := d.byt.sent ++ [(p, f)] } }

/-- Store the payload and stamp, count, set the status bit, and apply the MSI, STW, ALERT and BYT routes (R410, Table
19-1); the recorder route is `fire`'s. -/
def Dev.fireRoutes (d : Dev) (n : Nat) (p : Word) (s : Stamp) : Dev :=
  let cfg := d.evtCfg n
  let rose := !bit d.evt.stat n
  let l := d.evtLast n
  let d := { d with evt := { d.evt with
    last := Store.put evtLastReset d.evt.last n { payload := p, stamp := s, count := satAdd 65535 l.count 1 },
    stat := setBit d.evt.stat n,
    steward := if cfg.stw then d.evt.steward ++ [n] else d.evt.steward } }
  let d := if cfg.msi && rose then d.requestVector n else d
  if cfg.byt && rose then
    if d.time.role = .root then d.forwardEvent (fwdEntry d.byt.addr n p s)
    else match d.byt.upPort with
      | some q => d.sendFrame q { dir := .up, msg := .event (fwdEntry d.byt.addr n p s) } false
      | none => d
  else d

/-- Raise EV241 at most once per second after a drop (R420). EV240 to EV243 form no record (R415). -/
def Dev.raiseDrop (d : Dev) (sev : Nat) (s : Stamp) : Dev :=
  if d.log.dropEvAt.any fun t => decide (d.time.ticks - t < d.beatsOf 1000000000) then d
  else
    let d := { d with log := { d.log with dropEvAt := some d.time.ticks } }
    if (d.evtCfg 241).en then d.fireRoutes 241 (payload .refused 1 sev) s else d

/-- One firing of EVn with a payload and a stamp (R410): nothing while EN is 0. -/
def Dev.fireAt (d : Dev) (n : Nat) (p : Word) (s : Stamp) : Dev :=
  let cfg := d.evtCfg n
  if !cfg.en then d
  else
    let d := d.fireRoutes n p s
    if cfg.rcd && !(240 ≤ n && n ≤ 243) then
      let e : LogEnt := { event := n, payload := p, sev := cfg.sev, opsec := d.log.opsec, pcc := d.log.pcc, stamp := s }
      let (d, lost) := d.requestRecord e
      if lost then d.raiseDrop e.sev s else d
    else d

/-- One firing with the stamp of the present moment. -/
def Dev.fire (d : Dev) (n : Nat) (p : Word) : Dev := d.fireAt n p d.stamp

end Sys2Proof.Machine
end

