-- ==== Sys2Proof/Machine/Access.lean ====
section
/-! DEFINITION. What a register access of host software meets before it reaches its block: the closed NoC edge of a power
domain (R19, R24, R351, R353) and the undecoded offsets (R22). -/

namespace Sys2Proof.Machine

/-- The first FENCED answer of domain `n` in a fence raises EV193 (R353). -/
def Dev.fencedAnswer (d : Dev) (n : Nat) : Dev :=
  if (d.domain n).told then d
  else (d.updDomain n fun x => { x with told := true }).fire 193 (payload .fenced 1 n)

/-- A WRITE_POSTED of initiator `src` failed with a status (R351). -/
def Dev.postFailed (d : Dev) (st : Status) (src : Nat) : Dev :=
  ({ d with noc := { d.noc with postDrop := satAdd 0xFFFFFFFF d.noc.postDrop 1 } }).fire 196 (payload st 1 src)

/-- A host read that domain `n` answers with FENCED (R24). -/
def Dev.hostReadFenced (d : Dev) (n : Nat) : Dev := (d.fire 251 (payload .fenced 2 0)).fencedAnswer n

/-- A host write that domain `n` answers with FENCED (R24). -/
def Dev.hostWriteFenced (d : Dev) (n : Nat) : Dev := (d.postFailed .fenced 0).hostReadFenced n

/-- A service request into domain `n` under test asks the test to yield where its policy is YIELD (R438). -/
def Dev.wantService (d : Dev) (n : Nat) : Dev :=
  if bit d.bst.policy n then d
  else { d with bst := { d.bst with tests := d.bst.tests.map fun t =>
    if t.running && t.domain == n && (t.cls == 1 || t.cls == 2) then { t with wantYield := true } else t } }

/-- A request waits for domain `n` under test (R436, R438). -/
def Dev.holdRequest (d : Dev) (n cmd : Nat) (p : Packet) : Dev :=
  ({ d with noc := { d.noc with held := d.noc.held ++ [(n, cmd, p)] } }).wantService n

/-- The WRITE_POSTED by which initiator `src` writes a register at BAR0 offset `off` (R24), marked as an access that has no
tag. -/
def writePacket (src off : Nat) (v : Word) : Packet :=
  { src := BitVec.ofNat 6 src, len := 1, status := 0xFF, addr := BitVec.ofNat 48 off, be := BitVec.ofNat 16 (15 * 2 ^ (off % 16)),
    data := [BitVec.ofNat 128 (v.toNat * 2 ^ (8 * (off % 16)))] }

/-- A host write of a register in domain `n`: it acts while the domain's edge is open (R19, R24) and waits while the domain
is under test (R436). -/
def Dev.hostWrite (n off : Nat) (v : Word) (f : Dev → Dev) (d : Dev) : Dev :=
  if d.tested n then d.holdRequest n 2 (writePacket 0 off v)
  else if (d.domain n).closed then d.hostWriteFenced n
  else f d

/-- An analogue test of the pads or of the TDC of the quad of engine `n` runs (R432). -/
def Dev.quadTest (d : Dev) (n : Nat) : Bool :=
  d.bst.tests.any fun t => t.running && t.cls == 0 && t.domain == pdEq n && (bit t.mask 0 || bit t.mask 1)

/-- A host write of a register at offset `o` of the TIM block of channel `c`; PADLB and TDCREF answer it with BUSY
(R432, R351). -/
def Dev.timWrite (c o : Nat) (v : Word) (f : Dev → Dev) (d : Dev) : Dev :=
  d.hostWrite (pdEq c) (0x300000 + 0x1000 * c + o) v fun d => if d.quadTest c then d.postFailed .busy 0 else f d

/-- An access to an undecoded offset (R22): counted and reported. -/
def Dev.undecoded (d : Dev) : Dev :=
  ({ d with noc := { d.noc with unmap := satAdd 0xFFFFFFFF d.noc.unmap 1 } }).fire 251 (payload .noRoute 1 0)

/-- What a read returned joins the model's record (log 9). -/
def Dev.returned (d : Dev) (ws : List Word) : Dev := { d with rdata := d.rdata ++ ws }

/-! ## Responses of the NoC -/

/-- Column and row of an initiator's router (Tables 1-5 and 15-7). -/
def srcRouter (src : Nat) : Nat × Nat :=
  if src = 0 then (0, 0) else if src = 6 then (5, 0)
  else if 24 ≤ src && src ≤ 39 then
    let q := src - 24
    if q < 8 then (q % 2, 1 + q / 2) else (4 + q % 2, 1 + (q - 8) / 2)
  else if src = 40 then (2, 3) else if src = 41 then (3, 3) else if src = 42 then (2, 4) else if src = 43 then (3, 4)
  else (1, 0)

/-- A response of a request leaves its target (R346, Table 15-6): RESP with data, or ERR_RESP with a status. -/
def Dev.respond (d : Dev) (p : Packet) (st : Status) (data : List QWord) : Dev :=
  let r := srcRouter p.src.toNat
  let q : Packet := { dx := BitVec.ofNat 3 r.1, dy := BitVec.ofNat 3 r.2, tag := p.tag, src := p.src,
                      len := BitVec.ofNat 6 data.length, be := 0, addr := p.addr, status := BitVec.ofNat 8 st.code, data := data }
  { d with noc := { d.noc with sent := d.noc.sent ++ [q] } }

/-- The answer to a request: a response, or for a WRITE_POSTED the report of its failure (R351). -/
def Dev.reply (d : Dev) (cmd : Nat) (p : Packet) (st : Status) (data : List QWord) : Dev :=
  if cmd = 2 then (if st = .ok then d else d.postFailed st p.src.toNat) else d.respond p st data

end Sys2Proof.Machine
end

