-- ==== Sys2Proof/Machine/Mem.lean ====
section
/-! DEFINITION. Byte memories: host memory, vector memory and the Steward's SRAM are sparse lists of bytes, an unlisted
byte reading 0 (log 8). All words are little-endian (R6). -/

namespace Sys2Proof.Machine

/-- What an unlisted byte reads as. -/
def byteReset (_ : Nat) : Byte := 0

/-- The canonical form of a byte memory: addresses strictly rising, no listed byte equal to what an unlisted one reads as. -/
abbrev Memory.wf (m : List Host.Cell) : Bool := Store.wf byteReset m

/-- Read one byte. -/
def rd8 (m : List Host.Cell) (a : Nat) : Byte := Store.get byteReset m a
/-- Write one byte. -/
def wr8 (m : List Host.Cell) (a : Nat) (b : Byte) : List Host.Cell := Store.put byteReset m a b
/-- Read `n` bytes. -/
def rdBytes (m : List Host.Cell) (a n : Nat) : List Byte := Store.getList byteReset m a n
/-- Write bytes from an address upwards. -/
def wrBytes (m : List Host.Cell) (a : Nat) (l : List Byte) : List Host.Cell := Store.putList byteReset m a l
/-- Read a 32-bit word. -/
def rd32 (m : List Host.Cell) (a : Nat) : Word := word (ofLeBytes (rdBytes m a 4))
/-- Write a 32-bit word. -/
def wr32 (m : List Host.Cell) (a : Nat) (w : Word) : List Host.Cell := wrBytes m a (leBytes 4 w.toNat)
/-- Read `n` words. -/
def rdWords (m : List Host.Cell) (a : Nat) : Nat → List Word
  | 0 => []
  | n + 1 => rd32 m a :: rdWords m (a + 4) n
/-- Write words. -/
def wrWords (m : List Host.Cell) : Nat → List Word → List Host.Cell
  | _, [] => m
  | a, w :: r => wrWords (wr32 m a w) (a + 4) r
/-- Read a 128-bit quantity. -/
def rd128 (m : List Host.Cell) (a : Nat) : QWord := BitVec.ofNat 128 (ofLeBytes (rdBytes m a 16))
/-- Write a 128-bit quantity. -/
def wr128 (m : List Host.Cell) (a : Nat) (w : QWord) : List Host.Cell := wrBytes m a (leBytes 16 w.toNat)

/-- Change host memory. -/
def Dev.setHost (d : Dev) (m : List Host.Cell) : Dev := { d with cmd := { d.cmd with hostMem := m } }

end Sys2Proof.Machine
end

