-- ==== Sys2Proof/Machine/Tci.lean ====
section
/-! DEFINITION. The command queues and the checks that every Tuivar Command Instruction passes (R319 to R331), with the
commands of the SYS group and the events of the CMD block. -/

namespace Sys2Proof.Machine

/-! ## Life cycle (Tables 14-4 and 21-1) -/

/-- The classes of Table 14-4. -/
inductive TciClass where
  | any | ns | live | fr | dg
  deriving DecidableEq, Repr

/-- The class is permitted in life-cycle state `st` (Tables 14-4 and 21-1). -/
def TciClass.permits : TciClass → Nat → Bool
  | .any, _ => true
  | .ns, st => st != 5
  | .live, st => st != 0 && st != 5
  | .fr, st => st == 1 || st == 4
  | .dg, st => decide (8 ≤ st) && decide (st ≤ 11)

/-- The class of a command (Tables 14-5 to 14-7); the fuse form of BST_REPAIR is FR. -/
def tciClass (op : Nat) (w : List Word) : TciClass :=
  if op ≤ 3 || op == 0x81 || op == 0xA2 || op == 0xB0 || op == 0xE0 then .any
  else if op == 0x90 || op == 0x91 || op == 0xB1 then .ns
  else if op == 0x92 then (if bit (w.headD 0) 31 then .fr else .ns)
  else if op == 0xA0 || op == 0xA1 then .dg
  else .live

/-- The LENGTH of a command: its least and its greatest (Tables 14-5 to 14-7, 10-5, 11-7, 13-8); none for an opcode
that names no command. -/
def tciLen (op : Nat) : Option (Nat × Nat) :=
  match op with
  | 0x00 => some (0, 0) | 0x01 => some (0, 0) | 0x02 => some (0, 0) | 0x03 => some (2, 2)
  | 0x10 => some (3, 3) | 0x11 => some (2, 2) | 0x12 => some (2, 2) | 0x13 => some (2, 2)
  | 0x14 => some (1, 1) | 0x15 => some (6, 6) | 0x16 => some (1, 1) | 0x17 => some (4, 4)
  | 0x20 => some (1, 1) | 0x21 => some (2, 2) | 0x30 => some (0, 0)
  | 0x40 => some (1, 1) | 0x41 => some (4, 4)
  | 0x50 => some (3, 3) | 0x51 => some (3, 3) | 0x52 => some (1, 1) | 0x53 => some (0, 0)
  | 0x60 => some (0, 0) | 0x61 => some (1, 4095) | 0x62 => some (1, 37) | 0x63 => some (1, 1)
  | 0x64 => some (1, 1) | 0x65 => some (1, 1) | 0x66 => some (0, 0)
  | 0x70 => some (4, 4) | 0x71 => some (1, 1) | 0x72 => some (0, 0) | 0x73 => some (9, 9) | 0x74 => some (0, 0)
  | 0x80 => some (3, 3) | 0x81 => some (1, 1)
  | 0x90 => some (2, 2) | 0x91 => some (1, 1) | 0x92 => some (3, 3)
  | 0xA0 => some (0, 0) | 0xA1 => some (0, 0) | 0xA2 => some (0, 0)
  | 0xB0 => some (0, 0) | 0xB1 => some (5, 5)
  | 0xC0 => some (4, 4) | 0xC1 => some (0, 0) | 0xC2 => some (1, 1)
  | 0xD0 => some (4, 4) | 0xD1 => some (4, 4) | 0xD2 => some (1, 1) | 0xD3 => some (3, 3)
  | 0xE0 => some (0, 0) | 0xE1 => some (1, 1) | 0xE2 => some (1, 1)
  | _ => none

/-- The mode forbids the command (check 6 of R323, Table 3-3). The rows that depend on a stream's header or on a
transaction are checked where that is read. -/
def tciModeDenied (op : Nat) (w : List Word) (m : Nat) : Bool :=
  let w1 := w.headD 0
  let w2 := w.getD 1 0
  if op == 0x10 || op == 0x11 then m == 0 || m == 7 || (m == 6 && w2 != 0)
  else if op == 0x16 then !bit w1 31 && decide (1 ≤ fld w1 8 3) && m != 3
  else if op == 0x30 then !(m == 0 || m == 7)
  else if op == 0x40 then w1 == 1 && !(m == 0 || m == 3 || m == 7)
  else if op == 0x52 then !(m == 0 || m == 3)
  else if op == 0x90 then (fld w1 8 2 == 1 || fld w1 8 2 == 2) && modeUsesDomain m (fld w1 0 6) && m != 7
  else if op == 0x92 then bit w1 31 && m != 7
  else if op == 0xE2 || op == 0xB1 then m != 7
  else false

/-- The bits of operand words W1, W2, … that the command tables name; a word beyond the list is named whole. -/
def tciNamed (op : Nat) : List Word :=
  let all : Word := 0xFFFFFFFF
  match op with
  | 0x10 => [all, all, 0xFFF]
  | 0x14 => [0x0FFF003F]
  | 0x15 => [0x13F, all, all, 0x1FFF, all, 0xFF01FFFF]
  | 0x16 => [0x8000F73F]
  | 0x17 => [0x3F]
  | 0x20 => [0x1F] | 0x21 => [0xF, 0x7FFFFF]
  | 0x40 => [0x3] | 0x41 => [0xC01FFFFF, 0x3FFFFF]
  | 0x50 => [0x1FFF0FFF] | 0x51 => [0x1FFF0FFF] | 0x52 => [0x1FFF0FFF]
  | 0x61 => [0x7] | 0x63 => [0x7] | 0x64 => [0x7] | 0x65 => [0x7]
  | 0x62 => [0xFF3FF337, all, 0xFF00FFFF, all, 0x7F]
  | 0x70 => [0x3] | 0x71 => [0xF] | 0x73 => [0x1]
  | 0xC0 => [all, 0xFFFF, all, 0xFFFF] | 0xC2 => [0xF]
  | 0x80 => [0x3] | 0x81 => [0x1]
  | 0x90 => [0x33F] | 0x91 => [0x3F] | 0x92 => [0x8000003F]
  | 0xB1 => [0xF]
  | 0xD0 => [0x3FFFFFF, 0x3FFFFFF] | 0xD1 => [0x3FFFFFF, 0x3FFFFFF] | 0xD2 => [0x3FF] | 0xD3 => [0xF]
  | 0xE1 => [0x1F] | 0xE2 => [0x1F]
  | _ => []

/-- An operand word has a bit set that its command does not name (R8). -/
def tciReserved (op : Nat) (w : List Word) : Bool := (w.zip (tciNamed op)).any fun p => p.1 &&& ~~~p.2 != 0

/-- The LENGTH of a TXN_COMMIT, by its kind and scope (Table 10-5). -/
def commitLen (w : List Word) : Nat :=
  let w1 := w.headD 0
  match fld w1 4 2 with
  | 0 => 1
  | 1 => 3
  | 2 => if fld w1 8 2 = 2 then 5 + (fld (w.getD 4 0) 0 7 + 1) / 2 else 4
  | _ => 4

/-! ## Completion -/

/-- Sizes of a queue's rings (R319). -/
def Queue.cqSize (q : Queue) : Nat := if q.loc then 1024 else 2 ^ q.cqLog2w
/-- Responses the response ring holds. -/
def Queue.rqSize (q : Queue) : Nat := if q.loc then 256 else 2 ^ q.rqLog2
/-- The response ring is full (R326). -/
def Queue.rqFull (q : Queue) : Bool := decide (q.rqSize ≤ (q.rqTail - q.rqHead).toNat)

/-- Complete a command (R325 to R327): a quiet OK posts nothing, a response accepted before a PCIe reset is counted in
CMD_LOST (R316), and every other completion waits for its turn in the response ring. -/
def Dev.complete (d : Dev) (o : Owner) (st : Status) (d0 d1 : Word) : Dev :=
  if o.quiet && decide (st = .ok) then d.updQueue o.q fun q => { q with inflight := q.inflight - 1 }
  else if o.gen ≠ d.cmd.gen then
    let d := d.updQueue o.q fun q => { q with inflight := q.inflight - 1 }
    { d with cmd := { d.cmd with lost := if d.cmd.lost = 0xFFFFFFFF#32 then d.cmd.lost else d.cmd.lost + 1 } }
  else d.updQueue o.q fun q =>
    { q with done := q.done ++ [{ tag := o.tag, op := o.op, status := st, data0 := d0, data1 := d1, notify := o.notify }] }

/-- Complete without data. -/
def Dev.answer (d : Dev) (o : Owner) (st : Status) : Dev := d.complete o st 0 0
/-- Complete where an owner waits. -/
def Dev.answer? (d : Dev) (o : Option Owner) (st : Status) : Dev :=
  match o with
  | some o => d.answer o st
  | none => d

/-- The status that a failed DMA answers (R318). -/
def dmaStatus : Dma → Status
  | .done => .ok
  | .unsupported => .mediaError
  | .abort => .mediaError
  | .poisoned => .mediaError
  | .timeout => .timeout
/-- The bit of the Uncorrectable Error Status that logs the error (R318). -/
def aerBit : Dma → Word
  | .done => 0
  | .poisoned => 0x1000
  | .timeout => 0x4000
  | .abort => 0x8000
  | .unsupported => 0x100000
/-- A DMA error of queue `q`: AER logs it, and EV251 fires (R318, Table 19-3). -/
def Dev.dmaEvent (d : Dev) (q : Nat) (x : Dma) : Dev :=
  ({ d with cmd := { d.cmd with aer := d.cmd.aer ||| aerBit x } }).fire 251 (payload (dmaStatus x) 3 q)
/-- End a command whose DMA failed (R318). -/
def Dev.dmaFail (d : Dev) (o : Owner) (x : Dma) : Dev := (d.dmaEvent o.q x).answer o (dmaStatus x)

/-! ## DMA channels (R344) -/

/-- The lowest free channel. -/
def Dev.freeChan (d : Dev) : Option Nat := (List.range 16).find? fun k => (Store.get (fun _ => none) d.cmd.chan k).isNone
/-- The channel that a command holds. -/
def Dev.chanOf (d : Dev) (o : Owner) : Option Nat :=
  (List.range 16).find? fun k => decide (Store.get (fun _ => none) d.cmd.chan k = some o)
/-- The SRC of a command's transfers: its channel's, or the first free one's (Table 15-7). -/
def Dev.dmaSrc (d : Dev) (o : Owner) : Nat := 8 + (d.chanOf o).getD (d.freeChan.getD 0)
/-- Set who holds channel `k`. -/
def Dev.setChan (d : Dev) (k : Nat) (o : Option Owner) : Dev :=
  { d with cmd := { d.cmd with chan := Store.put (fun _ => none) d.cmd.chan k o } }
/-- A command takes a channel until it completes. -/
def Dev.takeChan (d : Dev) (o : Owner) : Dev := match d.freeChan with
  | some k => d.setChan k (some o)
  | none => d
/-- A command gives its channel back. -/
def Dev.dropChan (d : Dev) (o : Owner) : Dev := match d.chanOf o with
  | some k => d.setChan k none
  | none => d
/-- A command that has started waits, and lets those behind it pass (R327). -/
def Dev.park (d : Dev) (c : Tci) (o : Owner) : Dev := { d with cmd := { d.cmd with parked := d.cmd.parked ++ [(o.op, c, o)] } }
/-- A command whose own checks have passed moves its data: it waits for a channel (R344) and, where the data is in host
memory, for Bus Master Enable (R318). `act` holds the channel only while it runs, unless it takes it. -/
def Dev.dma (d : Dev) (host : Bool) (c : Tci) (o : Owner) (act : Dev → Dev) : Dev :=
  if d.freeChan.isNone || (host && !d.cmd.bme) then d.park c o else act d

/-! ## Start of a command -/

/-- What becomes of a command that is to start: it waits, it is answered at once, or it runs. -/
inductive Gate where
  | wait
  | reject (o : Owner) (st : Status) (d : Dev)
  | go (o : Owner) (d : Dev)

/-- The owner that a command's completion answers. -/
def Dev.ownerOf (d : Dev) (op : Nat) (c : Tci) : Owner :=
  { q := c.q, tag := c.tag, op := op, notify := c.notify, quiet := c.quiet, gen := d.cmd.gen }

/-- Checks 2 to 6 of R323, in order, and then the reserved operand bits of R8. -/
def tciStatus (o : Otp → Nat) (otp : Otp) (op : Nat) (c : Tci) (m : Nat) : Status :=
  match tciLen op with
  | none => .badOpcode
  | some (lo, hi) =>
    if c.rsvd ≠ 0 then .badOperand
    else if c.words.length < lo || hi < c.words.length || (op == 0x62 && c.words.length != commitLen c.words) then .badOperand
    else if !(tciClass op c.words).permits (o otp) then .lifecycleDenied
    else if tciModeDenied op c.words m then .modeDenied
    else if tciReserved op c.words then .badOperand
    else .ok

/-- While a life-cycle transition or its resumption runs, every command outside class ANY is answered BUSY (R451,
R454). -/
def Dev.lcyBusy (d : Dev) (op : Nat) (c : Tci) : Bool := d.lcy.busy && decide (tciClass op c.words ≠ .any)

/-- The life-cycle state in force (R445). -/
def Otp.state (o : Otp) : Nat := ((o.recs.filter (·.written)).getLast?.map (·.target)).getD 0

/-- The start of a command (R323, R327, R328): a consumed command starts in ring order, a FENCE waits for every earlier
command of its queue, nothing starts during a Steward restart; a command that was not fetched from a ring counts as
consumed at this moment, and one that has started and waits goes on (log 13). -/
def tciGate (otp : Otp) (op : Nat) (c : Tci) (d : Dev) : Gate :=
  let q := d.queue c.q
  let fetched := q.accepted.contains (op, c)
  let earlier := if fetched then q.inflight - q.accepted.length else q.inflight
  if d.stw.restarting then .wait
  else match d.cmd.parked.find? fun x => x.1 == op && decide (x.2.1 = c) with
  | some x => .go x.2.2 { d with cmd := { d.cmd with parked := d.cmd.parked.erase x } }
  | none =>
  if fetched && !decide (q.accepted.head? = some (op, c)) then .wait
  else if !fetched && (!q.accepted.isEmpty || decide (32 ≤ q.inflight)) then .wait
  else if c.fence && earlier != 0 then .wait
  else
    let o := if fetched && 0 < q.stale then { d.ownerOf op c with gen := 0 } else d.ownerOf op c
    let d := d.updQueue c.q fun q =>
      if fetched then { q with accepted := q.accepted.tail, stale := q.stale - 1 } else { q with inflight := q.inflight + 1 }
    match tciStatus Otp.state otp op c d.mode.mode with
    | .ok => if d.lcyBusy op c then .reject o .busy d else .go o d
    | st => .reject o st d

/-- Run a command: gate, then its own checks and effect. -/
def runTci (op : Nat) (c : Tci) (f : Owner → Dev → Dev) (otp : Otp) (d : Dev) : Dev :=
  match tciGate otp op c d with
  | .wait => d
  | .reject o st d => d.answer o st
  | .go o d => f o d

/-- A command whose helper must reach domain `n`: a closed edge answers FENCED (R19, Table 14-3). -/
def Dev.reach (n : Nat) (f : Owner → Dev → Dev) (o : Owner) (d : Dev) : Dev :=
  if (d.domain n).closed then (d.fencedAnswer n).answer o .fenced else f o d

/-- Run a command whose helper must reach domain `n`: while the domain is under test it waits (R438). -/
def runTciAt (n op : Nat) (c : Tci) (f : Owner → Dev → Dev) (otp : Otp) (d : Dev) : Dev :=
  runTci op c (fun o d => if d.tested n then (d.wantService n).park c o else Dev.reach n f o d) otp d

/-- Run a command that also changes the one-time bits. -/
def runTciOtp (op : Nat) (c : Tci) (f : Owner → Otp → Dev → Otp × Dev) (otp : Otp) (d : Dev) : Otp × Dev :=
  match tciGate otp op c d with
  | .wait => (otp, d)
  | .reject o st d => (otp, d.answer o st)
  | .go o d => f o otp d

end Sys2Proof.Machine

namespace Sys2Proof

/-- Operand word `W(i)`, counted from 1 (R322). -/
def Tci.w (c : Tci) (i : Nat) : Word := c.words.getD (i - 1) 0
/-- A 64-bit operand, low word first. -/
def Tci.w64 (c : Tci) (i : Nat) : DWord := Machine.dword (c.w i) (c.w (i + 1))

end Sys2Proof

namespace Sys2Proof.Machine

/-! ## The rings -/

/-- The word at position `v` of a command ring (R319, R320). -/
def Dev.cqWord (d : Dev) (q : Nat) (v : Nat) : Word :=
  let x := d.queue q
  let i := v % x.cqSize
  if x.loc then Store.get (fun _ => 0) x.cqWin i else rd32 d.cmd.hostMem (x.cqBase.toNat + 4 * i)

/-- Halt a queue (R324). -/
def Dev.haltQueue (d : Dev) (q : Nat) (st : Status) : Dev :=
  let d := d.updQueue q fun x => { x with state := .halted, hstatus := st }
  d.fire 252 (payload .halted 1 q)

/-- A queue from which the Steward can take a command now: RUN, not RQFULL, room in flight, its ring readable, and a
whole command, or one that check 1 refuses, in its ring (R323, R326, R327). -/
def Dev.fetchable (d : Dev) (q : Nat) : Bool :=
  let x := d.queue q
  let avail := (x.cqTail - x.cqHead).toNat
  let len := fld (d.cqWord q x.cqHead.toNat) 0 16
  decide (x.state = .run) && x.en && !x.rqFull && decide (x.inflight < 32) && (x.loc || d.cmd.bme) &&
    decide (2 ≤ avail) && (decide (2 + len ≤ avail) || decide (4095 < len) || decide (x.cqSize < 2 + len))

/-- The queue whose turn it is (R327): the first fetchable one after the queue served last. -/
def Dev.turn (d : Dev) : Option Nat :=
  ([1, 2, 3, 4].map fun i => (d.cmd.last + i) % 4).find? d.fetchable

/-- COMMAND_FETCH: check 1 as soon as the header is read, consumption when every word is present, checks 2 to 4 (R323,
R324). `x` is how the host answers a fetch from host memory (R318). -/
def fetchCommand (q : Nat) (x : Dma) (d : Dev) : Dev :=
  if d.stw.restarting || !decide (d.turn = some q) then d
  else
    let qu := d.queue q
    let d := { d with cmd := { d.cmd with last := q } }
    if !qu.loc && decide (x ≠ .done) then (d.dmaEvent q x).haltQueue q (dmaStatus x)
    else
      let h := d.cqWord q qu.cqHead.toNat
      let tag := d.cqWord q (qu.cqHead.toNat + 1)
      let len := fld h 0 16
      let op := fld h 24 8
      let c : Tci :=
        { q := Fin.ofNat 4 q, tag := tag, notify := bit h 18, quiet := bit h 17, fence := bit h 16,
          rsvd := BitVec.ofNat 5 (fld h 19 5),
          words := (List.range len).map fun i => d.cqWord q (qu.cqHead.toNat + 2 + i) }
      if 4095 < len || qu.cqSize < 2 + len then
        let d := d.updQueue q fun x =>
          { x with cqHead := x.cqHead + 2, haltTag := tag, inflight := x.inflight + 1,
                   done := x.done ++ [{ tag := tag, op := op, status := .badLength, notify := c.notify }] }
        d.haltQueue q .badLength
      else
        let d := d.updQueue q fun x =>
          { x with cqHead := x.cqHead + BitVec.ofNat 24 (2 + len), inflight := x.inflight + 1 }
        match tciLen op with
        | none => d.answer (d.ownerOf op c) .badOpcode
        | some (lo, hi) =>
          if c.rsvd ≠ 0 || len < lo || hi < len then d.answer (d.ownerOf op c) .badOperand
          else d.updQueue q fun x => { x with accepted := x.accepted ++ [(op, c)] }

/-- Raise the notification of a queue (R326). -/
def Dev.notify (d : Dev) (q : Nat) : Dev :=
  (d.updQueue q fun x => { x with unnotified := 0 }).fire 254 (payload .ok 1 (2 ^ q))

/-- The words of a response (Table 14-2). -/
def Completion.words (c : Completion) (v size : Nat) : List Word :=
  [c.tag, word (at' 24 c.status.code + at' 16 (c.op % 256) + (1 - v / size % 2)), c.data0, c.data1]

/-- RESPONSE_POST: write the oldest completion of a queue, which a Steward restart delays (R325, R326, R328). -/
def postResponse (q : Nat) (d : Dev) : Dev :=
  let x := d.queue q
  match x.done with
  | [] => d
  | c :: rest =>
    if d.stw.restarting || x.rqFull || !(x.loc || d.cmd.bme) then d
    else
      let i := x.rqTail.toNat % x.rqSize
      let ws := c.words x.rqTail.toNat x.rqSize
      let d := if x.loc then d else d.setHost (wrWords d.cmd.hostMem (x.rqBase.toNat + 16 * i) ws)
      let d := d.updQueue q fun x =>
        { x with rqWin := if x.loc then Store.putList (fun _ => 0) x.rqWin (4 * i) ws else x.rqWin,
                 rqTail := x.rqTail + 1, done := rest, inflight := x.inflight - 1, unnotified := x.unnotified + 1 }
      if c.notify || x.coalCount = 0 || x.coalCount.toNat ≤ x.unnotified + 1 then d.notify q else d

/-! ## Queue registers (R319, R320, Tables 14-11 to 14-13) -/

/-- A write to CMD_CQ_TAIL. -/
def doorbellWrite (q : Nat) (v : Word) (d : Dev) : Dev :=
  d.updQueue q fun x =>
    let new := BitVec.ofNat 24 v.toNat
    let span := (new - x.cqHead).toNat
    if span ≤ x.cqSize && (x.cqTail - x.cqHead).toNat ≤ span then { x with cqTail := new } else { x with dberr := true }

/-- A write to CMD_RQ_HEAD: the same rule against RQ_TAIL. -/
def rqHeadWrite (q : Nat) (v : Word) (d : Dev) : Dev :=
  d.updQueue q fun x =>
    let new := BitVec.ofNat 24 v.toNat
    if (x.rqTail - new).toNat ≤ (x.rqTail - x.rqHead).toNat then { x with rqHead := new } else { x with werr := true }

/-- Reset a queue whose EN is 0 (R324, Table 14-11). -/
def Queue.resetPtrs (x : Queue) : Queue := { x with cqHead := 0, cqTail := 0, state := .disabled, hstatus := .ok }

/-- A write to CMD_CQ_CTL (R319, Table 14-11). -/
def cqCtlWrite (q : Nat) (w : Word) (d : Dev) : Dev :=
  d.updQueue q fun x =>
    let en := bit w 31
    let loc := bit w 30
    let rq := fld w 8 5
    let cq := fld w 0 5
    let changes := loc != x.loc || rq != x.rqLog2 || cq != x.cqLog2w
    if rq < 4 || 16 < rq || cq < 10 || 20 < cq then { x with werr := true }
    else if changes && !(decide (x.state = .disabled) && x.inflight == 0) then { x with werr := true }
    else
      let x := { x with loc := loc, rqLog2 := rq, cqLog2w := cq }
      let x := if en then { x with en := true, state := if x.state = .disabled then .run else x.state }
        else { x with en := false, state := if x.state = .halted then .halted else .disabled }
      if !bit w 29 then x
      else if en then { x with werr := true }
      else x.resetPtrs

/-- A write to one of the base registers (R319). -/
def cqBaseWrite (q : Nat) (rq hi : Bool) (w : Word) (d : Dev) : Dev :=
  d.updQueue q fun x =>
    if !(decide (x.state = .disabled) && x.inflight == 0) then { x with werr := true }
    else
      let old := if rq then x.rqBase else x.cqBase
      let new := if hi then dword (lo32 old) w else dword (word (w.toNat / 4096 * 4096)) (hi32 old)
      if rq then { x with rqBase := new } else { x with cqBase := new }

/-- PCIE_RESET: the CMD block alone resets; commands already accepted run to completion, their responses counted in
CMD_LOST (R316). `link`: the width, as a power of 2, and the speed that the link has afterwards; none while it is down
(Table 14-10). -/
def pcieReset (link : Option (Fin 3 × Fin 4)) (d : Dev) : Dev :=
  let lost := (List.range 4).foldl (fun n q => n + (d.queue q).done.length) 0
  let fresh (q : Queue) : Queue := { inflight := q.inflight - q.done.length, accepted := q.accepted, stale := q.accepted.length }
  let d := times 4 (fun q d => d.updQueue q fresh) d
  { d with cmd := { d.cmd with
      gen := d.cmd.gen + 1
      linkWidth := BitVec.ofNat 4 ((link.map fun l => 2 ^ l.1.val).getD 0)
      linkSpeed := BitVec.ofNat 4 ((link.map fun l => l.2.val + 1).getD 0)
      pba := 0
      lost := word (satAdd 0xFFFFFFFF d.cmd.lost.toNat lost)
      msix := Store.mapVals msixReset (fun v => { v with masked := true }) d.cmd.msix } }

end Sys2Proof.Machine
end

