-- ==== Sys2Proof/Machine/Fail.lean ====
section
/-! DEFINITION. The fail path (08_fail_capture.md): the FAT's error-corrected store, the collectors with their FIFO,
reserve and compaction, and the ingest of entries in the three FAT modes. -/

namespace Sys2Proof.Machine

/-! ## FCP_RLOSS and the counters -/

/-- Set the FCP_RLOSS bit of region `r`; the first setting raises EV73 with the reason (R188, Table 8-8). -/
def Dev.setRloss (d : Dev) (r reason : Nat) : Dev :=
  if bit d.fcp.rloss r then d
  else
    let d := { d with fcp := { d.fcp with rloss := setBit d.fcp.rloss r, mloss := true } }
    d.fire 73 (payload .refused reason r)

/-- Count failing vectors not merged (FCP_MLOSS, saturating). -/
def Dev.addMloss (d : Dev) (n : Nat) : Dev :=
  { d with fcp := { d.fcp with mlossCnt := satAdd 0xFFFFFFFF d.fcp.mlossCnt n } }
/-- Count failing vectors outside any block (FCP_NOBLK, saturating). -/
def Dev.addNoblk (d : Dev) (n : Nat) : Dev :=
  { d with fcp := { d.fcp with noblkCnt := satAdd 0xFFFFFFFF d.fcp.noblkCnt n } }
/-- Failing vectors that merged nothing: lost to their region, or outside any block (R188, R194). -/
def Dev.notMerged (d : Dev) (region : Option Nat) (n reason : Nat) : Dev :=
  match region with
  | some r => (d.setRloss r reason).addMloss n
  | none => d.addNoblk n

/-! ## The store (R182, R184, R195) -/

/-- FAT entry `k` as stored; an unlisted entry is EMPTY. -/
def Dev.fatEntry (d : Dev) (k : Nat) : BitVec 120 := Store.get (fun _ => 0) d.fcp.fat k
/-- The error standing in FAT entry `k`: 0 none, 1 correctable, 2 uncorrectable. -/
def Dev.fatBad (d : Dev) (k : Nat) : Nat := Store.get (fun _ => 0) d.fcp.bad k
/-- Write FAT entry `k` with fresh check bits. -/
def Dev.fatWrite (d : Dev) (k : Nat) (e : BitVec 120) : Dev :=
  { d with fcp := { d.fcp with
      fat := Store.put (fun _ => 0) d.fcp.fat k e
      bad := Store.drop d.fcp.bad k } }
/-- The counting and reporting of a read of entry `k` (R195). -/
def Dev.fatReadEffect (d : Dev) (k : Nat) : Dev :=
  if d.fatBad k = 1 then
    { d with fcp := { d.fcp with ce := true, ceCnt := satAdd 65535 d.fcp.ceCnt 1 } }
  else if d.fatBad k = 2 then
    let d := { d with fcp := { d.fcp with ue := true, ueCnt := satAdd 65535 d.fcp.ueCnt 1, eccAddr := k } }
    d.fire 74 (payload .mediaError 1 (k / 2 % 32))
  else d
/-- The 16 bytes that a read of entry `k` returns (R184). -/
def Dev.fatRead128 (d : Dev) (k : Nat) : QWord :=
  BitVec.ofNat 128 ((d.fatEntry k).toNat + flag 127 (d.fatBad k == 2) + flag 126 (d.fatBad k == 1))

/-! ## Entries (R177, R182, R183) -/

/-- TYPE of an entry (Table 8-3). -/
def feType (e : BitVec 120) : Nat := fld e 0 4
/-- SRC. -/
def feSrc (e : BitVec 120) : Nat := fld e 4 6
/-- XA. -/
def feXa (e : BitVec 120) : Nat := fld e 10 24
/-- YA. -/
def feYa (e : BitVec 120) : Nat := fld e 34 24
/-- DMASK. -/
def feDmask (e : BitVec 120) : Nat := fld e 58 32
/-- PART. -/
def fePart (e : BitVec 120) : Nat := fld e 90 2
/-- REGION of an MFAIL entry (Table 8-4). -/
def feRegion (e : BitVec 120) : Nat := fld e 106 12
/-- HITS of an MFAIL entry. -/
def feHits (e : BitVec 120) : Nat := fld e 92 14

/-- The FAIL entry of a failing vector in octet `k` (R177). -/
def failEntry (k src : Nat) (xa ya : BitVec 24) (m : BitVec 8) (cyc : BitVec 26) : BitVec 120 :=
  let ps := (bitsOf m).map fun i => 8 * k + i - src
  BitVec.ofNat 120 (1 + at' 4 src + at' 10 xa.toNat + at' 34 ya.toNat
    + at' 58 (ps.foldl (fun v p => v ||| 2 ^ (p % 32)) 0) + at' 90 (ps.headD 0 / 32) + at' 92 cyc.toNat)

/-- The OVF entry of a source (Table 8-5). -/
def ovfEntry (k src : Nat) (s : FcSource) : BitVec 120 :=
  BitVec.ofNat 120 (3 + at' 4 src + at' 10 s.count + at' 42 s.first.toNat + at' 68 s.last.toNat
    + at' 94 s.chmask.toNat + at' 102 k + at' 105 (s.region.getD 0) + flag 117 s.region.isSome)

/-- The CNT entry that adds a channel's counters to what an entry holds (R189, Table 8-6). -/
def cntEntry (old : BitVec 120) (region : Option Nat) (c : Nat) (x : FcCount) : BitVec 120 :=
  let held := feType old == 8
  let fvec := satAdd 0xFFFFFFFF (if held then fld old 10 32 else 0) x.fvec
  let first := if held then fld old 42 26 else x.first.toNat
  BitVec.ofNat 120 (8 + at' 4 c + at' 10 fvec + at' 42 first + at' 68 x.last.toNat
    + at' 94 (region.getD 0) + flag 106 region.isNone)

/-! ## The collectors (R189 to R194, R505) -/

/-- The entries in the FIFO proper. -/
def Collector.level (x : Collector) : Nat :=
  (x.fifo.filter fun e => match e with | .entry _ _ r => !r | .close _ _ => false).length
/-- The reserve places in use. -/
def Collector.rsv (x : Collector) : Nat :=
  (x.fifo.filter fun e => match e with | .entry _ _ r => r | .close _ _ => false).length

/-- What a collector keeps of source `n`. -/
def Collector.source (x : Collector) (n : Nat) : FcSource := Store.get (fun _ => {}) x.src n
/-- Change what a collector keeps of source `n`. -/
def Collector.updSource (x : Collector) (n : Nat) (f : FcSource → FcSource) : Collector :=
  { x with src := Store.upd (fun _ => {}) x.src n f }
/-- Queue an entry. -/
def Collector.queue (x : Collector) (e : FcEntry) : Collector := { x with fifo := x.fifo ++ [e] }
/-- Restart the compaction counters of a source (R192). -/
def FcSource.restart (s : FcSource) : FcSource := { region := s.region }

/-- EV64 + k with a reason (Table 8-8). -/
def Dev.fcEvent (d : Dev) (k : Nat) (st : Status) (reason detail : Nat) : Dev := d.fire (64 + k) (payload st reason detail)

/-- One marker or OVF entry of source `n` found no place (R192). -/
def Dev.mkDrop (d : Dev) (k n : Nat) : Dev :=
  (d.updCollector k fun x => { x with mkDrop := satAdd 65535 x.mkDrop 1 }).fcEvent k .refused 3 n

/-- Queue the OVF entry of source `n` if its COUNT is non-zero, and restart its counters (R192). -/
def Dev.queueOvf (d : Dev) (k n : Nat) : Dev :=
  let x := d.collector k
  let s := x.source n
  if s.count = 0 then d
  else
    let d := d.updCollector k fun x => x.updSource n FcSource.restart
    if x.level < 4096 then d.updCollector k fun x => x.queue (.entry (ovfEntry k n s) s.region false)
    else if x.rsv < 64 then d.updCollector k fun x => x.queue (.entry (ovfEntry k n s) s.region true)
    else
      let d := d.mkDrop k n
      if d.fcp.mode = .mergeMode then d.notMerged s.region s.count 2 else d

/-- Queue a marker of source `n` (R192). -/
def Dev.queueMarker (d : Dev) (k n : Nat) (e : BitVec 120) : Dev :=
  let d := d.queueOvf k n
  let x := d.collector k
  let r := (x.source n).region
  if x.level < 4096 then d.updCollector k fun x => x.queue (.entry e r false)
  else if x.rsv < 56 then d.updCollector k fun x => x.queue (.entry e r true)
  else d.mkDrop k n

/-- Compact one failing vector (R191). -/
def Dev.compactFail (d : Dev) (k n : Nat) (m : BitVec 8) (cyc : BitVec 26) : Dev :=
  d.updCollector k fun x =>
    { x.updSource n fun s =>
        { s with count := satAdd 0xFFFFFFFF s.count 1, first := if s.count = 0 then cyc else s.first, last := cyc,
                 chmask := s.chmask ||| m } with
      ovf := satAdd 0xFFFFFFFF x.ovf 1 }

/-- Add the COUNT-mode counters of the channels of octet `k` that source `n` drives into the FAT, and zero them (R189). -/
def Dev.flushCounts (d : Dev) (k n : Nat) : Dev :=
  if d.fcp.mode ≠ .count then d
  else
    let x := d.collector k
    let r := (x.source n).region
    ((List.range 8).filter fun i => d.driver (8 * k + i) == n).foldl (fun d i =>
      let c := Store.get (fun _ => {}) x.cnt i
      if c.fvec = 0 then d
      else
        let idx := match r with
          | some r => 64 * r + 8 * k + i
          | none => 262144 + 8 * k + i
        let d := d.fatReadEffect idx
        let d := d.fatWrite idx (cntEntry (d.fatEntry idx) r (8 * k + i) c)
        d.updCollector k fun x => { x with cnt := Store.drop x.cnt i }) d

/-- A failing vector arrives (R175, R190, R191; R189 in COUNT mode). -/
def Dev.takeFail (d : Dev) (k n : Nat) (xa ya : BitVec 24) (m : BitVec 8) (cyc : BitVec 26) : Dev :=
  let x := d.collector k
  if d.fcp.mode = .count then
    d.updCollector k fun x =>
      { x with cnt := (bitsOf m).foldl (fun t i => Store.upd (fun _ => ({} : FcCount)) t i fun c =>
          { fvec := satAdd 0xFFFFFFFF c.fvec 1, first := if c.fvec = 0 then cyc else c.first, last := cyc }) x.cnt }
  else if x.compact then d.compactFail k n m cyc
  else if x.level < 4096 then
    d.updCollector k fun x => x.queue (.entry (failEntry k n xa ya m cyc) (x.source n).region false)
  else
    let d := d.updCollector k fun x => { x with compact := true }
    (d.fcEvent k .busy 1 x.level).compactFail k n m cyc

/-- Take one arrived item into collector `k`. -/
def Dev.takeItem (d : Dev) (k : Nat) (i : FcItem) : Dev :=
  match i with
  | .fail n _ xa ya m cyc => d.takeFail k n xa ya m cyc
  | .marker n e => d.queueMarker k n e
  | .close n r =>
    let d := (d.queueOvf k n).flushCounts k n
    d.updCollector k fun x => (x.updSource n fun s => { s with region := none }).queue (.close n r)
  | .opened n r =>
    let d := (d.queueOvf k n).flushCounts k n
    d.updCollector k fun x => x.updSource n fun s => { s with region := some r }
  | .flush n => (d.queueOvf k n).flushCounts k n
  | .count n => d.flushCounts k n

/-- The item is a failing vector. -/
def FcItem.isFail : FcItem → Bool
  | .fail _ _ _ _ _ _ => true
  | .marker _ _ => false | .close _ _ => false | .opened _ _ => false | .flush _ => false | .count _ => false

/-- The close point of source `n` in region `r` has been delivered by collector `k` (R505). -/
def Region.delivered (g : Region) (k n : Nat) : Region :=
  { g with waiting := g.waiting.erase (k, n) }

/-- Deliver the close points at the front of a FIFO: every entry formed before them has been written (R505). -/
def Dev.deliver (k : Nat) : List FcEntry → Dev → Dev
  | .close n r :: rest, d =>
    Dev.deliver k rest ((d.updCollector k fun x => { x with fifo := rest }).updRegion r fun g => g.delivered k n)
  | _, d => d

/-- Take in the arrived items up to the next failing vector: everything that is no failing vector acts as it arrives. -/
def Dev.takeMarks (k : Nat) : List FcItem → Dev → Dev
  | [], d => d
  | i :: rest, d =>
    if i.isFail then d
    else Dev.takeMarks k rest ((d.updCollector k fun x => { x with inq := rest }).takeItem k i)

/-- What a collector does with whatever needs no ECLK of its own. -/
def Dev.runCollector (d : Dev) (k : Nat) : Dev :=
  let d := Dev.takeMarks k (d.collector k).inq d
  Dev.deliver k (d.collector k).fifo d

/-- The item is the opening or the close point of a region, which forms no entry. -/
def FcItem.isRegion : FcItem → Bool
  | .close _ _ => true | .opened _ _ => true
  | .fail _ _ _ _ _ _ => false | .marker _ _ => false | .flush _ => false | .count _ => false

/-- A failing vector goes before another: on an earlier ECLK, or on the same with a smaller SRC (R190). -/
def FcItem.before : FcItem → FcItem → Bool
  | .fail n t _ _ _ _, .fail m u _ _ _ _ => decide (t < u) || (t == u && decide (n < m))
  | _, _ => false

/-- An item joins what has arrived, newest first: a failing vector takes its place by ECLK and SRC among the last ones (R190). -/
def addItem (i : FcItem) : List FcItem → List FcItem
  | [] => [i]
  | j :: r => if i.before j then j :: addItem i r else i :: j :: r

/-- Hand an item to collector `k`; nothing forms while PD_FAT is not On (R178), nor while it is under test, when each
failing vector is counted instead (R437). -/
def Dev.pushFc (d : Dev) (k : Nat) (i : FcItem) : Dev :=
  if d.tested pdFat && !i.isRegion then
    if i.isFail then { d with bst := { d.bst with failDrop := satAdd 0xFFFFFFFF d.bst.failDrop 1 } } else d
  else if d.domOn pdFat then (d.updCollector k fun c => { c with inq := (addItem i c.inq.reverse).reverse }).runCollector k else d

/-- FAIL_ENTRY: collector `k` takes in the oldest failing vector that has arrived. -/
def Dev.failEntryStep (d : Dev) (k : Nat) : Dev :=
  if !d.domOn pdFat then d
  else match (d.collector k).inq with
    | [] => d
    | i :: rest => ((d.updCollector k fun x => { x with inq := rest }).takeItem k i).runCollector k

/-- COMPACTION_EXIT (R193). -/
def Dev.compactionExit (d : Dev) (k : Nat) : Dev :=
  let x := d.collector k
  if !d.domOn pdFat || !x.compact || decide (2048 ≤ x.level) then d
  else
    let ns := (List.range 64).filter fun n => (x.source n).count != 0
    let d := ns.foldl (fun d n => d.queueOvf k n) d
    ((d.updCollector k fun x => { x with compact := false }).fcEvent k .ok 2 ns.length)

/-! ## Ingest -/

/-- Entries between the pointers of the ring. -/
def FcpState.held (f : FcpState) : Nat := (f.wptr - f.rptr).toNat
/-- The ring is full (R186). -/
def FcpState.ringFull (f : FcpState) : Bool := f.held == 2 ^ 21

/-- One entry written to the ring (R185, R186). -/
def Dev.append (d : Dev) (e : BitVec 120) : Dev :=
  let d := d.fatWrite (d.fcp.wptr.toNat % 2 ^ 21) e
  let d := { d with fcp := { d.fcp with wptr := d.fcp.wptr + 1 } }
  if d.fcp.ringFull then d.fire 72 (payload .busy 1 0) else d

/-- The start bucket of a fail (R187). -/
def bucketOf (e : BitVec 120) : Nat :=
  (crc32c (leBytes 7 (at' 48 (feSrc e) + at' 24 (feYa e) + feXa e))).toNat % 2 ^ 20

/-- A slot that the fail `e` of region `r` matches (R187). -/
def mergeMatch (r : Nat) (e s : BitVec 120) : Bool :=
  feType s == 2 && feRegion s == r && feSrc s == feSrc e && feXa s == feXa e && feYa s == feYa e && fePart s == fePart e

/-- The slot after the merge of a fail into an MFAIL slot. -/
def mergeInto (e s : BitVec 120) : BitVec 120 :=
  BitVec.ofNat 120 (2 + at' 4 (feSrc s) + at' 10 (feXa s) + at' 34 (feYa s) + at' 58 (feDmask s ||| feDmask e)
    + at' 90 (fePart s) + at' 92 (satAdd 0x3FFF (feHits s) 1) + at' 106 (feRegion s))
/-- A new MFAIL slot. -/
def mergeNew (r : Nat) (e : BitVec 120) : BitVec 120 :=
  BitVec.ofNat 120 (2 + at' 4 (feSrc e) + at' 10 (feXa e) + at' 34 (feYa e) + at' 58 (feDmask e)
    + at' 90 (fePart e) + at' 92 1 + at' 106 r)

/-- Write back both slots of a bucket, slot `i` with a new value: the corrected values go with it (R195). -/
def Dev.writeBucket (d : Dev) (b i : Nat) (e : BitVec 120) : Dev :=
  (d.fatWrite (2 * b + 1 - i) (d.fatEntry (2 * b + 1 - i))).fatWrite (2 * b + i) e

/-- Probe at most `fuel` buckets from bucket `b` (R187, R188). -/
def Dev.probe (r : Nat) (e : BitVec 120) : Nat → Nat → Dev → Dev
  | 0, _, d => d.notMerged (some r) 1 1
  | fuel + 1, b, d =>
    let d := (d.fatReadEffect (2 * b)).fatReadEffect (2 * b + 1)
    let s0 := d.fatEntry (2 * b)
    let s1 := d.fatEntry (2 * b + 1)
    if d.fatBad (2 * b) == 2 || d.fatBad (2 * b + 1) == 2 then d.notMerged (some r) 1 3
    else if mergeMatch r e s0 then d.writeBucket b 0 (mergeInto e s0)
    else if mergeMatch r e s1 then d.writeBucket b 1 (mergeInto e s1)
    else if feType s0 == 0 then d.writeBucket b 0 (mergeNew r e)
    else if feType s1 == 0 then d.writeBucket b 1 (mergeNew r e)
    else Dev.probe r e fuel ((b + 1) % 2 ^ 20) d

/-- One entry in MERGE mode: a FAIL merges, an OVF is counted, and nothing else is stored (R187, R188, R194). -/
def Dev.mergeEntry (d : Dev) (e : BitVec 120) (region : Option Nat) : Dev :=
  if feType e = 1 then
    match region with
    | some r => Dev.probe r e 8 (bucketOf e) d
    | none => d.addNoblk 1
  else if feType e = 3 then d.notMerged region (fld e 10 32) 2
  else d

/-- The FAT hook copies an entry that collector `k` presents (R287). GAP goes with the first copy after a drop. -/
def Dev.hookCopy (d : Dev) (k : Nat) (e : BitVec 120) : Dev :=
  let c := d.fab.hookCfg
  if bit c 31 && bit c k && bit c (8 + feType e) then
    if d.fab.hook.length < 256 then
      { d with fab := { d.fab with hook := d.fab.hook ++ [(e, d.fab.hookGap)], hookGap := false } }
    else { d with fab := { d.fab with hookDrop := satAdd 65535 d.fab.hookDrop 1, hookGap := true } }
  else d

/-- The FAT takes at most `n` entries that collector `k` presents, in their order (R185, R186). -/
def Dev.ingest (k : Nat) : Nat → Dev → Dev
  | 0, d => d
  | n + 1, d =>
    match (d.collector k).fifo with
    | .entry e r _ :: rest =>
      if d.fcp.mode = .append && d.fcp.ringFull then d
      else
        let d := (d.updCollector k fun x => { x with fifo := rest }).hookCopy k e
        let d := match d.fcp.mode with
          | .append => d.append e
          | .mergeMode => d.mergeEntry e r
          | .count => d
        Dev.ingest k n (Dev.deliver k (d.collector k).fifo d)
    | _ => d

/-- FAT_INGEST: one SPLL0 cycle in which collector `k` presents `present k` entries (R185). Nothing is taken while a mode
selection clears the table or PD_FAT is not On, nor in OM0 and OM7, and in MERGE mode outside OM3 (Table 3-2, R61). -/
def Dev.fatIngest (d : Dev) (present : List Nat) : Dev :=
  if d.fcp.clearing || !d.domOn pdFat || d.mode.mode = 0 || d.mode.mode = 7 ||
      (decide (d.fcp.mode = .mergeMode) && d.mode.mode ≠ 3) then d
  else
    let order := [1, 2, 3, 4, 5, 6, 7, 8].map fun i => (d.fcp.lastFirst + i) % 8
    let served := order.filter fun k => present.getD k 0 != 0 && (d.collector k).level + (d.collector k).rsv != 0
    let d := order.foldl (fun d k => Dev.ingest k (present.getD k 0) d) d
    { d with fcp := { d.fcp with lastFirst := served.headD d.fcp.lastFirst } }

/-- The collectors are idle (R198). -/
def Dev.collectorsIdle (d : Dev) : Bool :=
  ((List.range 8).all fun k =>
    let x := d.collector k
    x.fifo.isEmpty && x.inq.isEmpty && x.src.all fun e => e.2.count == 0) &&
  (List.range 64).all fun n => !(d.source n).enabled || !(d.engine n).st.moving

end Sys2Proof.Machine
end

