-- ==== Sys2Proof/Machine/Solve.lean ====
section
/-! DEFINITION. What a repair analysis computes: the fields of a descriptor (R202), the cells of the FAT's entries
(R203, R206), the must-repair pass (R207) and the search (R208). -/

namespace Sys2Proof.Machine

/-! ## Descriptor fields (Table 9-1) -/

/-- The descriptor of region `r`; VALID = 0 after reset. -/
def Dev.desc (d : Dev) (r : Nat) : QWord := Store.get (fun _ => 0) d.rae.desc r
/-- VALID. -/
def dscValid (w : QWord) : Bool := bit w 31
/-- AUTO. -/
def dscAuto (w : QWord) : Bool := bit w 30
/-- OPT. -/
def dscOpt (w : QWord) : Bool := bit w 29
/-- SRCANY. -/
def dscSrcAny (w : QWord) : Bool := bit w 28
/-- SRC. -/
def dscSrc (w : QWord) : Nat := fld w 22 6
/-- SPC: spare columns. -/
def dscSpc (w : QWord) : Nat := fld w 16 6
/-- SPR: spare rows. -/
def dscSpr (w : QWord) : Nat := fld w 10 6
/-- COL_LSB. -/
def dscColLsb (w : QWord) : Nat := fld w 56 6
/-- COL_W. -/
def dscColW (w : QWord) : Nat := fld w 51 5
/-- ROW_LSB. -/
def dscRowLsb (w : QWord) : Nat := fld w 45 6
/-- ROW_W. -/
def dscRowW (w : QWord) : Nat := fld w 40 5
/-- DHI. -/
def dscDhi (w : QWord) : Nat := fld w 90 6
/-- DLO. -/
def dscDlo (w : QWord) : Nat := fld w 84 6
/-- BUDGET. -/
def dscBudget (w : QWord) : Nat := fld w 112 16

/-! ## Cells (R203, R206) -/

/-- The cells of an MFAIL entry (R203). -/
def entryCells (w : QWord) (e : BitVec 120) : List (Nat × Nat) :=
  let a := feXa e + feYa e * 2 ^ 24
  let row := nfld a (dscRowLsb w) (dscRowW w)
  let colf := nfld a (dscColLsb w) (dscColW w)
  ((List.range 32).filter fun i =>
      nfld (feDmask e) i 1 == 1 && decide (dscDlo w ≤ 32 * fePart e + i) && decide (32 * fePart e + i ≤ dscDhi w)).map
    fun i => (row, colf * (dscDhi w - dscDlo w + 1) + (32 * fePart e + i - dscDlo w))

/-- The entry belongs to the region (R203). -/
def entryOf (w : QWord) (r : Nat) (e : BitVec 120) : Bool :=
  feType e == 2 && feRegion e == r && (dscSrcAny w || feSrc e == dscSrc w)

/-- (row, column) order. -/
def cellLt (a b : Nat × Nat) : Bool := decide (a.1 < b.1) || (a.1 == b.1 && decide (a.2 < b.2))

/-- Put a cell into an ascending list of distinct cells. -/
def insertCell (x : Nat × Nat) : List (Nat × Nat) → List (Nat × Nat)
  | [] => [x]
  | y :: r => if cellLt x y then x :: y :: r else if x = y then y :: r else y :: insertCell x r

/-- Gather the cells of a list of entries; none once more than 65,536 are distinct (R206). -/
def gatherCells (w : QWord) (r : Nat) (es : List (BitVec 120)) : Option (List (Nat × Nat)) :=
  es.foldl (fun acc e => acc.bind fun cs =>
    if !entryOf w r e then some cs
    else
      let cs := (entryCells w e).foldl (fun cs x => insertCell x cs) cs
      if cs.length ≤ 65536 then some cs else none) (some [])

/-! ## Must-repair (R207) -/

/-- The cells that no assigned line covers. -/
def RaeNode.uncovered (n : RaeNode) (cs : List (Nat × Nat)) : List (Nat × Nat) :=
  cs.filter fun c => !(n.rows.any fun x => x.1 == c.1) && !(n.cols.any fun x => x.1 == c.2)

/-- The distinct numbers of a list, ascending. -/
def sortedNub (l : List Nat) : List Nat := (l.foldl (fun acc x => insertCell (x, 0) acc) []).map (·.1)

/-- The must-repair steps over rows (`col` false) or columns, in ascending order; none when infeasible (R207). -/
def mustLines (cs : List (Nat × Nat)) (mark col : Bool) : List Nat → RaeNode → Option RaeNode
  | [], n => some n
  | l :: r, n =>
    let u := n.uncovered cs
    let count := (u.filter fun c => if col then c.2 == l else c.1 == l).length
    if col then
      if count ≤ n.sr then mustLines cs mark col r n
      else if n.sc = 0 then none
      else mustLines cs mark col r { n with cols := n.cols ++ [(l, mark)], sc := n.sc - 1 }
    else
      if count ≤ n.sc then mustLines cs mark col r n
      else if n.sr = 0 then none
      else mustLines cs mark col r { n with rows := n.rows ++ [(l, mark)], sr := n.sr - 1 }

/-- Repeat the must-repair steps until a repetition assigns nothing (R207); each repetition that assigns uses a spare. -/
def mustRepair (cs : List (Nat × Nat)) (mark : Bool) : Nat → RaeNode → Option RaeNode
  | 0, n => some n
  | fuel + 1, n =>
    match mustLines cs mark false (sortedNub (cs.map (·.1))) n with
    | none => none
    | some n1 =>
      match mustLines cs mark true (sortedNub (cs.map (·.2))) n1 with
      | none => none
      | some n2 => if n2 = n then some n else mustRepair cs mark fuel n2

/-- The must-repair pass on a node. -/
def RaeNode.must (n : RaeNode) (cs : List (Nat × Nat)) (mark : Bool) : Option RaeNode :=
  mustRepair cs mark (n.sr + n.sc + 1) n

/-! ## Search (R208) -/

/-- What a search has come to. -/
structure Search where
  best : Option RaeNode := none
  nodes : Nat := 0
  expired : Bool := false
  deriving DecidableEq, Repr

/-- The spares that a node uses. -/
def RaeNode.spares (n : RaeNode) : Nat := n.rows.length + n.cols.length

/-- The depth-first search over a stack of nodes, with at most `budget` nodes entered (R208). -/
def searchNodes (cs : List (Nat × Nat)) (opt : Bool) (budget : Nat) : Nat → List RaeNode → Search → Search
  | 0, _, x => x
  | _ + 1, [], x => x
  | fuel + 1, n :: stack, x =>
    if x.nodes = budget then { x with expired := true }
    else
      let x := { x with nodes := x.nodes + 1 }
      let worse := match x.best with
        | some b => opt && decide (b.spares ≤ n.spares)
        | none => false
      if worse then searchNodes cs opt budget fuel stack x
      else match n.must cs false with
        | none => searchNodes cs opt budget fuel stack x
        | some n =>
          match n.uncovered cs with
          | [] =>
            let better := match x.best with
              | some b => decide (n.spares < b.spares)
              | none => true
            let x := if better then { x with best := some n } else x
            if opt then searchNodes cs opt budget fuel stack x else x
          | f :: rest =>
            if 2 * n.sr * n.sc < (f :: rest).length then searchNodes cs opt budget fuel stack x
            else
              let byRow := if 0 < n.sr then [{ n with rows := n.rows ++ [(f.1, false)], sr := n.sr - 1 }] else []
              let byCol := if 0 < n.sc then [{ n with cols := n.cols ++ [(f.2, false)], sc := n.sc - 1 }] else []
              searchNodes cs opt budget fuel (byRow ++ byCol ++ stack) x

/-- The node budget of a descriptor (R208). -/
def Dev.budget (d : Dev) (w : QWord) : Nat :=
  256 * (if dscBudget w = 0 then d.rae.defBudget.toNat else dscBudget w)

/-! ## The phases of an analysis -/

/-- The entries of the FAT that a gather maps: those read without an uncorrectable error (R206). -/
def Dev.gatherEntries (d : Dev) : List (BitVec 120) := (d.fcp.fat.filter fun e => d.fatBad e.1 != 2).map (·.2)

/-- The cells that the gather of region `r` comes to; none once more than 65,536 are distinct (R206). -/
def Dev.gathered (d : Dev) (r : Nat) : Option (List (Nat × Nat)) := gatherCells (d.desc r) r d.gatherEntries

/-- The search of an analysis, from the node that its must-repair pass left (R208). -/
def Dev.searched (d : Dev) (a : Analysis) : Search :=
  let w := d.desc a.region
  let b := d.budget w
  searchNodes a.cells (dscOpt w) b (b + 1) [a.node] {}

/-- How much of a phase that comes to `total` in all is done when it is cut short: a free value (R209). -/
def Dev.soFar (d : Dev) (total : Nat) : Nat := Config.soFar d.fresh % (total + 1)

/-- CELLS and NODES of the ABORTED record of an analysis (R209): in GATHER the cells gathered so far, in SEARCH the
nodes entered so far. -/
def Dev.cutCounts (d : Dev) (a : Analysis) : Nat × Nat :=
  match d.rae.st with
  | .gather => (d.soFar (match d.gathered a.region with | some cs => cs.length | none => 65536), 0)
  | .search => (a.cells.length, d.soFar (d.searched a).nodes)
  | _ => (a.cells.length, 0)

end Sys2Proof.Machine
end

