-- ==== Sys2Proof/Machine/Region.lean ====
section
/-! DEFINITION. Repair regions (R204) and the ends of an analysis (R209 to R211): what the engines, the fail path and
the repair analysis share. -/

namespace Sys2Proof.Machine

/-! ## Records (R209) -/

/-- A spare word of a record. -/
def spareWord (col : Bool) (x : Nat × Bool) : Word := word (flag 31 col + flag 30 x.2 + x.1 % 2 ^ 30)

/-- Put a (line, MUST) pair into an ascending list. -/
def insertLine (x : Nat × Bool) : List (Nat × Bool) → List (Nat × Bool)
  | [] => [x]
  | y :: r => if x.1 < y.1 then x :: y :: r else y :: insertLine x r

/-- The words of a solution record (Table 9-5): header, spare words, padding to a multiple of four words. SEQ is put in
when the record is written. -/
def recordWords (st : Status) (outcome : Nat) (loss notopt : Bool) (region nodes cells : Nat) (n : RaeNode) : List Word :=
  let rows := n.rows.foldl (fun l x => insertLine x l) []
  let cols := n.cols.foldl (fun l x => insertLine x l) []
  let body := rows.map (spareWord false) ++ cols.map (spareWord true)
  let pad := List.replicate ((4 - body.length % 4) % 4) 0
  [word (at' 24 st.code + at' 22 outcome + flag 21 loss + flag 20 notopt + at' 12 rows.length + region),
   word (at' 26 cols.length), word nodes, word cells] ++ body ++ pad

/-- End the analysis in progress with a record that waits for the ring; the region takes state `next` when it is
written. -/
def Dev.endAnalysis (d : Dev) (a : Analysis) (ws : List Word) (st : Status) (loss : Bool) (next : RegSt) : Dev :=
  { d with rae := { d.rae with
      cur := none
      st := .write
      out := [{ words := ws, status := st, region := a.region, loss := loss, next := next }] } }

/-- End the analysis in progress with an ABORTED record (R209, R211). A record of the active region that still waits
for the ring is replaced by it. -/
def Dev.abortAnalysis (d : Dev) (next : RegSt) : Dev :=
  match d.rae.cur with
  | some a =>
    let loss := bit d.fcp.rloss a.region
    let n := d.cutCounts a
    let ws := recordWords .aborted 3 loss false a.region n.2 n.1 {}
    (d.bump.endAnalysis a ws .aborted loss next).updRegion a.region fun r => { r with st := next }
  | none =>
    match d.rae.out with
    | [] => d
    | o :: _ =>
      if o.status = .aborted then d
      else
        let loss := bit d.fcp.rloss o.region
        let nodes := (o.words.getD 2 0).toNat
        let cells := (o.words.getD 3 0).toNat
        let ws := recordWords .aborted 3 loss false o.region nodes cells {}
        { d with rae := { d.rae with
            out := [{ words := ws, status := .aborted, region := o.region, loss := loss, next := next }] } }.updRegion
          o.region fun r => { r with st := next }

/-- The region is the one under analysis: its analysis runs, or its record waits for the ring. -/
def Dev.raeActive (d : Dev) (r : Nat) : Bool := decide ((d.region r).st = .active)

/-! ## Region tracking (R204, R505) -/

/-- The octets in which source `n` drives a channel. -/
def Dev.octets (d : Dev) (n : Nat) : List Nat :=
  (List.range 8).filter fun k => (d.driven n).any fun c => c / 8 == k

/-- Hand an item to every collector that serves source `n`. -/
def Dev.pushAll (d : Dev) (n : Nat) (i : FcItem) : Dev := (d.octets n).foldl (fun d k => d.pushFc k i) d

/-- A marker entry (R183, Table 8-3). -/
def markerEntry (typ src : Nat) (a : Arch) (dmask cyc : Nat) : BitVec 120 :=
  BitVec.ofNat 120 (typ + at' 4 src + at' 10 a.xa.toNat + at' 34 a.ya.toNat + at' 58 dmask + at' 92 (cyc % 2 ^ 26))

/-- Write a marker of source `n` into the stream of the collector that holds its own channel; only in APPEND mode
(R179). -/
def Dev.marker (d : Dev) (n typ dmask cyc : Nat) : Dev :=
  if d.fcp.mode = .append then
    d.pushFc (n / 8) (.marker n (markerEntry typ n (d.engine n).a dmask cyc))
  else d

/-- Source `n` closes region `r`: its close point goes to every collector that serves it, and the region becomes
CLOSING when no opener is left (R204, R505). -/
def Dev.closeRegion (d : Dev) (n r : Nat) : Dev :=
  let serving := d.octets n
  let d := d.updSource n fun s => { s with region := none }
  let d := d.updRegion r fun g =>
    let openers := clrBit g.openers n
    { g with openers := openers, waiting := g.waiting ++ serving.map (fun k => (k, n)),
             st := if openers = 0 then .closing else g.st }
  d.pushAll n (.close n r)

/-- FCTL BLOCK_END of region `r` by source `n`; ignored unless the source holds it open (R204). -/
def Dev.blockEnd (d : Dev) (n r : Nat) : Dev :=
  if !d.domOn pdFat then d
  else if (d.source n).region = some r then
    let d := d.marker n 6 r (d.source n).count.toNat
    d.closeRegion n r
  else d

/-- FCTL BLOCK_START of region `r` by source `n` (R204, R127, R176, R179). -/
def Dev.blockStart (d : Dev) (n r : Nat) : Dev :=
  if !d.domOn pdFat then d.updSource n fun s => { s with count := 0, wraps := 0 }
  else
    let held := (d.source n).region
    let d := match held with
      | some r0 => if r0 = r then d else d.blockEnd n r0
      | none => d
    let d := if held = some r then d
      else
        let d := if d.raeActive r then d.abortAnalysis .opened else d
        let d := { d with rae := { d.rae with queue := d.rae.queue.filter (· != r) } }
        d.updRegion r fun g => { g with st := .opened, openers := setBit g.openers n }
    let d := d.pushAll n (.opened n r)
    let d := d.updSource n fun s => { s with region := some r, count := 0, wraps := 0 }
    d.marker n 5 r 0

/-- An ENG start of source `n`: its open region closes without a marker, its count restarts (R204, R332). -/
def Dev.sourceStart (d : Dev) (n : Nat) : Dev :=
  let d := match (d.source n).region with
    | some r => if d.domOn pdFat then d.closeRegion n r else d
    | none => d
  d.updSource n fun s => { s with count := 0, wraps := 0 }

/-- One more vector of source `n` (R176, R179): the count rises and a wrap while capture is enabled writes CWRAP. -/
def Dev.countVector (d : Dev) (n : Nat) : Dev :=
  let s := d.source n
  let wrap := s.count = 0x3FFFFFF#26
  let d := d.updSource n fun s =>
    { s with count := s.count + 1, wraps := if wrap then satAdd 65535 s.wraps 1 else s.wraps }
  if wrap && s.enabled then d.marker n 7 (d.source n).wraps 0 else d

/-- A stop of source `n` with cause `c`: a STOP marker while capture is enabled (R179), and the COUNT counters go out
(R189). -/
def Dev.sourceStop (d : Dev) (n c : Nat) : Dev :=
  let d := if (d.source n).enabled then d.marker n 9 c (d.source n).count.toNat else d
  d.pushAll n (.count n)

end Sys2Proof.Machine
end

