-- ==== Sys2Proof/Machine/Prism.lean ====
section
/-! DEFINITION. The channel formatter: timing sets and their validation, symbols to edges, edge and strobe spacing,
strobes and compares, safe states (06_prism_timing.md). Times are in LSB, 1/64 ECLK, on the model's clock. -/

namespace Sys2Proof.Machine

/-! ## Timing sets (R131, R132) -/

/-- PERIOD_M1 + 1: the vector period in ECLK. -/
def tsPeriod (w : QWord) : Nat := fld w 0 8 + 1
/-- FMT. -/
def tsFmt (w : QWord) : Nat := fld w 16 3
/-- STBSEL. -/
def tsStbsel (w : QWord) : Nat := fld w 20 2
/-- DRV_A. -/
def tsDrvA (w : QWord) : Nat := fld w 32 14
/-- DRV_B. -/
def tsDrvB (w : QWord) : Nat := fld w 48 14
/-- EN_ON. -/
def tsEnOn (w : QWord) : Nat := fld w 64 14
/-- EN_OFF. -/
def tsEnOff (w : QWord) : Nat := fld w 80 14
/-- STB_A. -/
def tsStbA (w : QWord) : Nat := fld w 96 14
/-- STB_B. -/
def tsStbB (w : QWord) : Nat := fld w 112 14
/-- The reserved bits of a timing set. -/
def tsReserved (w : QWord) : Bool :=
  fld w 22 10 != 0 || bit w 19 || fld w 8 8 != 0 || fld w 62 2 != 0 || fld w 46 2 != 0 ||
  fld w 94 2 != 0 || fld w 78 2 != 0 || fld w 126 2 != 0 || fld w 110 2 != 0
/-- The set selects DNRZ. -/
def tsDnrz (w : QWord) : Bool := tsFmt w == 4

/-- Checks 1 to 5 of Table 6-6, in order. -/
def tsCheck (w : QWord) : Status :=
  let p := 64 * tsPeriod w
  let fmt := tsFmt w
  let usesB := fmt != 0
  let sa := tsStbsel w % 2 == 1
  let sb := tsStbsel w / 2 == 1
  let ok (used : Bool) (v : Nat) : Bool := if used then decide (v < p) else v == 0
  let a := tsDrvA w
  let b := tsDrvB w
  if tsReserved w || 5 < fmt then .badOperand
  else if !(ok true a && ok usesB b && ok true (tsEnOn w) && ok true (tsEnOff w) &&
      ok sa (tsStbA w) && ok sb (tsStbB w)) then .badOperand
  else if (fmt == 1 || fmt == 2 || fmt == 4 || fmt == 5) && !(a + 32 ≤ b && b + 32 ≤ p + a) then .badOperand
  else if fmt == 3 && !(32 ≤ a && a + 32 ≤ b && b + 32 ≤ p) then .badOperand
  else if sa && sb && !(tsStbA w + 32 ≤ tsStbB w && tsStbB w + 32 ≤ p + tsStbA w) then .badOperand
  else .ok

/-- Check 6 against the mode in force and a pending target (R60, R132). -/
def Dev.dnrzDenied (d : Dev) : Bool :=
  noDnrz d.mode.mode || (match d.pendMode with | some m => noDnrz m | none => false)

/-- The reset value of a timing set. -/
def tsReset (_ : Nat) : QWord := 0
/-- The active copy of set `k` of a channel. -/
def Channel.active (x : Channel) (k : Nat) : QWord := Store.get tsReset x.act k
/-- The shadow copy of set `k` of a channel. -/
def Channel.shadow (x : Channel) (k : Nat) : QWord := Store.get tsReset x.shd k
/-- The shadow copy of set `k` changes: a validation of it in progress no longer makes it valid (R133). -/
def Channel.touch (x : Channel) (k : Nat) : Channel :=
  { x with check := x.check.map fun v => if v.set = k then { v with dirty := true } else v }

/-- Exchange the copies of set `k`; the new shadow copy is not valid (R134, R135). -/
def Channel.swap (x : Channel) (k : Nat) : Channel :=
  { (x.touch k) with
    act := Store.put tsReset x.act k (x.shadow k)
    shd := Store.put tsReset x.shd k (x.active k)
    svalid := clrBit x.svalid k }

/-! ## Symbols (Table 5-3) -/

/-- The enable target of S1: on, off, or held (R138). -/
def symEnable (s : BitVec 4) : Option Bool :=
  if s = 0 || s = 1 || s = 9 || s = 10 || s = 11 || s = 12 || s = 13 then some true
  else if s = 2 || s = 3 || s = 4 || s = 5 || s = 6 then some false else none
/-- The drive level of a symbol (R139); `t` is the level that T drives. -/
def symLevel (s : BitVec 4) (t : Bool) : Option Bool :=
  if s = 0 || s = 12 || s = 10 then some false
  else if s = 1 || s = 13 || s = 9 then some true
  else if s = 11 then some t else none

/-- Compare actions (Table 5-3). -/
inductive Cmp where
  | none | low | high | mid | valid
  deriving DecidableEq, Repr

/-- The compare action of a symbol. -/
def symCmp (s : BitVec 4) : Cmp :=
  if s = 3 || s = 12 || s = 14 then .low else if s = 4 || s = 13 || s = 15 then .high
  else if s = 5 then .mid else if s = 6 then .valid else .none

/-- The compare passes (Table 6-9). -/
def cmpPass (c : Cmp) (ch cl : Bool) : Bool :=
  match c with
  | .none => true
  | .low => !ch && cl
  | .high => ch && !cl
  | .mid => !ch && !cl
  | .valid => ch != cl

/-! ## Edges (R139, R140) -/

/-- A quotient rounded to the nearest integer, halves away from zero (R155). -/
def roundDiv (a : Int) (b : Nat) : Int :=
  if 0 ≤ a then ((2 * a.toNat + b) / (2 * b) : Nat) else -((2 * (-a).toNat + b) / (2 * b) : Nat)

/-- The correction in force: during the time of R53 it is rescaled to the profile frequency. -/
def Dev.effCorr (d : Dev) (c t : Nat) : Int :=
  let e := (d.corr c t).corr
  if d.cal.holdoff && d.cal.refPer ≠ 0 then
    let f := d.profileNow
    roundDiv (e * (f.1 * d.cal.refPer.toNat : Nat)) (f.2 * 10 ^ 15)
  else e

/-- The four edge corrections of a channel: DR, DF, ER, EF, and ST. -/
structure Corrs where
  dr : Int
  df : Int
  er : Int
  ef : Int
  st : Int
  deriving DecidableEq, Repr

/-- The corrections of channel `c` in force (R160). -/
def Dev.corrs (d : Dev) (c : Nat) : Corrs :=
  ⟨d.effCorr c 0, d.effCorr c 1, d.effCorr c 2, d.effCorr c 3, d.effCorr c 4⟩

/-- The time lies less than 32 LSB after the previous one (R140). -/
def tooClose (last : Option Int) (t : Int) : Bool :=
  match last with
  | some l => decide (t - l < 32)
  | none => false

/-- One suppressed transition (R140). -/
def Channel.dropEdge (x : Channel) : Channel := { x with edgeDrop := satAdd 65535 x.edgeDrop 1, coll := true }

/-- A transition of edge type `typ` is made at time `t`: a TDC armed for it captures the first one (R152). -/
def Channel.seen (x : Channel) (typ : Nat) (t : Int) : Channel :=
  if x.armTyp = some typ && x.hit.isNone then { x with hit := some t } else x

/-- A D transition to level `v` due at offset `off` of a vector that starts at `t0` (R137, R139, R140). -/
def Channel.edgeD (x : Channel) (k : Corrs) (cut : Option Int) (t0 : Int) (off : Nat) (v : Bool) : Channel :=
  let t := t0 + off + (if v then k.dr else k.df)
  if (match cut with | some c => decide (c ≤ t) | none => false) then x
  else if x.d = v then { x with dDriven := true }
  else if tooClose x.lastD t then x.dropEdge
  else { (x.seen (if v then 0 else 1) t) with d := v, lastD := some t, dDriven := true }

/-- An E transition to level `v` (R138, R140). -/
def Channel.edgeE (x : Channel) (k : Corrs) (cut : Option Int) (t0 : Int) (off : Nat) (v : Bool) : Channel :=
  let t := t0 + off + (if v then k.er else k.ef)
  if (match cut with | some c => decide (c ≤ t) | none => false) then x
  else if x.e = v then x
  else if tooClose x.lastE t then x.dropEdge
  else { (x.seen (if v then 2 else 3) t) with e := v, lastE := some t }

/-- The level that T drives now (R106, R139). -/
def Channel.tLevel (x : Channel) : Bool := if x.dDriven then !x.d else true

/-- The D transitions of a vector (Table 6-5). -/
def Channel.drive (x : Channel) (w : QWord) (s1 s2 : BitVec 4) (k : Corrs) (cut : Option Int) (t0 : Int) : Channel :=
  let l1 := symLevel s1 x.tLevel
  match tsFmt w, l1 with
  | 0, some v => x.edgeD k cut t0 (tsDrvA w) v
  | 1, some v => (x.edgeD k cut t0 (tsDrvA w) v).edgeD k cut t0 (tsDrvB w) false
  | 2, some v => (x.edgeD k cut t0 (tsDrvA w) v).edgeD k cut t0 (tsDrvB w) true
  | 3, some v =>
    ((x.edgeD k cut t0 0 (!v)).edgeD k cut t0 (tsDrvA w) v).edgeD k cut t0 (tsDrvB w) (!v)
  | 4, l1 =>
    let x := match l1 with
      | some v => x.edgeD k cut t0 (tsDrvA w) v
      | none => x
    match symLevel s2 x.tLevel with
    | some v => x.edgeD k cut t0 (tsDrvB w) v
    | none => x
  | 5, some v =>
    let x := x.edgeD k cut t0 (tsDrvA w) v
    if s1 = 9 || s1 = 10 then x.edgeD k cut t0 (tsDrvB w) (!v) else x
  | _, _ => x

/-! ## Strobes (R140 to R142) -/

/-- One strobe (R140 to R142): a strobe that only SMASK could mask is a candidate for the judgment of R76; it is taken unless
SMASK is set, it is cut, or it comes too close. CMPERR is set by a strobe that is taken and by no other (DEDUCED, log 26). -/
def Channel.strobe (x : Channel) (c : Nat) (sel : Bool) (s : BitVec 4) (t : Int) (cut : Option Int) (ch cl : Bool) :
    Channel × List Cand :=
  if !sel || decide (symCmp s = .none) || x.dmask then (x, [])
  else if x.smask then (x, [{ ch := c, time := t, masked := true }])
  else if (match cut with | some c => decide (c ≤ t) | none => false) then (x, [{ ch := c, time := t }])
  else if tooClose x.lastStb t then
    ({ x with stbDrop := satAdd 65535 x.stbDrop 1, coll := true }, [{ ch := c, time := t }])
  else
    ({ x with lastStb := some t, cmpErr := x.cmpErr || (ch && cl) },
     [{ ch := c, time := t, fail := !cmpPass (symCmp s) ch cl }])

/-- K stands for the previous symbol in the same position; X where there is none (R106, R146). -/
def resolveK (s : BitVec 4) (prev : Option (BitVec 4)) (inSafe : Bool) : BitVec 4 :=
  if s = 8 then (if inSafe then 7 else prev.getD 7) else s

/-- One vector on channel `c`: enable, drive, strobes (R137 to R142, R146). `t0` is its start at the ball in LSB. -/
def Channel.vector (x : Channel) (c : Nat) (w : QWord) (s1 s2 : BitVec 4) (k : Corrs) (t0 : Int) (cut : Option Nat)
    (chA clA chB clB : Bool) : Channel × List Cand :=
  let old := x
  let s1 := resolveK s1 x.symA x.inSafe
  let s2 := resolveK s2 x.symB x.inSafe
  let cut := cut.map fun n => t0 + (n : Int)
  let x := { x with inSafe := false, symA := some s1, symB := some s2 }
  let x := match symEnable s1 with
    | some true => x.edgeE k cut t0 (tsEnOn w) true
    | some false => x.edgeE k cut t0 (tsEnOff w) false
    | none => x
  let x := x.drive w s1 s2 k cut t0
  let r := x.strobe c (tsStbsel w % 2 == 1) s1 (t0 + tsStbA w + k.st) cut chA clA
  let q := r.1.strobe c (tsStbsel w / 2 == 1) s2 (t0 + tsStbB w + k.st) cut chB clB
  let y := q.1
  let still := decide (y.lastD = old.lastD) && decide (y.lastE = old.lastE) && decide (y.lastStb = old.lastStb)
  ({ y with quiet := if still then old.quiet else t0.toNat / 64 + tsPeriod w }, r.2 ++ q.2)

/-! ## Safe states (R144) -/

/-- The time of a safe-state transition of a line: no earlier than 32 LSB after its last transition. -/
def safeTime (last : Option Int) (t : Int) : Int :=
  match last with
  | some l => max t (l + 32)
  | none => t

/-- Enter the safe state at time `t` (Table 6-11); a channel in its safe state does not change. -/
def Channel.enterSafe (x : Channel) (t : Int) : Channel :=
  if x.inSafe then x
  else
    let setE (v : Bool) (x : Channel) : Channel :=
      let u := safeTime x.lastE t
      if x.e = v then x else { x with e := v, lastE := some u, quiet := u.toNat / 64 + 1 }
    let setD (v : Bool) (x : Channel) : Channel :=
      let u := safeTime x.lastD t
      if x.d = v then x else { x with d := v, lastD := some u, dDriven := true, quiet := max x.quiet (u.toNat / 64 + 1) }
    let x := { x with inSafe := true }
    if x.chSafe = 0 then x
    else if x.chSafe = 1 then setE false x
    else if x.chSafe = 2 then setD false (setE true x)
    else setD true (setE true x)

/-- A list of channels enters the safe state. -/
def Dev.channelsSafe (d : Dev) (cs : List Nat) (t : Int) : Dev :=
  cs.foldl (fun d c => d.updChannel c fun x => x.enterSafe t) d

end Sys2Proof.Machine
end

