-- ==== Sys2Proof/Machine/Engine.lean ====
section
/-! DEFINITION. The engine as hardware (04_yunor_engines.md): register access, decisions, commit points, stops,
and the release from a wait. -/

namespace Sys2Proof.Machine

/-! ## Registers -/

/-- G register `k`. -/
def Arch.gr (a : Arch) (k : Nat) : Word := Store.get (fun _ => 0) a.g k
/-- Write G register `k`. -/
def Arch.setG (a : Arch) (k : Nat) (v : Word) : Arch := { a with g := Store.put (fun _ => 0) a.g k v }
/-- Loop counter `k`. -/
def Arch.lcr (a : Arch) (k : Nat) : BitVec 24 := Store.get (fun _ => 0) a.lc k
/-- Write loop counter `k`. -/
def Arch.setLc (a : Arch) (k : Nat) (v : BitVec 24) : Arch := { a with lc := Store.put (fun _ => 0) a.lc k v }
/-- Return stack entry `j`. -/
def Arch.rs (a : Arch) (j : Nat) : BitVec 13 := Store.get (fun _ => 0) a.rstk j

/-- FLAGS as software and COND see it: FABF is the live line (Table 4-2). -/
def Engine.flagsNow (e : Engine) : BitVec 16 := putBit e.a.flags 9 e.fabf

/-- Index of an instruction over both physical pages (R80). -/
def memIndex (page : Bool) (addr : Nat) : Nat := (if page then 4096 else 0) + addr
/-- The instruction at an address of the active page. -/
def Engine.fetch (e : Engine) (addr : BitVec 12) : DWord := Store.get (fun _ => 0) e.mem (memIndex e.a.active addr.toNat)

/-- Pin Map entry `m` of an engine's channel; reset OFF (Table 4-18). -/
def Engine.pinEntry (e : Engine) (m : Nat) : BitVec 16 := Store.get (fun _ => 0xC000) e.pinmap m

/-! ## Decisions (R76, R109) -/

/-- A decided vector: FAIL takes the outcome and FSTK gathers it. -/
def Arch.judge (a : Arch) (fail : Bool) : Arch :=
  let a := a.setFlag 6 fail
  if fail then a.setFlag 7 true else a
/-- A decision reaches the engine: the state after the last vector sees it too. -/
def Engine.applyDecision (e : Engine) (x : Decision) : Engine := e.mapArch (·.judge x.fail)
/-- Every decision that has arrived by ECLK `t` acts, in order. -/
def Engine.settle (e : Engine) (t : Nat) : Engine :=
  { (e.decisions.filter fun x => x.arrives ≤ t).foldl Engine.applyDecision e with
      decisions := e.decisions.filter fun x => !decide (x.arrives ≤ t) }
/-- Every pending decision acts. -/
def Engine.settleAll (e : Engine) : Engine := { e.decisions.foldl Engine.applyDecision e with decisions := [] }
/-- A new decision joins those that arrive no later than it. -/
def addDecision (x : Decision) : List Decision → List Decision
  | [] => [x]
  | y :: r => if x.arrives < y.arrives then x :: y :: r else y :: addDecision x r

/-- The decision that a list of strobes gives (R76): it arrives 15 ECLK after the last of them; a strobe that was masked or not
taken at the ball counts as passing. None where there is no strobe. -/
def decisionOf (cs : List Cand) : Option Decision :=
  match cs with
  | [] => none
  | c :: r => some { arrives := ((r.foldl (fun t c => max t c.time) c.time) / 64).toNat + 15, fail := cs.any (·.fail) }

/-- What a fail-dependent instruction fetched now waits for, where the last vector has started (R76): the judgment counts the
strobes whose channel is not in `mask`, the channels with SMASK set at the fetch. -/
def Engine.verdict (e : Engine) (mask : DWord) : Option Decision :=
  match e.lastVec with
  | .none => none
  | .made cs => decisionOf (cs.filter fun c => !bit mask c.ch)

/-- Wait for the decision of the most recent vector (R108): the instruction after it is fetched no earlier than its arrival.
The flag is what a test of FAIL sees: 0 where the vector has no strobe judged unmasked. -/
def Engine.decideLast (e : Engine) (mask : DWord) : Engine × Bool :=
  match e.verdict mask with
  | some x =>
    let t := max e.issueAt x.arrives
    ({ (e.settle t) with issueAt := t }, x.fail)
  | none =>
    let r := e.settle e.issueAt
    (r, if e.lastVec = .none then bit r.a.flags 6 else false)

/-- The fetch unit reaches ECLK `t`: where an OM2 window starts at or before it, this and every later fetch is 512 ECLK late
(R169). -/
def Engine.cross (e : Engine) (t : Nat) : Engine :=
  match e.late with
  | none => e
  | some s =>
    let on (x : Nat) : Nat := if s ≤ x then x + 512 else x
    if s ≤ t then { e with issueAt := on e.issueAt, slotAt := on e.slotAt, late := none } else e

/-- The ECLK on which the next vector or idle slot of an engine is fetched: its next issue, not before its vector period ends
(R77). -/
def Engine.slot (e : Engine) : Nat := max e.issueAt e.slotAt
/-- The fetch unit reaches its next slot. -/
def Engine.toSlot (e : Engine) : Engine := e.cross e.slot
/-- A vector fetched on ECLK `t` starts at the ball 10 ECLK later (R13), after an OM2 window that starts in between (R169). -/
def Engine.ballAt (e : Engine) (t : Nat) : Nat :=
  t + 10 + match e.late with
    | some s => if s ≤ t + 10 then 512 else 0
    | none => 0

/-! ## Commit points (R504) -/

/-- One effect outside the engine takes place. -/
def Dev.applyEffect (n : Nat) (d : Dev) (x : Effect) : Dev :=
  match x with
  | .enable => d.updSource n fun s => { s with enabled := true }
  | .disable => d.updSource n fun s => { s with enabled := false }
  | .blockStart r => d.blockStart n r
  | .blockEnd r => d.blockEnd n r
  | .mark code => d.marker n 4 code (d.source n).count.toNat
  | .flush => d.pushAll n (.flush n)
  | .attn code => d.fire n (payload4 .ok 0 code 0)
  | .mask half bits =>
    (List.range 32).foldl (fun d i =>
      let c := n + (if half then 32 else 0) + i
      if (d.driven n).contains c then d.updChannel c fun x => { x with dmask := bit bits i } else d) d

/-- The commit point of every waiting effect of engine `n`, in program order. -/
def Dev.commit (d : Dev) (n : Nat) : Dev :=
  let xs := (d.engine n).uncommitted
  xs.foldl (Dev.applyEffect n) (d.updEngine n fun e => { e with uncommitted := [] })

/-! ## Stops (R96 to R99) -/

/-- A stop cause arrives at engine `n`; an engine that is not in RUN, WAIT or SYNC takes none. Where causes of different kinds
are pending, the stop falls at the first boundary that any of them names: with vectors in flight that of an asynchronous
cause. -/
def Dev.requestStop (d : Dev) (n cause : Nat) (kind : StopKind) : Dev :=
  let e := d.engine n
  if !e.st.moving || e.stops.contains cause then d
  else d.setEngine n { e with
    stops := e.stops ++ [cause]
    stopKind := if e.stops.isEmpty || (kind == .async && !e.flight.isEmpty) then kind else e.stopKind
    tinv := e.tinv || cause == 2 }

/-- A cause arrives at every engine of a list. -/
def Dev.requestStops (d : Dev) (ns : List Nat) (cause : Nat) (kind : StopKind) : Dev :=
  ns.foldl (fun d n => d.requestStop n cause kind) d

/-- The payload status of a stop cause (Table 4-8). -/
def causeStatus (c : Nat) : Status :=
  if c = 3 then .outOfStep else if c = 5 || c = 6 then .underrun else if c = 7 then .mediaError
  else if c = 8 then .badOpcode else if c = 9 then .badOperand else if c = 10 || c = 11 then .ok else .aborted

/-- The CODE of an ATTN that a stop cuts off before its commit point (R129): that of the last one whose CODE is not 0, where
several wait (DESIGN CHOICE, log 14). -/
def lastAttn : List Effect → Nat
  | [] => 0
  | .attn c :: r => if lastAttn r = 0 then c else lastAttn r
  | _ :: r => lastAttn r

/-- The engines of a halt that have stopped are taken off; a halt with none left answers (R333). -/
def Dev.haltStopped (d : Dev) (n : Nat) : Dev :=
  let hs := d.eng.halts.map fun h => { h with left := clrBit h.left n }
  let d := { d with eng := { d.eng with halts := hs.filter fun h => h.left != 0 } }
  (hs.filter fun h => h.left == 0).foldl (fun d h => d.complete h.owner .ok (lo32 h.mask) (hi32 h.mask)) d

/-- The reset value of a stream. -/
def streamReset (_ : Nat) : Stream := {}
/-- The stream of engine `n`. -/
def Dev.stream (d : Dev) (n : Nat) : Stream := Store.get streamReset d.vmi.stream n
/-- Change the stream of engine `n`. -/
def Dev.updStream (d : Dev) (n : Nat) (f : Stream → Stream) : Dev :=
  { d with vmi := { d.vmi with stream := Store.upd streamReset d.vmi.stream n f } }
/-- An armed engine whose FIFO holds 1,984 bytes or fewer. -/
def Dev.streamWants (d : Dev) (n : Nat) : Bool := (d.stream n).left != 0 && decide ((d.engine n).fifo.length ≤ 3968)
/-- The engine whose turn it is in the rotation. -/
def Dev.streamTurn (d : Dev) : Option Nat := ((List.range 64).map fun i => (d.vmi.last + 1 + i) % 64).find? d.streamWants
/-- Stream reads come before every other access of vector memory: in OM4, while an armed stream wants data (R61). -/
def Dev.streamFirst (d : Dev) : Bool := decide (d.mode.mode = 4) && d.vmi.ready && d.domOn pdVmi && d.streamTurn.isSome

/-- The address of the next byte that engine `n` has not consumed (VMI_SADDR): a byte of which one vector has been taken
counts as not consumed. -/
def Dev.streamAddr (d : Dev) (n : Nat) : Nat := (d.stream n).next - ((d.engine n).fifo.length + 1) / 2
/-- An armed stream ends when its engine stops: the FIFO is flushed and its command is answered (R472). -/
def Dev.streamStop (d : Dev) (n cause : Nat) : Dev :=
  let x := d.stream n
  if x.left = 0 then d
  else
    let d := d.updStream n fun x => { x with next := d.streamAddr n, left := 0, owner := none }
    (d.updEngine n fun e => { e with fifo := [] }).answer? x.owner (if cause = 6 then .underrun else .aborted)

/-- The stop of an engine has reached its boundary: an instruction or data stop, and a stop in WAIT or SYNC, falls after the
vectors in flight, an asynchronous stop discards them (R96, R98). -/
def Engine.atBoundary (e : Engine) : Bool := e.flight.isEmpty || (e.st == .run && e.stopKind == .async)

/-- The registers at a stop that commits nothing (R98): the state after the last vector that started. A data stop leaves PC, its
page bit included, on the VSTR (DEDUCED, log 23). In WAIT or SYNC everything before counts as executed. -/
def Engine.stopArch (e : Engine) : Arch :=
  if e.st ≠ .run then e.a
  else if e.stopKind = .data then
    { e.ckpt with pc := e.a.pc, repLeft := e.a.repLeft, active := e.a.active, svalid := e.a.svalid }
  else e.ckpt

/-- STOP_BOUNDARY: the stop takes place (R96 to R99, R504). A data stop that discards an ATTN reports its CODE as an
asynchronous stop does (DESIGN CHOICE, log 14). -/
def Dev.stopNow (d : Dev) (n : Nat) : Dev :=
  let e := d.engine n
  if e.stops.isEmpty || !e.st.moving || !e.atBoundary then d
  else
    let cause := e.stops.foldl min 0xFF
    let also := (e.stops.filter (· != cause)).foldl (fun w k => setBit w (k - 1)) (0#11)
    let code := if e.stopKind = .instr then 0 else lastAttn (e.flight.flatMap (·.commits) ++ e.uncommitted)
    let d := d.updEngine n fun e => e.settle (max e.vecEnd d.now)
    let d := if e.stopKind = .instr then d.commit n
      else d.updEngine n fun e => { e with uncommitted := [], a := e.stopArch }
    let d := if d.pin.safeN then d else d.channelsSafe (d.driven n) (64 * max e.vecEnd d.now : Nat)
    let d := (d.sourceStop n cause).streamStop n cause
    let d := d.updEngine n fun e =>
      { e with st := .stopped, cause := cause, also := also,
               stops := [], stopStamp := d.stamp, a := { e.a with lbuf := none }, flight := [], await := none, late := none }
    let d := d.fire n (payload4 (causeStatus cause) cause code 0)
    d.haltStopped n

/-! ## Waits (R37, R38, R124) -/

/-- The engine's attention event with a status that is no stop (R99). -/
def Dev.attention (d : Dev) (n : Nat) (st : Status) : Dev := d.fire n (payload4 st 0 0 0)

/-- The effects that wait for no further vector commit, once no vector is in flight before them (R504). -/
def Dev.commitIdle (d : Dev) (n : Nat) : Dev := if (d.engine n).flight.isEmpty then d.commit n else d

/-- An engine enters WAIT or SYNC: its waiting effects commit (R504), after those of the vectors in flight; everything before
counts as executed (R98). -/
def Dev.enterWait (d : Dev) (n : Nat) (st : EngSt) : Dev :=
  (d.commitIdle n).updEngine n fun e => { e with st := st, ckpt := e.a, waitNext := e.a.pc + 1 }

/-- The last vector in flight leaves the registers `a`. -/
def lastLeaves (a : Arch) : List Flight → List Flight
  | [] => []
  | [v] => [{ v with after := a }]
  | v :: r => v :: lastLeaves a r

/-- An engine leaves WAIT or SYNC and fetches its next instruction on ECLK `t`. -/
def Engine.leave (e : Engine) (t : Nat) : Engine :=
  let a := { e.a with pc := e.waitNext }
  { e with st := .run, a := a, ckpt := a, issueAt := t, flight := lastLeaves a e.flight }

/-- The ECLK of the current beat on which a released engine fetches (R37). -/
def Dev.fracEclk (d : Dev) (frac : BitVec 16) : Nat := frac.toNat * d.time.mult / 65536

/-- Release engine `n` from its WAITG in step 3 of R34; an engine with a pending stop is not released. -/
def Dev.releaseWait (d : Dev) (n : Nat) : Dev :=
  let e := d.engine n
  if e.st = .wait && e.stops.isEmpty then
    d.setEngine n { (e.leave (d.time.base + d.fracEclk e.waitg.frac)) with late := none }
  else d

/-- A WAITG is refused: attention with the status, and the engine keeps waiting (R38, R124). -/
def Dev.refuseWait (d : Dev) (n : Nat) (st : Status) : Dev :=
  (d.updEngine n fun e => { e with waitg := { e.waitg with refused := true } }).attention n st

/-- The engines in WAIT whose target is the current (EPOCH, GCI) and not refused (R37). -/
def Dev.dueWaits (d : Dev) : List Nat :=
  (List.range 64).filter fun n =>
    decide ((d.engine n).st = .wait) && !(d.engine n).waitg.refused && decide ((d.engine n).waitg.target = d.nowTarget)

/-! ## Rendezvous (R125) -/

/-- The normalised mask of a SYNC issued by engine `n`: its own bit set, bits of gang followers ignored. -/
def Dev.syncNorm (d : Dev) (n : Nat) (m : DWord) : DWord :=
  (List.range 64).foldl (fun w k => if (d.engine k).st = .follower then clrBit w k else w) (setBit m n)

/-- Every engine that the mask names is in SYNC with the same mask. -/
def Dev.syncComplete (d : Dev) (m : DWord) : Bool :=
  (bitsOf m).all fun k => decide ((d.engine k).st = .sync) && decide ((d.engine k).syncMask = m)

/-- Release every engine of a complete set: fetch at T + floor(q / 4), Z set. -/
def Dev.syncRelease (d : Dev) (m : DWord) (t : Nat) : Dev :=
  (bitsOf m).foldl (fun d k => d.updEngine k fun e =>
    let e := { e with a := e.a.setFlag 0 true }
    e.leave (t + k / 16)) d

end Sys2Proof.Machine
end

