-- ==== Sys2Proof/Machine/Fabric.lean ====
section
/-! DEFINITION. The programmable fabric (12_fabric.md): what the active planes make of its elements at an edge of a global
net, the borders of a region in hold, and the fabric registers. Tile `t` of region `n` has the number 768 n + t, with
t = 6 × row + column inside the region (DESIGN CHOICE, log 7). -/

namespace Sys2Proof.Machine

/-! ## Planes -/

/-- The reset value of a plane. -/
def planeReset (_ : Nat) : Plane := {}
/-- Plane `p` of region `n` (R289). -/
def Dev.plane (d : Dev) (n p : Nat) : Plane := Store.get planeReset d.cfg.plane (2 * n + p)
/-- Change a plane. -/
def Dev.updPlane (d : Dev) (n p : Nat) (f : Plane → Plane) : Dev :=
  { d with cfg := { d.cfg with plane := Store.upd planeReset d.cfg.plane (2 * n + p) f } }
/-- The number of the active plane. -/
def Dev.activeOf (d : Dev) (n : Nat) : Nat := b2n (bit d.cfg.active n)
/-- The active plane. -/
def Dev.actPlane (d : Dev) (n : Nat) : Plane := d.plane n (d.activeOf n)
/-- The shadow plane. -/
def Dev.shdPlane (d : Dev) (n : Nat) : Plane := d.plane n (1 - d.activeOf n)
/-- What the frames of a plane give element `i` of kind `k`; a plane without a frame sets nothing (log 7). -/
def Plane.elem (p : Plane) (k i : Nat) : Nat := if p.cfg.isEmpty then 0 else Config.fabricBits p.cfg k i
/-- What the active plane of region `n` gives element `i` of kind `k`. -/
def Dev.elem (d : Dev) (n k i : Nat) : Nat := (d.actPlane n).elem k i

/-! ## Regions and holds (R281 to R284) -/

/-- The reset value of a region of the fabric. -/
def fabRegionReset (_ : Nat) : FabRegion := {}
/-- Fabric region `n`. -/
def Dev.fabRegion (d : Dev) (n : Nat) : FabRegion := Store.get fabRegionReset d.fab.reg n
/-- Change fabric region `n`. -/
def Dev.updFabRegion (d : Dev) (n : Nat) (f : FabRegion → FabRegion) : Dev :=
  { d with fab := { d.fab with reg := Store.upd fabRegionReset d.fab.reg n f } }
/-- The region is in hold (R282), or under test (R436). -/
def Dev.inHold (d : Dev) (n : Nat) : Bool := (d.fabRegion n).hold || d.tested (pdRg n)

/-- Nothing enters region `n` (R283, R284): it is in a hold other than the start-up's, or WRITE_ENABLE has not come
(Table 13-5). -/
def Dev.gated (d : Dev) (n : Nat) : Bool :=
  let r := d.fabRegion n
  d.tested (pdRg n) || d.cfg.blank || !d.fab.writeEn || (r.hold && !(r.boot && (d.actPlane n).valid && d.domOn (pdRg n)))

/-- GSR of region `n` is asserted: INIT, zero in every ACC and output register (R281). -/
def Dev.gsrAssert (d : Dev) (n : Nat) : Dev :=
  let f := d.fab
  { d with fab := { f with
    ff := Store.clear f.ff fun k => k / (16 * 768) == n
    acc := Store.clear f.acc fun k => k / 768 == n
    port := Store.mapVals (fun _ => {}) id (f.port.map fun e => if e.1 / 48 = n then (e.1, { e.2 with q2 := 0 }) else e)
    edges := Store.clear f.edges fun k => k / 32 == n
    reg := Store.upd fabRegionReset f.reg n fun r => { r with gsr := true } } }
/-- GSR of region `n` is released. -/
def Dev.gsrRelease (d : Dev) (n : Nat) : Dev := d.updFabRegion n fun r => { r with gsr := false }

/-- An event line as the synchroniser sees it: a rise raises EV80 + `l` (R285). -/
def Dev.eventLine (d : Dev) (l : Nat) (v : Bool) : Dev :=
  let was := Store.get (fun _ => false) d.fab.line l
  let d := { d with fab := { d.fab with line := Store.put (fun _ => false) d.fab.line l v } }
  if v && !was then d.fire (80 + l) (payload .ok 1 l) else d

/-- The border policy of a group: none for HOLD_LAST. -/
def policyOf (w : Word) (lo : Nat) : Option Bool :=
  match fld w lo 2 with
  | 1 => some false
  | 2 => some true
  | _ => none

/-- The region's lines to its engines and its event lines take the policies that were sampled (R283). -/
def Dev.applyPolicies (d : Dev) (n : Nat) : Dev :=
  let w := (d.fabRegion n).held
  let d := times 4 (fun i d => d.updEngine (4 * n + i) fun e =>
    { e with fabf := (policyOf w 6).getD e.fabf, scrinv := (policyOf w 8).getD e.scrinv }) d
  match policyOf w 10 with
  | some v => (d.eventLine (2 * n) v).eventLine (2 * n + 1) v
  | none => d

/-- The NoC port of region `n`, if it has one, holds no request for logic in hold: those in its buffer are answered with
BUSY, and those that the logic had taken are lost with it (R284, R286). -/
def Dev.portEmpty (d : Dev) (n : Nat) : Dev :=
  let mine := d.fab.inbox.filter fun x => x.2.1 + 6 == n
  let d := { d with fab := { d.fab with
    inbox := d.fab.inbox.filter fun x => x.2.1 + 6 != n
    delivered := d.fab.delivered.filter fun x => x.1 + 6 != n } }
  mine.foldl (fun d x => d.reply x.2.2.1 x.2.2.2 .busy []) d

/-- Region `n` enters a hold, sampling its policies; a hold in progress restarts with the policies that it began with. -/
def Dev.enterHold (d : Dev) (n : Nat) : Dev :=
  let fresh := !(d.fabRegion n).hold
  let d := ((d.gsrAssert n).portEmpty n).updFabRegion n fun r => { r with boot := false }
  if fresh then (d.updFabRegion n fun r => { r with hold := true, held := r.rctl }).applyPolicies n else d

/-- A full-device load: every output of every region reads 0 (R284). -/
def Dev.outputsZero (d : Dev) : Dev :=
  let d := times 64 (fun n d => d.updEngine n fun e => { e with fabf := false, scrinv := false }) d
  { d with fab := { d.fab with line := [] } }

/-- A load into the active plane of region `n` is in pass 2. -/
def Dev.activeLoad (d : Dev) (n : Nat) : Bool :=
  match d.cfg.load with
  | some l => !l.full && l.toActive && l.pass == 2 && l.region == n
  | none => false

/-- HOLD_END of region `n` (R282): 32 fabric reference cycles have passed; GSR is released with the hold. -/
def holdEnd (n : Nat) (d : Dev) : Dev :=
  if (d.fabRegion n).hold && d.fab.outRel && !d.cfg.blank && (d.actPlane n).valid && d.domOn (pdRg n) && !d.activeLoad n then
    d.updFabRegion n fun r => { r with hold := false, gsr := false, boot := false, loadHold := false }
  else d

/-! ## Global nets (R279, R280) -/

/-- FAB_GCLK(`k`). -/
def Dev.gclk (d : Dev) (k : Nat) : Word := Store.get (fun _ => 0) d.fab.gclk k
/-- A loop gives its output clock. -/
def Dev.loopRuns (d : Dev) (i : Nat) : Bool :=
  match (d.loop i).state with
  | .locked => true | .holdover => true | .track => true
  | .off => false | .search => false | .acquire => false
/-- The net runs. -/
def Dev.netRuns (d : Dev) (k : Nat) : Bool :=
  let w := d.gclk k
  bit w 31 && match fld w 24 4 with
    | 1 => d.loopRuns 5
    | 2 => d.loopRuns 0 | 3 => d.loopRuns 1 | 4 => d.loopRuns 2 | 5 => d.loopRuns 3
    | 6 => d.time.period != 0
    | _ => false
/-- The source is reserved, or the divider lies below its floor. -/
def gclkBad (w : Word) : Bool :=
  let s := fld w 24 4
  decide (7 ≤ s) || (decide (2 ≤ s) && decide (s ≤ 5) && decide (fld w 0 8 < 3))
/-- The evaluated frequency exceeds 250 MHz (R280). -/
def Dev.gclkFast (d : Dev) (w : Word) : Bool :=
  let m := fld w 0 8 + 1
  bit w 31 && match fld w 24 4 with
    | 0 => false
    | 1 => decide (m < 3)
    | 6 => decide (250000000 * m * d.time.period.toNat < 10 ^ 15) && decide (d.time.period ≠ 0)
    | _ => decide (m < 6)
/-- FAB_STAT.WERR. -/
def Dev.fabWerr (d : Dev) : Dev := { d with fab := { d.fab with werr := true } }

/-- A write to FAB_GCLK(`k`). -/
def fabGclkWrite (k : Nat) (w : Word) (d : Dev) : Dev :=
  if gclkBad w || ((d.mode.mode == 5 || d.pendMode == some 5) && d.gclkFast w) then d.fabWerr
  else { d with fab := { d.fab with gclk := Store.put (fun _ => 0) d.fab.gclk k (w &&& 0x8F0000FF#32) } }

/-- A policy field of a FAB_RCTL image is reserved. -/
def rctlBad (w : Word) : Bool := fld w 17 15 != 0 || (List.range 6).any fun i => fld w (2 * i) 2 == 3
/-- A write to FAB_RCTL(`n`). -/
def fabRctlWrite (n : Nat) (w : Word) (d : Dev) : Dev :=
  if rctlBad w then d.fabWerr else d.updFabRegion n fun r => { r with rctl := w &&& 0x1FFFF#32 }

/-! ## Elements at an edge (R266 to R269) -/

/-- The elements of region `n` on net `k` have left reset (R281). -/
def Dev.elemsRun (d : Dev) (n k : Nat) : Bool :=
  decide (n < 16) && !(d.fabRegion n).gsr && !d.tested (pdRg n) && (d.actPlane n).valid &&
    decide (2 ≤ Store.get (fun _ => 0) d.fab.edges (32 * n + k))

/-- An output line of region `n` across a border that logic gives the value `v`: 0 until the outputs are released (R284),
in a hold what the policy of its group says (R283, Table 12-10). -/
def Dev.borderOut (d : Dev) (n lo : Nat) (v : Bool) : Bool :=
  if d.cfg.blank || !d.fab.outRel then false
  else if d.inHold n then (policyOf (d.fabRegion n).held lo).getD v
  else v
/-- The key of line `l` across border `b`. -/
def lineKey (b : Nat) (east : Bool) (l : Nat) : Nat := 6144 * b + 3072 * b2n east + l
/-- What general routing line `l` across border `b` carries (R276): its multiplexer lies in the region that it leaves. -/
def Dev.lineVal (d : Dev) (b : Nat) (east : Bool) (l : Nat) : Bool :=
  d.borderOut (if east then b else b + 1) 0 (Store.get (fun _ => false) d.fab.route (lineKey b east l))
/-- The driver of spine segment `i` of border `b` in its west or east region is enabled (R277). -/
def Dev.drives (d : Dev) (b i : Nat) (west : Bool) : Bool :=
  if west then d.elem b 15 i % 2 == 1 else d.elem (b + 1) 16 i % 2 == 1
/-- What a spine segment carries; one that neither end drives reads 0 through its keeper (R277). -/
def Dev.segVal (d : Dev) (b i : Nat) : Bool :=
  let v := Store.get (fun _ => false) d.fab.spine (256 * b + i)
  if d.drives b i true then d.borderOut b 4 v
  else if d.drives b i false then d.borderOut (b + 1) 4 v
  else false

/-- The read data that port `p` of memory `b` of region `n` shows: with the optional output register one cycle later
(R272). -/
def Dev.memShows (d : Dev) (n b p : Nat) : BitVec 72 :=
  let q := Store.get (fun _ => ({} : MemPort)) d.fab.port (2 * (24 * n + b) + p)
  if d.elem n 14 (2 * b + p) % 2 = 1 then q.q2 else q.q

/-- What wire `s` brings to a tile: 1 to 24 the lines of its row across the border beside it, 25 to 56 the spine tracks of
its band that run along it, from 57 the read data of the region's memory ports, then the region's flip-flops; none: a wire
inside the region, whose value the command tells (R275 to R277; the numbers are a DESIGN CHOICE, log 7). -/
def Dev.wire (d : Dev) (tile s : Nat) : Option Bool :=
  let n := tile / 768
  let x := tile % 768 % 6
  let y := tile % 768 / 6
  if s = 0 then none
  else if s ≤ 24 then
    if x = 0 ∧ n ≠ 0 then some (d.lineVal (n - 1) true (24 * y + s - 1))
    else if x = 5 ∧ n ≠ 15 then some (d.lineVal n false (24 * y + s - 1))
    else none
  else if s ≤ 56 then
    let i := 32 * (y / 16) + (s - 25)
    if x ≤ 2 then (if n = 0 then none else some (d.segVal (n - 1) i))
    else if n = 15 then none else some (d.segVal n i)
  else if s < 57 + 3456 then
    let c := (s - 57) / 72
    some (bit (d.memShows n (c / 2) (c % 2)) ((s - 57) % 72))
  else if s < 57 + 3456 + 12288 then
    let k := 12288 * n + (s - 57 - 3456)
    some ((Store.get (fun _ => (none : Option Bool)) d.fab.ff k).getD (d.elem n 2 (s - 57 - 3456) % 2 == 1))
  else none
/-- Input pin `i` of a tile: what the multiplexer of its wire selects (R275), with the lines from other regions gated while
its own is in hold (R283). -/
def Dev.tilePin (d : Dev) (tile i : Nat) (told : Bool) : Bool :=
  let n := tile / 768
  let s := d.elem n 17 (104 * (tile % 768) + i)
  if decide (0 < s) && decide (s ≤ 56) && d.inHold n then false else (d.wire tile s).getD told
/-- The pins from `i` that carry a number of `w` bits. -/
def Dev.pins (d : Dev) (tile i w told : Nat) : Nat :=
  (List.range w).foldl (fun v j => v + at' j (b2n (d.tilePin tile (i + j) (nfld told j 1 == 1)))) 0

/-- The inputs of LUT `k` of a tile. -/
def lutIns (ins : List FabIn) (tile k : Nat) : Nat :=
  match ins with
  | [] => 0
  | .lut t j v :: r => if t = tile ∧ j.val = k then v.toNat else lutIns r tile k
  | _ :: r => lutIns r tile k
/-- The bypass input of flip-flop `i` of a tile. -/
def bypassIn (ins : List FabIn) (tile i : Nat) : Bool :=
  match ins with
  | [] => false
  | .bypass t j v :: r => if t = tile ∧ j.val = i then v else bypassIn r tile i
  | _ :: r => bypassIn r tile i
/-- The inputs of a word cell: A, B, CTL, CE, CIN. -/
def cellIns (ins : List FabIn) (tile : Nat) : BitVec 16 × BitVec 16 × BitVec 2 × Bool × Bool :=
  match ins with
  | [] => (0, 0, 0, false, false)
  | .cell t a b ctl ce cin :: r => if t = tile then (a, b, ctl, ce, cin) else cellIns r tile
  | _ :: r => cellIns r tile
/-- The inputs of a word cell as its pins carry them. -/
def Dev.cellPins (d : Dev) (ins : List FabIn) (tile : Nat) : BitVec 16 × BitVec 16 × BitVec 2 × Bool × Bool :=
  let v := cellIns ins tile
  (BitVec.ofNat 16 (d.pins tile 68 16 v.1.toNat), BitVec.ofNat 16 (d.pins tile 84 16 v.2.1.toNat),
   BitVec.ofNat 2 (d.pins tile 100 2 v.2.2.1.toNat), d.tilePin tile 102 v.2.2.2.1, d.tilePin tile 103 v.2.2.2.2)

/-- O6 and O5 of LUT `k` (R266): the truth table, whole or fractured. -/
def Dev.lutOut (d : Dev) (ins : List FabIn) (tile k : Nat) : Bool × Bool :=
  let n := tile / 768
  let i := 8 * (tile % 768) + k
  let table := d.elem n 0 i
  let v := d.pins tile (6 * k) 6 (lutIns ins tile k)
  if d.elem n 1 i = 0 then (nfld table v 1 == 1, false)
  else (nfld table (32 + v % 32) 1 == 1, nfld table (v % 32) 1 == 1)

/-- The flip-flops' INIT. -/
def Dev.ffInit (d : Dev) (tile i : Nat) : Bool := nfld (d.elem (tile / 768) 2 (16 * (tile % 768) + i)) 0 1 == 1
/-- What flip-flop `i` of a tile holds. -/
def Dev.ffVal (d : Dev) (tile i : Nat) : Bool :=
  (Store.get (fun _ => (none : Option Bool)) d.fab.ff (16 * tile + i)).getD (d.ffInit tile i)
/-- The D input of a flip-flop (R267). -/
def Dev.ffD (d : Dev) (ins : List FabIn) (tile i : Nat) : Bool :=
  match d.elem (tile / 768) 3 (16 * (tile % 768) + i) with
  | 0 => (d.lutOut ins tile (i / 2)).1
  | 1 => (d.lutOut ins tile (i / 2)).2
  | _ => d.tilePin tile (48 + i) (bypassIn ins tile i)

/-- Make the eight flip-flops of a half hold something; none stands for INIT. -/
def Dev.setHalf (d : Dev) (tile h : Nat) (f : Nat → Option Bool) : Dev :=
  times 8 (fun j d =>
    { d with fab := { d.fab with ff := Store.put (fun _ => none) d.fab.ff (16 * tile + 8 * h + j) (f (8 * h + j)) } }) d

/-- A half of a tile at an edge: `d0` is the state before the edge. -/
def Dev.halfEdge (d0 : Dev) (k : Nat) (rising : Bool) (ins : List FabIn) (tile h : Nat) (ce sr : Bool) (d : Dev) : Dev :=
  let n := tile / 768
  let ce := d0.tilePin tile (64 + 2 * h) ce
  let sr := d0.tilePin tile (65 + 2 * h) sr
  let i := 2 * (tile % 768) + h
  let own := d0.elem n 4 i % 32
  let clocked := own == k && (d0.elem n 5 i % 2 == 0) == rising
  if !d0.elemsRun n own then d
  else if sr && (clocked || d0.elem n 6 i % 2 == 1) then d.setHalf tile h fun _ => none
  else if clocked && ce then d.setHalf tile h fun j => some (d0.ffD ins tile j)
  else d

/-- Y and CO of a word cell operation (Table 12-3). -/
def cellOp (op : Nat) (x z : BitVec 16) (c : Bool) : BitVec 16 × Bool :=
  let sum (a b : BitVec 16) : BitVec 16 × Bool :=
    (BitVec.ofNat 16 (a.toNat + b.toNat + b2n c), decide (65536 ≤ a.toNat + b.toNat + b2n c))
  match op with
  | 0 => sum x z
  | 1 => sum x (~~~z)
  | 2 => (x &&& z, false)
  | 3 => (x ||| z, false)
  | 4 => (x ^^^ z, false)
  | 5 => (~~~(x ^^^ z), false)
  | 6 => (x &&& ~~~z, false)
  | 7 => (x ||| ~~~z, false)
  | 8 => (x, false)
  | 9 => (z, false)
  | 10 => (~~~x, false)
  | 11 => (BitVec.ofNat 16 (2 * x.toNat + b2n c), x.msb)
  | 12 => (BitVec.ofNat 16 (x.toNat / 2 + 32768 * b2n c), false)
  | 13 => (x.rotateLeft 1, false)
  | 14 => (if c then z else x, false)
  | _ => (0, false)

/-- ACC of a word cell. -/
def Dev.acc (d : Dev) (tile : Nat) : BitVec 16 := Store.get (fun _ => 0) d.fab.acc tile

/-- The tile west of a tile, if there is one (R269). -/
def westOf (tile : Nat) : Option Nat :=
  let t := tile % 768
  if t % 6 ≠ 0 then some (tile - 1)
  else if tile / 768 = 0 then none
  else some (tile - 768 + 5)

/-- The micro-instruction that a word cell executes (R268). -/
def Dev.micro (d : Dev) (ins : List FabIn) (tile : Nat) : Nat :=
  d.elem (tile / 768) 8 (4 * (tile % 768) + (d.cellPins ins tile).2.2.1.toNat) % 4096

/-- Y and CO of a word cell; the carry travels through at most 8 cells (R269). -/
def Dev.cellOut (d : Dev) (ins : List FabIn) : Nat → Nat → BitVec 16 × Bool
  | 0, _ => (0, false)
  | fuel + 1, tile =>
    let n := tile / 768
    let u := d.micro ins tile
    let v := d.cellPins ins tile
    let acc := d.acc tile
    let k := BitVec.ofNat 16 (d.elem n 7 (tile % 768))
    let x := match nfld u 6 2 with
      | 0 => v.1 | 1 => acc | 2 => v.2.1 | _ => 0
    let z := match nfld u 4 2 with
      | 0 => v.2.1 | 1 => acc | 2 => v.1 | _ => k
    let west : Bool := match westOf tile with
      | none => false
      | some w =>
        if w / 768 = n then (d.cellOut ins fuel w).2
        else if d.inHold n then false
        else if d.inHold (w / 768) then d.borderOut (w / 768) 2 (Store.get (fun _ => false) d.fab.carry w)
        else d.borderOut (w / 768) 2 (d.cellOut ins fuel w).2
    let c := match nfld u 2 2 with
      | 0 => false
      | 1 => true
      | 2 => d.elem n 10 (tile % 768) % 2 == 1 && west
      | _ => v.2.2.2.2
    cellOp (nfld u 8 4) x z c

/-- O and ZO of a word cell. -/
def Dev.cellShows (d : Dev) (ins : List FabIn) (tile : Nat) : BitVec 16 × Bool :=
  let y := (d.cellOut ins 8 tile).1
  (if nfld (d.micro ins tile) 0 1 = 1 then d.acc tile else y, decide (y = 0))

/-- A word cell at a rising edge. -/
def Dev.cellEdge (d0 : Dev) (k : Nat) (ins : List FabIn) (tile : Nat) (d : Dev) : Dev :=
  let n := tile / 768
  if d0.elem n 9 (tile % 768) % 32 = k && d0.elemsRun n k && (d0.cellPins ins tile).2.2.2.1 && nfld (d0.micro ins tile) 1 1 == 1 then
    { d with fab := { d.fab with acc := Store.put (fun _ => 0) d.fab.acc tile (d0.cellOut ins 8 tile).1 } }
  else d

/-! ## Block memories (R271 to R274) -/

/-- Bit `p` of memory `m` (0 to 383): 32,768 data bits, then the ninth bits. -/
def Dev.memBit (d : Dev) (m p : Nat) : Bool :=
  if p < 32768 then bit (Store.get (fun _ => 0) d.fab.mem (4096 * m + p / 8)) (p % 8)
  else bit (Store.get (fun _ => 0) d.fab.mem (4096 * m + (p - 32768))) 8
/-- Write a bit of a memory. -/
def Dev.setMemBit (d : Dev) (m p : Nat) (v : Bool) : Dev :=
  let key := 4096 * m + (if p < 32768 then p / 8 else p - 32768)
  let i := if p < 32768 then p % 8 else 8
  { d with fab := { d.fab with mem := Store.upd (fun _ => 0) d.fab.mem key fun b => putBit b i v } }

/-- The bits of word `w` of a port in shape `s`, in the order of the port's data: lane by lane, each with its eight data
bits and its ninth bit; the narrow shapes have no ninth bit. -/
def shapeBits (s w : Nat) : List Nat :=
  if s < 3 then (List.range (2 ^ s)).map (2 ^ s * w + ·)
  else
    let lanes := 2 ^ (s - 3)
    (List.range lanes).flatMap fun l =>
      (List.range 8).map (fun i => 8 * (lanes * w + l) + i) ++ [32768 + lanes * w + l]
/-- The write enable that bit `i` of the port's data falls under. -/
def laneOf (s i : Nat) : Nat := if s < 3 then 0 else i / 9
/-- Address bits of a shape (Table 12-5). -/
def shapeAddr (s : Nat) : Nat := 15 - s

/-- The reset value of a memory port. -/
def memPortReset (_ : Nat) : MemPort := {}
/-- Port `p` of memory `m`. -/
def Dev.memPort (d : Dev) (m p : Nat) : MemPort := Store.get memPortReset d.fab.port (2 * m + p)
/-- Change a memory port. -/
def Dev.updMemPort (d : Dev) (m p : Nat) (f : MemPort → MemPort) : Dev :=
  { d with fab := { d.fab with port := Store.upd memPortReset d.fab.port (2 * m + p) f } }

/-- A word from its bits. -/
def ofBools (l : List Bool) : BitVec 72 := BitVec.ofNat 72 (l.foldr (fun b v => 2 * v + b2n b) 0)
/-- The bits `ps` of a port word, with those that `hit` names replaced by a free value. -/
def freeBits (q v : BitVec 72) (ps : List Nat) (hit : Nat → Bool) : BitVec 72 :=
  ofBools ((List.range ps.length).map fun i => if hit (ps.getD i 0) then bit v i else bit q i)

/-- What a port does at an edge: its memory, its port, the bits of its word, those that its read data takes from the
memory, and those that it writes. -/
structure MemAct where
  m : Nat
  p : Nat
  bits : List Nat
  rd : List Nat
  writes : List (Nat × Bool)
  en : Bool
  mode : Nat
  clash : Bool

/-- The act of a port at an edge of net `k`; none if the port is not on the net or its elements do not run. -/
def Dev.memAct (d : Dev) (k : Nat) (i : FabIn) : Option MemAct :=
  match i with
  | .mem r b p en we addr data clash =>
    let c := 2 * b.val + p.val
    if d.elem r.val 11 c % 32 = k && d.elemsRun r.val k then
      let s := d.elem r.val 12 c % 7
      let bits := shapeBits s (addr.toNat % 2 ^ shapeAddr s)
      let may := en && !d.gated r.val && (s != 6 || p == 0)
      let writes := (List.range bits.length).filterMap fun j =>
        if may && bit we (laneOf s j) then some (bits.getD j 0, bit data j) else none
      let mode := d.elem r.val 13 c % 3
      let rd := if !en then []
        else if writes.isEmpty || mode = 1 then bits
        else if mode = 0 then bits.filter fun p => !(writes.any fun w => w.1 == p)
        else []
      some { m := 24 * r.val + b.val, p := p.val, bits := bits, rd := rd, writes := writes,
             en := en && (s != 6 || p == 1 || may), mode := mode, clash := clash }
    else none
  | .lut _ _ _ => none | .bypass _ _ _ => none | .half _ _ _ _ => none | .cell _ _ _ _ _ _ => none
  | .lines _ _ _ => none | .hookReady => none | .portReady _ => none | .route _ _ _ _ => none | .spine _ _ _ => none
  | .uio _ _ => none

/-- The port's own read data and output register, from the memory before the edge (R272). -/
def Dev.memRead (d0 : Dev) (x : MemAct) (d : Dev) : Dev :=
  if !x.en then d.updMemPort x.m x.p fun q => { q with q2 := q.q, rd := [], wr := [] }
  else
    let old := ofBools (x.bits.map fun p => d0.memBit x.m p)
    let new := ofBools (x.bits.map fun p => ((x.writes.find? fun w => w.1 == p).map (·.2)).getD (d0.memBit x.m p))
    let q := if x.writes.isEmpty then old
      else if x.mode = 0 then new else if x.mode = 1 then old else (d0.memPort x.m x.p).q
    d.updMemPort x.m x.p fun r => { q := q, q2 := r.q, rd := x.rd, wr := x.writes.map (·.1) }

/-- The port's writes. -/
def Dev.memWrite (x : MemAct) (d : Dev) : Dev := x.writes.foldl (fun d w => d.setMemBit x.m w.1 w.2) d

/-- Bits of a memory take free values. -/
def Dev.freeMem (d : Dev) (m : Nat) (ps : List Nat) : Dev :=
  let v := Config.memCollision d.fresh
  if ps.isEmpty then d else ((List.range ps.length).foldl (fun d i => d.setMemBit m (ps.getD i 0) (bit v i)) d).bump
/-- The bits `hit` of a port's read data take free values. -/
def Dev.freeRead (d : Dev) (m p : Nat) (ps hit : List Nat) : Dev :=
  let v := Config.memCollision d.fresh
  if hit.isEmpty then d else (d.updMemPort m p fun r => { r with q := freeBits r.q v ps hit.contains }).bump

/-- A collision with the other port's edge on a different net (Table 12-6): the bits that both write, and those that one
reads and the other writes, take free values. -/
def Dev.memClash (d0 : Dev) (x : MemAct) (d : Dev) : Dev :=
  let o := d0.memPort x.m (1 - x.p)
  let mine := x.writes.map (·.1)
  if !x.clash then d
  else
    let d := d.freeMem x.m (mine.filter o.wr.contains)
    let d := d.freeRead x.m x.p x.bits (x.rd.filter o.wr.contains)
    d.freeRead x.m (1 - x.p) o.rd (o.rd.filter mine.contains)

/-- Every block memory port at an edge: port B's writes go before port A's, so that port A's data is stored. -/
def Dev.memEdge (d0 : Dev) (k : Nat) (ins : List FabIn) (d : Dev) : Dev :=
  let acts := ins.filterMap (d0.memAct k)
  let other (e : Nat × MemPort) : Bool :=
    let n := e.1 / 48
    d0.elem n 11 (e.1 % 48) % 32 == k && d0.elemsRun n k && !(acts.any fun x => 2 * x.m + x.p == e.1)
  let d := (d.fab.port.filter other).foldl (fun d e =>
    d.updMemPort (e.1 / 2) (e.1 % 2) fun q => { q with q2 := q.q, rd := [], wr := [] }) d
  let d := acts.foldl (fun d x => d0.memRead x d) d
  let d := (acts.filter fun x => x.p == 1).foldl (fun d x => Dev.memWrite x d) d
  let d := (acts.filter fun x => x.p == 0).foldl (fun d x => Dev.memWrite x d) d
  acts.foldl (fun d x => d0.memClash x d) d

/-! ## Dedicated ports (R285 to R287) -/

/-- The FABF and SCRINV lines of the engine port `n`, on the net of its region. -/
def Dev.linesEdge (d0 : Dev) (k n : Nat) (fabf scrinv : Bool) (d : Dev) : Dev :=
  if fld (d0.fabRegion (n / 4)).rctl 12 5 = k && !d0.inHold (n / 4) then
    d.updEngine n fun e => { e with fabf := fabf, scrinv := scrinv }
  else d

/-- User logic takes one unit of the oldest request in the buffer of NoC port `p`; with the last one it has the request. -/
def Dev.portEdge (d0 : Dev) (k p : Nat) (d : Dev) : Dev :=
  if fld d0.fab.portClk (5 * p) 5 = k && !d0.gated (6 + p) then
    match d.fab.inbox.find? fun x => x.2.1 == p with
    | none => d
    | some x =>
      let go : List (Nat × Nat × Nat × Packet) → List (Nat × Nat × Nat × Packet) := fun l =>
        let l1 := l.takeWhile fun y => y.2.1 != p
        let l2 := (l.drop l1.length).drop 1
        if x.1 ≤ 1 then l1 ++ l2 else l1 ++ (x.1 - 1, x.2) :: l2
      { d with fab := { d.fab with
          inbox := go d.fab.inbox
          delivered := if x.1 ≤ 1 then d.fab.delivered ++ [x.2] else d.fab.delivered } }
  else d

/-- The outputs of region `n` follow its logic. -/
def Dev.outputsRun (d : Dev) (n : Nat) : Bool := !d.cfg.blank && d.fab.outRel && !d.inHold n

/-- The line's multiplexer gives a value; in a hold the line keeps the last one (R283). -/
def Dev.routeEdge (d0 : Dev) (b : Nat) (east : Bool) (l : Nat) (v : Bool) (d : Dev) : Dev :=
  if !d0.outputsRun (if east then b else b + 1) then d
  else { d with fab := { d.fab with route := Store.put (fun _ => false) d.fab.route (lineKey b east l) v } }
/-- Logic gives the enabled driver of a spine segment a value. -/
def Dev.spineEdge (d0 : Dev) (b i : Nat) (v : Bool) (d : Dev) : Dev :=
  let n := if d0.drives b i true then b else b + 1
  if !d0.outputsRun n || !(d0.drives b i true || d0.drives b i false) then d
  else { d with fab := { d.fab with spine := Store.put (fun _ => false) d.fab.spine (256 * b + i) v } }
/-- The carry out of a region's east column, as the edge finds it, is what HOLD_LAST would keep. -/
def Dev.carryEdge (d0 : Dev) (ins : List FabIn) (tile : Nat) (d : Dev) : Dev :=
  if tile % 6 ≠ 5 || !d0.outputsRun (tile / 768) then d
  else { d with fab := { d.fab with carry := Store.put (fun _ => false) d.fab.carry tile (d0.cellOut ins 8 tile).2 } }
/-- Logic drives a user I/O ball, or leaves it. -/
def Dev.uioEdge (d0 : Dev) (u : Nat) (v : Option Bool) (d : Dev) : Dev :=
  if !d0.outputsRun u then d else { d with fab := { d.fab with uio := Store.put (fun _ => none) d.fab.uio u v } }

/-- What a user I/O ball shows: driven, or high-Z with the pull of Table 13-3. -/
inductive Ball where
  | driven (v : Bool) | pullDown | pullUp | floating
  deriving DecidableEq, Repr
/-- User I/O ball `u` (R302 to R304, Table 13-5): it follows the logic of region `u` once the outputs are released, but in
the hold of a load into the region's active plane. -/
def Dev.uioBall (d : Dev) (u : Nat) : Ball :=
  let pull : Ball := match fld d.cfg.pulls (2 * u) 2 with
    | 0 => .pullDown | 1 => .pullUp | _ => .floating
  let r := d.fabRegion u
  if d.cfg.blank || !d.fab.outRel || (r.hold && (r.boot || r.loadHold)) then pull
  else match Store.get (fun _ => none) d.fab.uio u with
    | some v => .driven v
    | none => pull

/-- The hook presents its oldest copy, and user logic takes it. -/
def Dev.hookEdge (d0 : Dev) (k : Nat) (d : Dev) : Dev :=
  if fld d0.fab.portClk 20 5 = k && !d0.gated 8 then
    { d with fab := { d.fab with hook := d.fab.hook.tail } }
  else d

/-- GLOBAL_NET_EDGE of net `k` (R268, R272, R281). -/
def globalNetEdge (k : Nat) (rising : Bool) (ins : List FabIn) (d : Dev) : Dev :=
  if !d.netRuns k then d
  else
    let d := if !rising then d
      else times 16 (fun n d =>
        if (d.fabRegion n).gsr then d
        else { d with fab := { d.fab with edges := Store.upd (fun _ => 0) d.fab.edges (32 * n + k) fun c => min 2 (c + 1) } }) d
    let d1 := ins.foldl (fun d' i => match i with
      | .half t h ce sr => d.halfEdge k rising ins t h.val ce sr d'
      | .cell t _ _ _ _ _ => if rising then d.carryEdge ins t (d.cellEdge k ins t d') else d'
      | .lines n f s => if rising then d.linesEdge k n.val f s d' else d'
      | .hookReady => if rising then d.hookEdge k d' else d'
      | .portReady p => if rising then d.portEdge k p.val d' else d'
      | .route b east l v => d.routeEdge b.val east l.val v d'
      | .spine b i v => d.spineEdge b.val i.val v d'
      | .uio u v => d.uioEdge u.val v d'
      | .lut _ _ _ => d' | .bypass _ _ _ => d' | .mem _ _ _ _ _ _ _ _ => d') d
    if rising then d.memEdge k ins d1 else d1

/-- EVENT_LINE: the sampled value of line `l`; while its region is in hold the policy stands. -/
def eventLine (l : Nat) (v : Bool) (d : Dev) : Dev := if d.inHold (l / 2) then d else d.eventLine l v

/-- FXIN_WRITE: the fabric writes a whole word for engine `n` (R95, R284). -/
def fxinWrite (n : Nat) (w : DWord) (d : Dev) : Dev :=
  if d.inHold (n / 4) then d
  else d.updEngine n fun e => { (e.mapArch fun a => a.setFlag 10 true) with fxin := w }

/-! ## The meanings -/

/-- GLOBAL_NET_EDGE. -/
def execGlobalNetEdge (k : Fin 32) (rising : Bool) (ins : List FabIn) (s : State) : Host.Outcome State Fault Refusal :=
  s.onDev fun _ d => globalNetEdge k rising ins d
/-- HOLD_END. -/
def execHoldEnd (r : Fin 16) (s : State) : Host.Outcome State Fault Refusal := s.onDev fun _ d => holdEnd r d
/-- EVENT_LINE. -/
def execEventLine (l : Fin 32) (v : Bool) (s : State) : Host.Outcome State Fault Refusal := s.onDev fun _ d => eventLine l v d
/-- FXIN_WRITE. -/
def execFxinWrite (n : Fin 64) (w : DWord) (s : State) : Host.Outcome State Fault Refusal := s.onDev fun _ d => fxinWrite n w d
/-- FAB_GCLK_WRITE. -/
def execFabGclkWrite (k : Fin 32) (w : Word) (s : State) : Host.Outcome State Fault Refusal :=
  s.onDev fun _ d => fabGclkWrite k w d
/-- FAB_RCTL_WRITE. -/
def execFabRctlWrite (n : Fin 16) (w : Word) (s : State) : Host.Outcome State Fault Refusal :=
  s.onDev fun _ d => fabRctlWrite n w d

end Sys2Proof.Machine
end

