-- ==== Sys2Proof/Machine/Nvs.lean ====
section
/-! DEFINITION. The non-volatile store (18_nv_store.md): code words, reads and their status, the sequencer, programs and
erases with their suspends, protection zones, and the NVS commands. Code words are numbered by A[25:4]. -/

namespace Sys2Proof.Machine

/-! ## Cells -/

/-- The reset value of a code word. -/
def cellReset (_ : Nat) : NvCell := .erased
/-- Code words of a block. -/
def blkWords : Nat := 4096
/-- What code word `i` of the store holds. -/
def Dev.nvCell (d : Dev) (i : Nat) : NvCell :=
  match Store.get cellReset d.nvs.words i with
  | .erased => if Store.get (fun _ => false) d.nvs.lost (i / blkWords) then .unknown else .erased
  | .data w c => .data w c
  | .unknown => .unknown
/-- What code word `i` of the factory calibration row holds. -/
def Dev.rowCell (d : Dev) (i : Nat) : NvCell :=
  match Store.get cellReset d.nvs.row i with
  | .erased => if d.nvs.rowLost then .unknown else .erased
  | .data w c => .data w c
  | .unknown => .unknown
/-- The Steward core's buffers lose the lines that `f` names (R398). -/
def NvsState.dropLines (n : NvsState) (f : Nat → Bool) : NvsState :=
  { n with prefetch := n.prefetch.filter fun b => !f b.line, branch := n.branch.filter fun b => !f b.line }
/-- The buffers lose the lines of block `b`: 2,048 lines each. -/
def NvsState.dropBlock (n : NvsState) (b : Nat) : NvsState := n.dropLines fun l => l / 2048 == b
/-- Make a code word hold something; the buffers lose its line. -/
def Dev.setCell (d : Dev) (row : Bool) (i : Nat) (x : NvCell) : Dev :=
  if row then { d with nvs := { d.nvs with row := Store.put cellReset d.nvs.row i x } }
  else { d with nvs := { (d.nvs.dropLines (· == i / 2)) with words := Store.put cellReset d.nvs.words i x } }
/-- Erase a block, or leave it in an unknown state where the erase failed or was cut (R395); the buffers lose its lines. -/
def Dev.eraseBlock (d : Dev) (row : Bool) (b : Nat) (ok : Bool) : Dev :=
  if row then { d with nvs := { d.nvs with row := [], rowLost := !ok } }
  else { d with nvs := { (d.nvs.dropBlock b) with
    words := Store.clear d.nvs.words fun i => i / blkWords == b
    lost := Store.put (fun _ => false) d.nvs.lost b (!ok) } }

/-- What a sense of a cell finds: data and CBITS; an unknown state gives free values (R395). -/
def Dev.senseCell (d : Dev) (x : NvCell) : Dev × QWord × BitVec 4 :=
  match x with
  | .erased => (d, BitVec.allOnes 128, 0)
  | .data w c => (d, w, c)
  | .unknown =>
    if Config.cutErased d.fresh then (d.bump, BitVec.allOnes 128, 0)
    else (d.bump, Config.cutWord d.fresh, Config.cutBits d.fresh)
/-- A cell is found erased, so that it may be programmed (R394). -/
def Dev.cellBlank (d : Dev) (x : NvCell) : Dev × Bool :=
  match x with
  | .erased => (d, true)
  | .data _ _ => (d, false)
  | .unknown => (d.bump, Config.cutErased d.fresh)

/-! ## Banks -/

/-- The reset value of a bank. -/
def bankReset (_ : Nat) : NvBank := {}
/-- Bank `b`. -/
def Dev.nvBank (d : Dev) (b : Nat) : NvBank := Store.get bankReset d.nvs.bank b
/-- Change bank `b`. -/
def Dev.updBank (d : Dev) (b : Nat) (f : NvBank → NvBank) : Dev :=
  { d with nvs := { d.nvs with bank := Store.upd bankReset d.nvs.bank b f } }
/-- Bank of a block. -/
def bankOf (blk : Nat) : Nat := blk / 256 % 4

/-- STATE of NVS_BANK (Table 18-10). -/
def NvBank.state (x : NvBank) : Nat :=
  match x.erase, x.prog with
  | none, none => 0
  | none, some _ => 1
  | some e, some _ => if e.stopped then 4 else 1
  | some e, none => if e.stopped then 3 else 2
/-- The bank can read now (R399). -/
def NvBank.readable (x : NvBank) : Bool := x.state == 0 || x.state == 3
/-- A program may start in the bank (R403). -/
def NvBank.mayProgram (x : NvBank) : Bool := x.state == 0 || x.state == 3
/-- The block lies under a suspended erase. -/
def NvBank.suspended (x : NvBank) (blk : Nat) : Bool :=
  match x.erase with
  | some e => e.stopped && !e.row && e.block == blk
  | none => false
/-- A read asks for a suspend of a running erase (R399). -/
def NvBank.readSuspend (x : NvBank) : NvBank :=
  { x with erase := x.erase.map fun e => if e.susp = 0 then { e with susp := 1 } else e }

/-- Ask for the suspend that a read of the bank needs. -/
def Dev.askSuspend (d : Dev) (b : Nat) : Dev :=
  if d.nvs.autosusp && (d.nvBank b).state == 2 then d.updBank b NvBank.readSuspend else d

/-! ## Protection (R392, R406) -/

/-- The requester is a device service acting for its own work. -/
def nvService (src : Nat) : Bool := decide (1 ≤ src) && decide (src ≤ 5)
/-- The reset value of a zone. -/
def zoneReset (_ : Nat) : Zone := {}
/-- Zone `z`. -/
def Dev.zone (d : Dev) (z : Nat) : Zone := Store.get zoneReset d.nvs.zone z
/-- Change zone `z`. -/
def Dev.updZone (d : Dev) (z : Nat) (f : Zone → Zone) : Dev :=
  { d with nvs := { d.nvs with zone := Store.upd zoneReset d.nvs.zone z f } }
/-- The zone guards the block now. -/
def Zone.guards (z : Zone) (blk : Nat) : Bool :=
  (z.st == 1 || z.st == 3) && decide (z.first ≤ blk) && decide (blk ≤ z.last)
/-- An outside requester may not read the block. -/
def Dev.readProtected (d : Dev) (src blk : Nat) : Bool :=
  !nvService src && (List.range 16).any fun z => (d.zone z).rp && (d.zone z).guards blk
/-- An outside requester may not program or erase the block. -/
def Dev.writeProtected (d : Dev) (src blk : Nat) : Bool :=
  !nvService src && (decide (992 ≤ blk) || (List.range 16).any fun z => (d.zone z).wp && (d.zone z).guards blk)

/-! ## The Steward core's buffers (R398) -/

/-- A line in the prefetch buffer or the branch cache. -/
def Dev.buffered (d : Dev) (line : Nat) : Option NvBuf := (d.nvs.prefetch ++ d.nvs.branch).find? fun b => b.line == line
/-- What initiator `src` reads of code word `i`: from a buffered line for the Steward core, else from the array. -/
def Dev.senseWord (d : Dev) (src i : Nat) : Dev × QWord × BitVec 4 :=
  match if src = 1 then d.buffered (i / 2) else none with
  | some b => (d, b.words.getD (i % 2) (0, 0))
  | none => d.senseCell (d.nvCell i)
/-- Fetch a line into a buffer: the buffered copy, or a read of the array where the bank can read and the line is not under a
suspended erase. -/
def Dev.fetchLine (d : Dev) (line : Nat) : Dev × List NvBuf :=
  let b := d.nvBank (bankOf (line / 2048))
  match d.buffered line with
  | some x => (d, [x])
  | none =>
    if !b.readable || b.suspended (line / 2048) || 2 ^ 21 ≤ line then (d, [])
    else
      let x := d.senseCell (d.nvCell (2 * line))
      let y := x.1.senseCell (x.1.nvCell (2 * line + 1))
      (y.1, [{ line := line, words := [x.2, y.2] }])
/-- Fetch lines in order. -/
def Dev.fetchLines : List Nat → Dev → Dev × List NvBuf
  | [], d => (d, [])
  | l :: r, d =>
    let x := d.fetchLine l
    let y := Dev.fetchLines r x.1
    (y.1, x.2 ++ y.2)
/-- The Steward core has read a line: a sequential read fills the prefetch buffer with it and the three lines after it, any
other one puts it first in the branch cache (R398). -/
def Dev.keepLine (d : Dev) (line : Nat) : Dev :=
  let d' := { d with nvs := { d.nvs with coreLine := some line } }
  if d.nvs.coreLine = some line then d
  else if d.nvs.coreLine = some (line - 1) && line ≠ 0 then
    let x := Dev.fetchLines [line, line + 1, line + 2, line + 3] d'
    { x.1 with nvs := { x.1.nvs with prefetch := x.2 } }
  else
    let x := d'.fetchLine line
    { x.1 with nvs := { x.1.nvs with branch := (x.2 ++ x.1.nvs.branch.filter fun b => b.line != line).take 32 } }

/-! ## Reads (R396, R397) -/

/-- What a read has gathered. -/
structure NvRead where
  data : List QWord := []
  cbits : Nat := 0
  ue : Bool := false
  susp : Bool := false

/-- The status of a read. -/
def NvRead.status (r : NvRead) : Status := if r.ue then .mediaError else if r.susp then .eraseSuspended else .ok

/-- EV209, at most once per millisecond. -/
def Dev.earlyEvent (d : Dev) (blk : Nat) : Dev :=
  let due := match d.nvs.earlyAt with
    | some t => decide (d.beatsOf 1000000 ≤ d.time.ticks - t)
    | none => true
  if due then ({ d with nvs := { d.nvs with earlyAt := some d.time.ticks } }).fire 209 (payload .ok 1 blk) else d

/-- One line read for initiator `src` of the code words `i` to `i + n − 1` of one line: the data, the status registers and
the events. -/
def Dev.nvLine (d : Dev) (src i n : Nat) : Dev × NvRead :=
  let blk := i / blkWords
  let susp := (d.nvBank (bankOf blk)).suspended blk
  let r := (List.range n).foldl (fun (acc : Dev × List QWord × Nat × Bool) k =>
    if susp then (acc.1, acc.2.1 ++ [BitVec.allOnes 128], 15, false)
    else
      let s := acc.1.senseWord src (i + k)
      (s.1, acc.2.1 ++ [s.2.1], acc.2.2.1 + s.2.2.toNat, acc.2.2.2 || s.2.2 == 15)) (d, [], 0, false)
  let d := r.1
  let ue := r.2.2.2
  let cb := if susp || ue then 15 else min 14 r.2.2.1
  let early := decide (d.nvs.ethr ≤ cb) && decide (cb < 15)
  let st : RdStat := { ue := ue, susp := susp, early := early, cbits := BitVec.ofNat 4 cb, line := i + n - 1 }
  let d := { d with nvs := { d.nvs with
    rdstat := Store.put (fun _ => {}) d.nvs.rdstat src st
    ewarn := if early then satAdd 0xFFFFFFFF d.nvs.ewarn 1 else d.nvs.ewarn } }
  let d := if early then d.earlyEvent blk else d
  let d := if ue then d.fire 210 (payload .mediaError 1 blk) else d
  (if src = 1 then d.keepLine (i / 2) else d, { data := r.2.1, cbits := cb, ue := ue, susp := susp })

/-- Read `n` code words from `i`, line by line. -/
def Dev.nvWords (d : Dev) (src : Nat) : Nat → Nat → Nat → Dev × NvRead
  | 0, _, _ => (d, {})
  | fuel + 1, i, n =>
    if n = 0 then (d, {})
    else
      let k := if i % 2 = 0 && 2 ≤ n then 2 else 1
      let x := d.nvLine src i k
      let y := Dev.nvWords x.1 src fuel (i + k) (n - k)
      (y.1, { data := x.2.data ++ y.2.data, cbits := max x.2.cbits y.2.cbits, ue := x.2.ue || y.2.ue, susp := x.2.susp || y.2.susp })

/-- The bytes of a range of the store, with their read. -/
def Dev.nvBytes (d : Dev) (src a n : Nat) : Dev × NvRead × List Byte :=
  let i := a / 16
  let k := (a + n + 15) / 16 - i
  let x := d.nvWords src k i k
  (x.1, x.2, ((x.2.data.flatMap fun w => leBytes 16 w.toNat).drop (a % 16)).take n)

/-- The blocks that a byte range touches. -/
def blocksOf (a n : Nat) : List Nat := (List.range ((a + n + 65535) / 65536 - a / 65536)).map (a / 65536 + ·)
/-- Every bank of a byte range can read now. -/
def Dev.rangeReadable (d : Dev) (a n : Nat) : Bool := (blocksOf a n).all fun b => (d.nvBank (bankOf b)).readable
/-- A read of a byte range asks for the suspends that it needs. -/
def Dev.askRange (d : Dev) (a n : Nat) : Dev := (blocksOf a n).foldl (fun d b => d.askSuspend (bankOf b)) d

/-- The NoC address of byte 0 of the store (R396). -/
def nvBase : Nat := 0x100000000

/-- A READ that its bank can serve now is answered (R396). -/
def Dev.nvsServe (d : Dev) (p : Packet) : Dev :=
  let a := p.addr.toNat - nvBase
  let x := d.nvWords p.src.toNat p.len.toNat (a / 16) p.len.toNat
  x.1.respond p x.2.status x.2.data

/-- The oldest waiting READ of each initiator: those behind it answer after it (R348). -/
def firstOf : List Packet → List Nat → List Packet
  | [], _ => []
  | p :: r, seen => if seen.contains p.src.toNat then firstOf r seen else p :: firstOf r (p.src.toNat :: seen)
/-- A READ of the Steward core that its buffers answer, with no access of the array (R398). -/
def Dev.coreHit (d : Dev) (p : Packet) : Bool :=
  let i := (p.addr.toNat - nvBase) / 16
  p.src == 1 && (List.range p.len.toNat).all fun k => (d.buffered ((i + k) / 2)).isSome
/-- A READ that can be served now. -/
def Dev.servable (d : Dev) (p : Packet) : Bool :=
  d.coreHit p || d.rangeReadable (p.addr.toNat - nvBase) (16 * p.len.toNat)
/-- The waiting READ whose turn it is: fixed rotation over the initiators, from the one after the initiator served last
(R398), among those whose banks can read (R399). -/
def Dev.readTurn (d : Dev) : Option Packet :=
  let c := (firstOf d.nvs.waiting []).filter d.servable
  ((List.range 64).map fun i => (d.nvs.lastSrc + 1 + i) % 64).findSome? fun s => c.find? fun p => p.src.toNat == s
/-- The waiting READs that cannot be served ask for the suspends that they need. -/
def Dev.askReads (d : Dev) : Dev :=
  d.nvs.waiting.foldl (fun d p => d.askRange (p.addr.toNat - nvBase) (16 * p.len.toNat)) d
/-- The READ whose turn it is leaves the waiting list and is served; one that the buffers answer does not move the rotation
of the array. -/
def Dev.serveRead (d : Dev) (p : Packet) : Dev :=
  ({ d with nvs := { d.nvs with
      waiting := d.nvs.waiting.erase p
      lastSrc := if d.coreHit p then d.nvs.lastSrc else p.src.toNat } } : Dev).nvsServe p
/-- At most `n` waiting READs are served. -/
def Dev.serveReads : Nat → Dev → Dev
  | 0, d => d.askReads
  | n + 1, d =>
    match d.readTurn with
    | none => d.askReads
    | some p => Dev.serveReads n (d.serveRead p)

/-- The waiting READs are looked at again. -/
def Dev.retryReads (d : Dev) : Dev := Dev.serveReads d.nvs.waiting.length d

/-- A READ request reaches the array. -/
def Dev.nvsRead (d : Dev) (p : Packet) : Dev :=
  let a := p.addr.toNat - nvBase
  if p.len = 0 || a % 16 ≠ 0 then d.respond p .badOperand []
  else if 2 ^ 26 < a + 16 * p.len.toNat then d.undecoded.respond p .ok (List.replicate p.len.toNat 0)
  else if (blocksOf a (16 * p.len.toNat)).any (d.readProtected p.src.toNat) then d.respond p .isProtected []
  else Dev.retryReads { d with nvs := { d.nvs with waiting := d.nvs.waiting ++ [p] } }

/-! ## Programs and erases (R394, R401 to R404) -/

/-- Start a program. -/
def Dev.startProgram (d : Dev) (blk : Nat) (x : NvProg) : Dev :=
  d.updBank (bankOf blk) fun b => { b with prog := some x }

/-- The erase counter of a block rises before its erase starts (R404). -/
def Dev.countErase (d : Dev) (blk : Nat) : Dev :=
  let n := Store.get (fun _ => 0) d.nvs.ecnt blk
  let d := { d with nvs := { d.nvs with ecnt := Store.put (fun _ => 0) d.nvs.ecnt blk (satAdd 0xFFFFF n 1) } }
  if n + 1 = 10000 then d.fire 213 (payload .ok 1 blk) else d

/-- Start an erase. -/
def Dev.startErase (d : Dev) (blk : Nat) (row : Bool) (o : Option Owner) : Dev :=
  let d := if row then d else d.countErase blk
  let d := if row then d else { d with nvs := d.nvs.dropBlock blk }
  d.updBank (bankOf blk) fun b => { b with erase := some { block := blk, row := row, owner := o } }

/-- A program or erase that the device makes for its own work is done at once by the command that names it: a program of
code word `i`, refused where the word is not erased. -/
def Dev.nvPut (d : Dev) (i : Nat) (w : QWord) (v : Verify) : Dev × Status :=
  let x := d.cellBlank (d.nvCell i)
  if !x.2 then (x.1, .reprogram)
  else match v with
    | .passed c => (x.1.setCell false i (.data w c), .ok)
    | .failed => (x.1.setCell false i .unknown, .mediaError)
/-- An erase for the device's own work. -/
def Dev.nvErase (d : Dev) (blk : Nat) (ok : Bool) : Dev := (d.countErase blk).eraseBlock false blk ok

/-- Check 7 of R401 on a code word. -/
def Dev.progStatus (d : Dev) (row : Bool) (i : Nat) : Dev × Status :=
  if !row && (d.nvBank (bankOf (i / blkWords))).suspended (i / blkWords) then (d, .eraseSuspended)
  else
    let x := d.cellBlank (if row then d.rowCell i else d.nvCell i)
    (x.1, if x.2 then .ok else .reprogram)

/-! ## The TCI jobs (R407) -/

/-- Run one job as far as its bank lets it go: none when it must wait. -/
def Dev.runJob (d : Dev) (j : NvJob) : Option Dev :=
  match j with
  | .read o a n host =>
    if d.rangeReadable a n && d.cmd.bme then
      let x := d.nvBytes (d.dmaSrc o) a n
      let d := (x.1.setHost (wrBytes x.1.cmd.hostMem host x.2.2)).dropChan o
      some (d.complete o x.2.1.status (word n) (word x.2.1.cbits))
    else none
  | .program o i left done =>
    match left with
    | [] => some ((d.dropChan o).complete o .ok (word done) 0)
    | w :: rest =>
      let b := d.nvBank (bankOf (i / blkWords))
      if b.mayProgram && !d.pwr.droop then
        let x := d.progStatus false i
        if x.2 = .ok then
          let d := x.1.startProgram (i / blkWords) { word := i, data := w, job := true }
          some { d with nvs := { d.nvs with jobs := .program o i (w :: rest) done :: d.nvs.jobs } }
        else some ((x.1.dropChan o).complete o x.2 (word done) 0)
      else none
  | .erase o blk =>
    if (d.nvBank (bankOf blk)).state == 0 && !d.pwr.droop then some (d.startErase blk false (some o)) else none

/-- The jobs that wait are looked at again, in order; a program in progress keeps its place. -/
def Dev.runJobs : List NvJob → Dev → Dev
  | [], d => d
  | j :: r, d =>
    let busy := match j with
      | .program _ i _ _ =>
        match (d.nvBank (bankOf (i / blkWords))).prog with
        | some p => p.job && p.word == i
        | none => false
      | .read _ _ _ _ => false
      | .erase _ _ => false
    let keep (d : Dev) : Dev := { d with nvs := { d.nvs with jobs := d.nvs.jobs ++ [j] } }
    if busy then Dev.runJobs r (keep d)
    else match d.runJob j with
      | some d => Dev.runJobs r d
      | none =>
        let d := match j with
          | .read _ a n _ => d.askRange a n
          | .program _ _ _ _ => d
          | .erase _ _ => d
        Dev.runJobs r (keep d)

/-- Whatever waits for a bank is looked at again. -/
def Dev.nvPump (d : Dev) : Dev :=
  let d := d.retryReads
  Dev.runJobs d.nvs.jobs { d with nvs := { d.nvs with jobs := [] } }

/-- A job joins. -/
def Dev.addJob (d : Dev) (j : NvJob) : Dev := ({ d with nvs := { d.nvs with jobs := d.nvs.jobs ++ [j] } }).nvPump

/-- NVS_READ. -/
def nvsReadCmd (c : Tci) (x : Dma) (o : Owner) (d : Dev) : Dev :=
  let a := fld (c.w 1) 0 26
  let n := fld (c.w 2) 0 26
  if c.w 1 ≠ word a || c.w 2 ≠ word n || n = 0 || 2 ^ 26 < a + n || (c.w64 3).toNat % 16 ≠ 0 then d.answer o .badOperand
  else if (blocksOf a n).any (d.readProtected 8) then d.answer o .isProtected
  else d.dma true c o fun d => if x ≠ .done then d.dmaFail o x else (d.takeChan o).addJob (.read o a n (c.w64 3).toNat)

/-- The first code word of a list that checks 6 and 7 of R401 refuse. -/
def Dev.firstRefused (src : Nat) : List Nat → Nat → Dev → Dev × Option (Nat × Status)
  | [], _, d => (d, none)
  | i :: r, k, d =>
    if d.writeProtected src (i / blkWords) then (d, some (k, .isProtected))
    else
      let x := d.progStatus false i
      if x.2 = .ok then Dev.firstRefused src r (k + 1) x.1 else (x.1, some (k, x.2))

/-- NVS_PROGRAM. -/
def nvsProgramCmd (c : Tci) (x : Dma) (o : Owner) (d : Dev) : Dev :=
  let a := fld (c.w 1) 0 26
  let n := fld (c.w 2) 0 26
  if c.w 1 ≠ word a || c.w 2 ≠ word n || a % 16 ≠ 0 || n % 16 ≠ 0 || 2 ^ 26 < a + n || (c.w64 3).toNat % 16 ≠ 0 then
    d.answer o .badOperand
  else if d.pwr.droop then d.answer o .busy
  else
    let ws := (List.range (n / 16)).map (a / 16 + ·)
    match Dev.firstRefused 8 ws 0 d with
    | (d, some (k, st)) => d.complete o st (word k) 0
    | (d, none) =>
      d.dma true c o fun d =>
        if x ≠ .done then d.dmaFail o x else
        let h := (c.w64 3).toNat
        (d.takeChan o).addJob (.program o (a / 16) ((List.range (n / 16)).map fun i => rd128 d.cmd.hostMem (h + 16 * i)) 0)

/-- NVS_ERASE. -/
def nvsEraseCmd (c : Tci) (o : Owner) (d : Dev) : Dev :=
  let b := fld (c.w 1) 0 10
  if c.w 1 ≠ word b then d.answer o .badOperand
  else if d.pwr.droop then d.answer o .busy
  else if d.writeProtected 8 b then d.answer o .isProtected
  else d.addJob (.erase o b)

/-! ## Zones (Table 18-5) -/

/-- ZUNLOCK. -/
def Dev.zunlock (d : Dev) (z : Nat) (pass : DWord) : Dev × Status :=
  let x := d.zone z
  match x.st with
  | 0 => (d, .notPresent)
  | 1 =>
    if x.pass = pass then (d.updZone z fun x => { x with st := 2, attempts := 8 }, .ok)
    else
      let d := d.updZone z fun x => { x with attempts := x.attempts - 1, st := if x.attempts ≤ 1 then 3 else 1 }
      (if x.attempts ≤ 1 then d.fire 212 (payload .isProtected 1 z) else d, .isProtected)
  | 2 => (d, .ok)
  | _ => (d, .isProtected)

/-- ZLOCK. -/
def Dev.zlock (d : Dev) (z : Nat) : Dev × Status :=
  match (d.zone z).st with
  | 0 => (d, .notPresent)
  | 2 => (d.updZone z fun x => { x with st := 1 }, .ok)
  | _ => (d, .ok)

/-- ZSET. -/
def Dev.zset (d : Dev) (z : Nat) (data : List Word) : Dev × Status :=
  let st := (d.zone z).st
  if st = 1 || st = 3 then (d, .isProtected)
  else
    let w2 := data.getD 2 0
    let w3 := data.getD 3 0
    (d.updZone z fun x => { x with st := 1, first := fld w2 0 10, last := fld w2 10 10, wp := bit w3 0, rp := bit w3 1,
                                   pass := dword (data.getD 0 0) (data.getD 1 0) }, .ok)

/-- ZCLEAR. -/
def Dev.zclear (d : Dev) (z : Nat) : Dev × Status :=
  match (d.zone z).st with
  | 0 => (d, .notPresent)
  | 2 => (d.updZone z fun _ => {}, .ok)
  | _ => (d, .isProtected)

/-- NVS_UNLOCK. -/
def nvsUnlockCmd (c : Tci) (o : Owner) (d : Dev) : Dev :=
  let z := fld (c.w 1) 0 4
  if c.w 1 ≠ word z then d.answer o .badOperand
  else
    let r := d.zunlock z (c.w64 2)
    r.1.complete o r.2 (if r.2 = .isProtected then word (r.1.zone z).attempts else 0) 0

/-! ## The sequencer (R400, R401) -/

/-- Check 1 of R401. -/
def nvOperands (cmd : Nat) (addr : Word) (data : List Word) : Bool :=
  let row := bit addr 31
  let d (i : Nat) : Word := data.getD i 0
  fld addr 26 5 == 0 &&
    match cmd with
    | 1 => if row then fld addr 12 14 == 0 && fld addr 0 4 == 0 else fld addr 0 4 == 0
    | 2 => if row then fld addr 0 26 == 0 else fld addr 0 16 == 0
    | 3 => !row && fld addr 0 24 == 0
    | 4 => !row && fld addr 0 24 == 0
    | 5 => !row && fld addr 4 22 == 0 && d 2 == 0 && d 3 == 0
    | 6 => !row && fld addr 4 22 == 0
    | 7 => !row && fld addr 4 22 == 0 && fld (d 2) 20 12 == 0 && fld (d 3) 2 30 == 0 && decide (fld (d 2) 0 10 ≤ fld (d 2) 10 10)
    | 8 => !row && fld addr 4 22 == 0
    | _ => false

/-- The same-bank rule (R402). -/
def Dev.bankSelf (d : Dev) (src bank : Nat) : Bool :=
  decide (40 ≤ src) && decide (src ≤ 43) && bit d.nvs.xip (4 * (src - 40) + bank)

/-- PROGRAM or ERASE at its start: checks 2 to 7 of R401, and the start. -/
def Dev.nvModify (d : Dev) (blank : Bool) (src cmd : Nat) (addr : Word) (data : List Word) : Dev × Status :=
  let row := bit addr 31
  let blk := fld addr 16 10
  let i := if row then fld addr 4 8 else fld addr 4 22
  let b := bankOf blk
  if row && !(blank && src == 6) then (d, .isProtected)
  else if d.pwr.droop then (d, .busy)
  else if !(if cmd = 1 then (d.nvBank b).mayProgram else (d.nvBank b).state == 0) then (d, .busy)
  else if d.bankSelf src b then (d.fire 215 (payload .bankSelf 1 src), .bankSelf)
  else if !row && d.writeProtected src blk then (d, .isProtected)
  else if cmd = 2 then (d.startErase blk row none, .ok)
  else
    let x := d.progStatus row i
    if x.2 = .ok then
      let w := ofLeBytes (data.flatMap fun w => leBytes 4 w.toNat)
      (x.1.startProgram blk { word := i, row := row, data := BitVec.ofNat 128 w }, .ok)
    else x

/-- SUSPEND (R403). -/
def Dev.nvSuspend (d : Dev) (b : Nat) : Dev × Status :=
  if (d.nvBank b).state ≠ 2 then (d, .badOperand)
  else (d.updBank b fun x => { x with erase := x.erase.map fun e => { e with susp := 2 } }, .ok)

/-- RESUME of an explicitly suspended erase (R403); under a droop the erase stays suspended by it. -/
def Dev.nvResume (d : Dev) (b : Nat) : Dev × Status :=
  match (d.nvBank b).erase with
  | none => (d, .badOperand)
  | some e =>
    if e.susp ≠ 2 then (d, .badOperand)
    else if (d.nvBank b).prog.isSome then (d, .busy)
    else
      let e' := if d.pwr.droop then { e with susp := 3 } else { e with susp := 0, stopped := false }
      let d := d.updBank b fun x => { x with erase := some e' }
      (d.fire 211 (payload .ok 2 e.block), .ok)

/-- Run a complete sequence. `blank` says that the life-cycle state is BLANK. -/
def Dev.nvOperate (d : Dev) (blank : Bool) (src cmd : Nat) (addr : Word) (data : List Word) : Dev :=
  let z := fld addr 0 4
  let r : Dev × Status :=
    if !nvOperands cmd addr data then (d, .badOperand)
    else match cmd with
      | 1 => d.nvModify blank src 1 addr data
      | 2 => d.nvModify blank src 2 addr data
      | 3 => d.nvSuspend (fld addr 24 2)
      | 4 => d.nvResume (fld addr 24 2)
      | 5 => d.zunlock z (dword (data.getD 0 0) (data.getD 1 0))
      | 6 => d.zlock z
      | 7 => d.zset z data
      | _ => d.zclear z
  { r.1 with nvs := { r.1.nvs with lstatus := r.2 } }

/-- A sequence ends without effect (R400). -/
def Dev.seqBroken (d : Dev) (src : Nat) : Dev :=
  ({ d with nvs := { d.nvs with seq := { d.nvs.seq with step := 0 }, seqErr := true } }).fire 214 (payload .badOperand 1 src)

/-- Set the sequencer. -/
def Dev.setSeq (d : Dev) (s : NvSeq) : Dev := { d with nvs := { d.nvs with seq := s } }

/-- The command takes data words. -/
def nvHasData (cmd : Nat) : Bool := cmd == 1 || cmd == 5 || cmd == 7

/-- A write of a sequencer register: 0 NVS_KEY, 1 NVS_CMD, 2 NVS_ADDR, 3 to 6 NVS_DATA0 to NVS_DATA3 (R400). -/
def nvsSequence (src reg : Nat) (w : Word) (otp : Otp) (d : Dev) : Dev :=
  let s := d.nvs.seq
  if s.step ≠ 0 && s.src ≠ src then { d with nvs := { d.nvs with werr := true } }
  else
    let run (s : NvSeq) : Dev :=
      (d.setSeq { s with step := 0 }).nvOperate (otp.state == 0) src s.cmd s.addr s.data
    match s.step, reg with
    | 0, 0 => if fld w 0 16 = 0xA5C3 then d.setSeq { step := 1, src := src } else d.seqBroken src
    | 1, 0 => if fld w 0 16 = 0x3C5A then d.setSeq { s with step := 2 } else d.seqBroken src
    | 2, 1 =>
      let cmd := fld w 0 4
      if 1 ≤ cmd && cmd ≤ 8 then d.setSeq { s with step := 3, cmd := cmd } else d.seqBroken src
    | 3, 2 =>
      if nvHasData s.cmd then d.setSeq { s with step := 4, addr := w } else run { s with addr := w }
    | 4, 3 => d.setSeq { s with step := 5, data := [w] }
    | 5, 4 => d.setSeq { s with step := 6, data := s.data ++ [w] }
    | 6, 5 => d.setSeq { s with step := 7, data := s.data ++ [w] }
    | 7, 6 => run { s with data := s.data ++ [w] }
    | _, _ => d.seqBroken src

/-- NVS_SEQ_TIMEOUT: more than 10 µs pass between two steps. -/
def nvsSeqTimeout (d : Dev) : Dev := if d.nvs.seq.step = 0 then d else d.seqBroken d.nvs.seq.src

/-- The register writes of one complete sequence: both keys, the command, the address and the data words (R400). -/
def seqWrites (cmd : Nat) (addr : Word) (data : List Word) : List (Nat × Word) :=
  [(0, 0xA5C3#32), (0, 0x3C5A#32), (1, word cmd), (2, addr)] ++
    if nvHasData cmd then (List.range 4).map fun i => (3 + i, data.getD i 0) else []
/-- One complete sequence in one command. -/
def nvsWhole (src cmd : Nat) (addr : Word) (data : List Word) (otp : Otp) (d : Dev) : Dev :=
  (seqWrites cmd addr data).foldl (fun d x => nvsSequence src x.1 x.2 otp d) d

/-! ## Ends (R399, R401, R403) -/

/-- PROGRAM_DONE of bank `b`. -/
def programDone (b : Nat) (v : Verify) (d : Dev) : Dev :=
  match (d.nvBank b).prog with
  | none => d
  | some p =>
    let st : Status := match v with
      | .passed _ => .ok
      | .failed => .mediaError
    let d := d.setCell p.row p.word (match v with
      | .passed c => .data p.data c
      | .failed => .unknown)
    let d := d.updBank b fun x => { x with prog := none, lstatus := st }
    let d := d.fire 208 (payload st 1 (if p.row then 0 else p.word / blkWords))
    let d := if !p.job then d
      else
        let upd (j : NvJob) : NvJob := match j with
          | .program o i left done => if i = p.word then .program o (i + 1) left.tail (done + 1) else j
          | .read o a n h => .read o a n h
          | .erase o blk => .erase o blk
        match v with
        | .passed _ => { d with nvs := { d.nvs with jobs := d.nvs.jobs.map upd } }
        | .failed =>
          let hit (j : NvJob) : Bool := match j with
            | .program _ i _ _ => i == p.word
            | .read _ _ _ _ => false
            | .erase _ _ => false
          let d1 := { d with nvs := { d.nvs with jobs := d.nvs.jobs.filter fun j => !hit j } }
          (d.nvs.jobs.filter hit).foldl (fun d j => match j with
            | .program o _ _ done => (d.dropChan o).complete o .mediaError (word done) 0
            | .read _ _ _ _ => d
            | .erase _ _ => d) d1
    d.nvPump

/-- ERASE_DONE of bank `b`; `ok` is the verify. -/
def eraseDone (b : Nat) (ok : Bool) (d : Dev) : Dev :=
  match (d.nvBank b).erase with
  | none => d
  | some e =>
    if e.stopped then d
    else
      let st : Status := if ok then .ok else .mediaError
      let d := d.eraseBlock e.row e.block ok
      let d := d.updBank b fun x => { x with erase := none, lstatus := st }
      let d := (d.fire 208 (payload st 2 e.block)).answer? e.owner st
      d.nvPump

/-- ERASE_STOP of bank `b`: an erase that a suspend was asked for stops, and the waiting reads are served. -/
def eraseStop (b : Nat) (d : Dev) : Dev :=
  match (d.nvBank b).erase with
  | none => d
  | some e =>
    if e.stopped || e.susp = 0 then d
    else
      let d := d.updBank b fun x => { x with erase := some { e with stopped := true } }
      let d := if e.susp = 1 then d else d.fire 211 (payload .ok 1 e.block)
      d.nvPump

/-- ERASE_AUTO_RESUME of bank `b`: a read-suspended erase resumes. -/
def eraseAutoResume (b : Nat) (d : Dev) : Dev :=
  match (d.nvBank b).erase with
  | none => d
  | some e =>
    if e.stopped && e.susp == 1 && (d.nvBank b).prog.isNone then
      (d.updBank b fun x => { x with erase := some { e with stopped := false, susp := 0 } }).nvPump
    else d

/-- A VIN droop suspends the erases in progress (R375). -/
def Dev.nvDroop (d : Dev) : Dev :=
  times 4 (fun b d =>
    match (d.nvBank b).erase with
    | none => d
    | some e =>
      if e.susp = 2 || e.susp = 3 then d
      else
        let d := d.updBank b fun x => { x with erase := some { e with susp := 3 } }
        if e.stopped then d.fire 211 (payload .ok 1 e.block) else d) d

/-- The droop clears: the erases that it suspended resume, each after a program that runs in its bank, and what waited may
start (R403). -/
def Dev.nvDroopClear (d : Dev) : Dev :=
  (times 4 (fun b d => d.updBank b fun x =>
    { x with erase := x.erase.map fun e =>
        if e.susp ≠ 3 then e else if x.prog.isSome then { e with susp := 1 } else { e with susp := 0, stopped := false } }) d).nvPump

/-- Some bank runs an operation, or one waits. -/
def Dev.nvBusy (d : Dev) : Bool := (List.range 4).any (fun b => (d.nvBank b).state != 0) || !d.nvs.jobs.isEmpty

/-- Power is lost: an operation in progress leaves its word or block in an unknown state (R395). -/
def Dev.nvCut (d : Dev) : Dev :=
  times 4 (fun b d =>
    let x := d.nvBank b
    let d := match x.prog with
      | some p => d.setCell p.row p.word .unknown
      | none => d
    let d := match x.erase with
      | some e => d.eraseBlock e.row e.block false
      | none => d
    d.updBank b fun _ => {}) d

/-! ## Registers (R409) -/

/-- A write to NVS_CTL. -/
def nvsCtlWrite (w : Word) (d : Dev) : Dev :=
  if (List.range 4).any fun b => (d.nvBank b).state != 0 then { d with nvs := { d.nvs with werr := true } }
  else { d with nvs := { d.nvs with autosusp := bit w 31, xip := BitVec.ofNat 16 w.toNat } }

/-- A write to NVS_ETHR. -/
def nvsEthrWrite (w : Word) (d : Dev) : Dev :=
  let v := fld w 0 4
  if v = 0 || v = 15 then { d with nvs := { d.nvs with werr := true } } else { d with nvs := { d.nvs with ethr := v } }

/-- A byte of the factory calibration row as every path shows it: zero once the kill bit is blown (R452). -/
def Dev.rowByte (d : Dev) (otp : Otp) (a : Nat) : Byte :=
  if otp.kill then 0
  else
    let w := (d.senseCell (d.rowCell (a / 16))).2.1
    BitVec.ofNat 8 (w.toNat / 2 ^ (8 * (a % 16)))

/-! ## The meanings -/

/-- NVS_SEQUENCE: initiator `src` writes sequencer register `reg`. -/
def execNvsSequence (src : Fin 64) (reg : Fin 7) (w : Word) (s : State) : Host.Outcome State Fault Refusal :=
  s.onDev fun otp d =>
    if d.tested pdNvs then d.holdRequest pdNvs 2 (writePacket src (0x70000 + 4 * reg.val) w)
    else if (d.domain pdNvs).closed then (if src.val = 0 then d.hostWriteFenced pdNvs else d.fencedAnswer pdNvs)
    else nvsSequence src reg w otp d
/-- NVS_SEQ_TIMEOUT. -/
def execNvsSeqTimeout (s : State) : Host.Outcome State Fault Refusal := s.onDev fun _ d => nvsSeqTimeout d
/-- A whole sequence of initiator `src`, while the NVS block answers. -/
def State.nvSequence (s : State) (src cmd : Nat) (addr : Word) (data : List Word) : Host.Outcome State Fault Refusal :=
  s.onDev fun otp d =>
    if d.tested pdNvs then (seqWrites cmd addr data).foldl
      (fun d x => d.holdRequest pdNvs 2 (writePacket src (0x70000 + 4 * x.1) x.2)) d
    else if (d.domain pdNvs).closed then (if src = 0 then d.hostWriteFenced pdNvs else d.fencedAnswer pdNvs)
    else nvsWhole src cmd addr data otp d
/-- PROGRAM. -/
def execProgram (src : Fin 64) (addr : Word) (w : QWord) (s : State) : Host.Outcome State Fault Refusal :=
  s.nvSequence src 1 addr ((List.range 4).map fun i => word (fld w (32 * i) 32))
/-- ERASE. -/
def execErase (src : Fin 64) (addr : Word) (s : State) : Host.Outcome State Fault Refusal := s.nvSequence src 2 addr []
/-- SUSPEND. -/
def execSuspend (src : Fin 64) (addr : Word) (s : State) : Host.Outcome State Fault Refusal := s.nvSequence src 3 addr []
/-- RESUME. -/
def execResume (src : Fin 64) (addr : Word) (s : State) : Host.Outcome State Fault Refusal := s.nvSequence src 4 addr []
/-- ZUNLOCK. -/
def execZunlock (src : Fin 64) (addr : Word) (data : List Word) (s : State) : Host.Outcome State Fault Refusal :=
  s.nvSequence src 5 addr data
/-- ZLOCK. -/
def execZlock (src : Fin 64) (addr : Word) (s : State) : Host.Outcome State Fault Refusal := s.nvSequence src 6 addr []
/-- ZSET. -/
def execZset (src : Fin 64) (addr : Word) (data : List Word) (s : State) : Host.Outcome State Fault Refusal :=
  s.nvSequence src 7 addr data
/-- ZCLEAR. -/
def execZclear (src : Fin 64) (addr : Word) (s : State) : Host.Outcome State Fault Refusal := s.nvSequence src 8 addr []
/-- PROGRAM_DONE of bank `b` with its verify. -/
def execProgramDone (b : Fin 4) (v : Verify) (s : State) : Host.Outcome State Fault Refusal :=
  s.onDev fun _ d => programDone b v d
/-- ERASE_DONE of bank `b`; `ok`: its verify passed. -/
def execEraseDone (b : Fin 4) (ok : Bool) (s : State) : Host.Outcome State Fault Refusal :=
  s.onDev fun _ d => eraseDone b ok d
/-- ERASE_AUTO_RESUME of bank `b`. -/
def execEraseAutoResume (b : Fin 4) (s : State) : Host.Outcome State Fault Refusal :=
  s.onDev fun _ d => eraseAutoResume b d
/-- ERASE_STOP of bank `b`. -/
def execEraseStop (b : Fin 4) (s : State) : Host.Outcome State Fault Refusal := s.onDev fun _ d => eraseStop b d
/-- NVS_READ. -/
def execNvsRead (c : Tci) (x : Dma) (s : State) : Host.Outcome State Fault Refusal :=
  s.onDev (runTciAt pdNvs 0xD0 c (nvsReadCmd c x))
/-- NVS_PROGRAM. -/
def execNvsProgram (c : Tci) (x : Dma) (s : State) : Host.Outcome State Fault Refusal :=
  s.onDev (runTciAt pdNvs 0xD1 c (nvsProgramCmd c x))
/-- NVS_ERASE. -/
def execNvsErase (c : Tci) (s : State) : Host.Outcome State Fault Refusal := s.onDev (runTciAt pdNvs 0xD2 c (nvsEraseCmd c))
/-- NVS_UNLOCK. -/
def execNvsUnlock (c : Tci) (s : State) : Host.Outcome State Fault Refusal := s.onDev (runTciAt pdNvs 0xD3 c (nvsUnlockCmd c))

end Sys2Proof.Machine
end

