-- ==== Sys2Proof/Machine/Cfg.lean ====
section
/-! DEFINITION. Configuration (13_configuration.md): streams and their checks, loads in two passes, plane swaps, the
start-up steps, the power-on sensing, keys. -/

namespace Sys2Proof.Machine

/-! ## Headers (R293, R294, R306) -/

/-- Word `i` of a list of bytes. -/
def wordAt (l : List Byte) (i : Nat) : Word := word (ofLeBytes ((l.drop (4 * i)).take 4))

/-- The start-up slots in order, SU0 first (Table 13-1). -/
def suSlots (su : DWord) : List Nat := (List.range 4).map fun i => fld su (16 * i) 16
/-- The steps in order: the default order for zero (R306). -/
def suSteps (su : DWord) : List (Nat × Nat) :=
  if su = 0 then [(0, 0), (1, 0), (2, 0), (3, 0)] else (suSlots su).map fun v => (v / 2 ^ 14, v % 2 ^ 14)
/-- The slots name each step once. -/
def suOk (su : DWord) : Bool := (List.range 4).all fun k => (suSteps su).any fun x => x.1 == k

/-- Bytes of the frames and tags of a stream (R293). -/
def streamLen (frames keysel : Nat) : Nat :=
  128 * frames + if keysel = 0 then 0 else 16 * ceilDiv frames 512

/-- The header checks of Table 13-7, in order; `version` is SYS_IDCODE.VERSION. -/
def headerStatus (otp : Otp) (h : List Byte) : Status :=
  let w (i : Nat) : Word := wordAt h i
  let full := fld (w 3) 16 2 == 0
  let keysel := fld (w 3) 0 2
  let frames := fld (w 6) 0 24
  let su := dword (w 7) (w 8)
  if h.length < 64 then .shortStream
  else if w 0 ≠ 0x43465654#32 || w 15 ≠ crcWords ((List.range 15).map w) then .streamError
  else if w 1 ≠ 0x16403C9B#32 || !bit (w 2) 1 then .deviceMismatch
  else if fld (w 2) 16 16 ≠ 0 || fld (w 3) 18 14 ≠ 0 || 2 ≤ fld (w 3) 16 2 || fld (w 3) 12 4 ≠ 0 || fld (w 3) 6 2 ≠ 0 ||
      2 ≤ fld (w 3) 4 2 || fld (w 3) 2 2 ≠ 0 || keysel = 3 || fld (w 5) 8 24 ≠ 0 || fld (w 6) 24 8 ≠ 0 ||
      fld (w 9) 1 31 ≠ 0 || w 13 ≠ 0 || w 14 ≠ 0 || fld (w 5) 0 8 ≠ (if keysel = 0 then 0 else 16) ||
      (w 4).toNat ≠ streamLen frames keysel || (keysel = 0 && (w 10 ≠ 0 || w 11 ≠ 0)) ||
      (full && (fld (w 3) 8 4 ≠ 0 || fld (w 3) 4 2 ≠ 0 || !suOk su)) ||
      (!full && (su ≠ 0 || w 9 ≠ 0)) then .badOperand
  else if keysel ≠ 0 && (Store.get (fun _ => ({} : KeySlot)) otp.keys (keysel - 1)).key.isNone then .notPresent
  else if keysel = 0 && otp.encOnly then .isProtected
  else .ok

/-! ## Frames (R295 to R299) -/

/-- The bytes of a base key: its words in order, each little-endian (DEDUCED, R6). -/
def keyBytes (k : BitVec 256) : List Byte := leBytes 32 k.toNat
/-- A label in ASCII. -/
def ascii (s : String) : List Byte := s.toList.map fun c => BitVec.ofNat 8 c.toNat
/-- Key K(s) of a stream (R299). -/
def streamKey (base : BitVec 256) (nonce : List Byte) : Nat → List Byte
  | 0 => kdf (keyBytes base) (ascii "TUIVAR-CFG0") nonce
  | s + 1 => kdf (streamKey base nonce s) (ascii "TUIVAR-CFG") (beBytes 4 (s + 1))

/-- The frames of an encrypted stream, segment by segment; the frame number of the first segment whose tag fails. -/
def openSegments (base : BitVec 256) (nonce aad : List Byte) : Nat → Nat → Nat → List Byte → List (List Byte) →
    List (List Byte) × Option Nat
  | 0, _, _, _, acc => (acc, none)
  | fuel + 1, s, left, body, acc =>
    if left = 0 then (acc, none)
    else
      let k := min 512 left
      let c := body.take (128 * k)
      let tag := (body.drop (128 * k)).take 16
      match gcmOpen (streamKey base nonce s) (nonce ++ beBytes 4 s) aad c tag with
      | none => (acc, some (512 * s))
      | some m => openSegments base nonce aad fuel (s + 1) (left - k) (body.drop (128 * k + 16)) (acc ++ pieces 128 k m)

/-- The frames of a stream, in plain, up to the first segment that does not open. -/
def Load.frameList (l : Load) (otp : Otp) (body : List Byte) : List (List Byte) × Option Nat :=
  if l.keysel = 0 then (pieces 128 l.frames body, none)
  else
    let base := ((Store.get (fun _ => ({} : KeySlot)) otp.keys (l.keysel - 1)).key).getD 0
    openSegments base l.nonce l.hdr (ceilDiv l.frames 512) 0 l.frames body []

/-- The payload of a frame. -/
def framePayload (f : List Byte) : BitVec 960 := BitVec.ofNat 960 (ofLeBytes ((f.drop 4).take 120))

/-- What a stream has given so far: the next frame of the order of R296 and the planes as read. -/
structure Image where
  glb : List (BitVec 960) := []
  /-- The numbers of the frames that carried them. -/
  glbAt : List Nat := []
  region : Nat
  cfgNext : Nat := 0
  /-- The least BMI position (39 × BM + CHUNK) that may follow. -/
  bmNext : Nat := 0
  planes : Store Plane := []

/-- Add to the plane of the region that the stream is at. -/
def Image.addPlane (m : Image) (f : Plane → Plane) : Image := { m with planes := Store.upd planeReset m.planes m.region f }

/-- Take one frame; none where its CRC, its encoding or its place in the order is wrong (R295, R296). -/
def Image.take (full : Bool) (m : Image) (f : List Byte) : Option Image :=
  let w := wordAt f 0
  let pay := framePayload f
  let glbDone := !full || m.glb.length == 16
  if wordAt f 31 ≠ crcWords ((List.range 31).map (wordAt f)) then none
  else match fld w 28 4 with
    | 1 =>
      let i := fld w 0 4
      let zero := if i = 2 then nfld pay.toNat 608 352 == 0 else if i < 2 then nfld pay.toNat 512 448 == 0 else pay == 0
      if !full || glbDone || w ≠ word (0x10000000 + i) || i ≠ m.glb.length || !zero then none
      else some { m with glb := m.glb ++ [pay] }
    | 2 =>
      let k := fld w 0 11
      let r := fld w 24 4
      if w ≠ word (0x20000000 + at' 24 r + k) || !glbDone then none
      else
        let m := if full && r == m.region + 1 && m.cfgNext == 2048 then { m with region := r, cfgNext := 0, bmNext := 0 } else m
        if r ≠ m.region || k ≠ m.cfgNext then none
        else some { m.addPlane fun p => { p with cfg := Store.put (fun _ => 0) p.cfg k pay } with cfgNext := k + 1 }
    | 3 =>
      let b := fld w 11 5
      let c := fld w 0 6
      if w ≠ word (0x30000000 + at' 24 m.region + at' 11 b + c) || m.cfgNext ≠ 2048 || 24 ≤ b || 39 ≤ c ||
          39 * b + c < m.bmNext || (c = 38 && nfld pay.toNat 384 576 ≠ 0) then none
      else some { m.addPlane fun p => { p with bmi := Store.put (fun _ => 0) p.bmi (39 * b + c) pay } with
                  bmNext := 39 * b + c + 1 }
    | 4 => if w = 0x40000000#32 then some m else none
    | _ => none

/-- Take every frame; the number of the first that is refused. -/
def Image.takeAll (full : Bool) : List (List Byte) → Nat → Image → Image × Option Nat
  | [], _, m => (m, none)
  | f :: r, i, m =>
    match m.take full f with
    | none => (m, some i)
    | some x => Image.takeAll full r (i + 1) (if x.glb.length = m.glb.length then x else { x with glbAt := m.glbAt ++ [i] })

/-- Every frame of the order has come. -/
def Image.complete (m : Image) (full : Bool) : Bool :=
  m.cfgNext == 2048 && (!full || (m.glb.length == 16 && m.region == 15))

/-! ## The global record (R297) -/

/-- Word `i` of payload `p`. -/
def payWord (p : BitVec 960) (i : Nat) : Word := word (nfld p.toNat (32 * i) 32)
/-- The record that the GLB frames carry. -/
def globOf (glb : List (BitVec 960)) (su : DWord) (tpll : Bool) : GlobalRec :=
  let f (i : Nat) : BitVec 960 := glb.getD i 0
  { valid := true
    gclk := (List.range 16).map (payWord (f 0)) ++ (List.range 16).map (payWord (f 1))
    rctl := (List.range 16).map (payWord (f 2))
    portClk := payWord (f 2) 16
    hookCfg := payWord (f 2) 17
    pulls := payWord (f 2) 18
    su := su
    tpllWait := tpll }
/-- The first GLB frame with an image that breaks the write rules of its register. -/
def Dev.globBad (d : Dev) (g : GlobalRec) : Option Nat :=
  let bad (w : Word) : Bool := gclkBad w || ((d.mode.mode == 5 || d.pendMode == some 5) && d.gclkFast w)
  if (g.gclk.take 16).any bad then some 0
  else if (g.gclk.drop 16).any bad then some 1
  else if g.rctl.any rctlBad || (List.range 16).any fun u => fld g.pulls (2 * u) 2 == 3 then some 2
  else none
/-- The images go into their registers. -/
def Dev.applyGlob (d : Dev) : Dev :=
  let g := d.cfg.glob
  let d := times 16 (fun n d => d.updFabRegion n fun r =>
    let w := g.rctl.getD n 0 &&& 0x1FFFF#32
    { r with rctl := w, held := if r.hold then w else r.held }) d
  { d with
    fab := { d.fab with
      gclk := Store.putList (fun _ => 0) [] 0 (g.gclk.map (· &&& 0x8F0000FF#32))
      portClk := BitVec.ofNat 25 g.portClk.toNat
      hookCfg := g.hookCfg &&& 0x80FFFFFF#32 }
    cfg := { d.cfg with pulls := g.pulls, su := g.su, tpllWait := g.tpllWait } }

/-! ## Borders (R269, R270, R277, R278) -/

/-- A segment of the border between the planes has both drivers. -/
def contends (west east : Plane) : Bool :=
  (List.range 256).any fun i => west.elem 15 i % 2 == 1 && east.elem 16 i % 2 == 1
/-- Eight cells in a row with CJOIN = 1 make a chain of more than 8. -/
def longRun : Nat → List Bool → Bool
  | n, [] => decide (8 ≤ n)
  | n, b :: r => if b then longRun (n + 1) r else decide (8 ≤ n) || longRun 0 r
/-- CJOIN of row `y` of a plane, from west to east. -/
def Plane.joins (p : Plane) (y : Nat) : List Bool := (List.range 6).map fun x => p.elem 10 (6 * y + x) % 2 == 1
/-- A chain across three neighbouring planes is too long. -/
def chainBad (a b c : Plane) : Bool := (List.range 128).any fun y => longRun 0 (a.joins y ++ b.joins y ++ c.joins y)

/-- The border checks over every choice of one of the candidate planes for each region. -/
def borderStatus (cand : Nat → List Plane) : Status :=
  if (List.range 15).any fun b => (cand b).any fun w => (cand (b + 1)).any fun e => contends w e then .contention
  else if ((List.range 14).any fun b => (cand b).any fun x => (cand (b + 1)).any fun y => (cand (b + 2)).any fun z =>
      chainBad x y z) || ((cand 0).any fun p => (List.range 128).any fun y => (p.joins y).headD false) then .badOperand
  else .ok

/-- A FAB_SWAP of region `n` is staged in an open transaction. -/
def Dev.swapStaged (d : Dev) (n : Nat) : Bool := d.openActs.contains (.fabSwap n)
/-- The region is held by a staged action (R220): the object of a FAB_SWAP of it, and of no other kind (Table 10-2). -/
def Dev.regionHeld (d : Dev) (n : Nat) : Bool := d.swapStaged n
/-- The border checks of a swap of region `n` (Table 12-8). -/
def Dev.swapBorders (d : Dev) (n : Nat) : Status :=
  borderStatus fun m =>
    if m = n then [d.shdPlane n]
    else if d.swapStaged m || d.cfg.swaps.any (fun x => x.region == m) then [d.actPlane m, d.shdPlane m]
    else [d.actPlane m]
/-- A load targets the region, or the active plane of a neighbour. -/
def Dev.loadTouches (d : Dev) (n : Nat) : Bool :=
  match d.cfg.load with
  | some l => decide (l.pass ≤ 2) && (l.full || l.region == n || (l.toActive && (l.region + 1 == n || n + 1 == l.region)))
  | none => false
/-- The refusals of a swap (R291) but for the staged actions that hold the region: the domain's state is `on`. -/
def Dev.swapStatus (d : Dev) (n : Nat) (held : Bool) : Status :=
  if !(d.shdPlane n).valid || !bit d.cfg.checked n then .badOperand
  else if d.loadTouches n || held then .busy
  else if !d.domOn (pdRg n) then .fenced
  else d.swapBorders n

/-- The planes of region `n` change places (R290 to R292). -/
def Dev.swapPlanes (d : Dev) (n : Nat) : Dev :=
  let a := !bit d.cfg.active n
  ({ d with cfg := { d.cfg with active := putBit d.cfg.active n a, storing := setBit d.cfg.storing n } }).enterHold n

/-! ## Block memories (R274) -/

/-- The block memories of region `n` take the initial contents of a plane, or zero. -/
def Dev.loadMems (d : Dev) (n : Nat) (p : Plane) : Dev :=
  let m0 := Store.clear d.fab.mem fun k => k / (4096 * 24) == n
  let m := p.bmi.foldl (fun m e =>
    let bm := e.1 / 39
    let c := e.1 % 39
    times 120 (fun i m =>
      let b := nfld e.2.toNat (8 * i) 8
      let k := 120 * c + i
      let base := 4096 * (24 * n + bm)
      if k < 4096 then Store.upd (fun _ => 0) m (base + k) fun v => v ||| BitVec.ofNat 9 b
      else times 8 (fun j m =>
        if nfld b j 1 = 1 && k < 4608 then
          Store.upd (fun _ => 0) m (base + 8 * (k - 4096) + j) fun v => setBit v 8 else m) m) m) m0
  { d with fab := { d.fab with mem := m } }

/-! ## Loads (R301 to R305, Table 13-7) -/

/-- The bytes of a load's source, and whether the read failed: host memory, NV store, vector memory. -/
def Dev.sourceBytes (d : Dev) (o : Owner) (src addr n : Nat) : Dev × Bool × List Byte :=
  match src with
  | 0 => (d, false, rdBytes d.cmd.hostMem addr n)
  | 1 =>
    if 2 ^ 26 < addr + n || (d.domain pdNvs).closed || (blocksOf addr n).any (d.readProtected (d.dmaSrc o)) then (d, true, [])
    else
      let r := d.nvBytes (d.dmaSrc o) addr n
      (r.1, decide (r.2.1.status ≠ .ok), r.2.2)
  | _ => if !d.vmi.ready || (d.domain pdVmi).closed then (d, true, []) else (d, false, rdBytes d.vmi.mem addr n)

/-- The detail of a configuration event (R312). -/
def cfgDetail (full : Bool) (region : Nat) : Nat := flag 8 full + region % 16

/-- A load fails, and its DMA channel is free again. -/
def Dev.loadFail (d : Dev) (l : Load) (st : Status) (pos : Nat) : Dev :=
  let pos := BitVec.ofNat 24 pos
  let d := d.dropChan l.owner
  let d := { d with cfg := { d.cfg with
    load := none
    lstatus := st
    errPos := pos
    err := d.cfg.err || l.full
    nocfg := d.cfg.nocfg || (l.full && l.pass == 2) } }
  (d.fire 225 (payload st 1 (cfgDetail l.full l.region))).complete l.owner st (word pos.toNat) 0
/-- A failure that no frame is tied to. -/
def noFrame : Nat := 0xFFFFFF

/-- A load's source could not be read: for host memory as `x` tells, with AER and EV251 (R318), and else as a media error. -/
def Dev.sourceFail (d : Dev) (l : Load) (x : Dma) (pos : Nat) : Dev :=
  if l.src = 0 && decide (x ≠ .done) then (d.dmaEvent l.owner.q x).loadFail l (dmaStatus x) pos else d.loadFail l .mediaError pos

/-- A load succeeds; CFG_ERRPOS keeps the frame of the last failure (Table 13-13). -/
def Dev.loadDone (d : Dev) (l : Load) : Dev :=
  let d := (d.dropChan l.owner)
  let d := { d with cfg := { d.cfg with load := none, lstatus := .ok } }
  (d.fire 224 (payload .ok 1 (cfgDetail l.full l.region))).complete l.owner .ok (word d.cfg.errPos.toNat) 0

/-- Every channel holds E low and D low (R145). -/
def Dev.channelsLow (d : Dev) : Dev :=
  times 64 (fun c d => d.updChannel c fun x => { x with d := false, e := false, inSafe := true }) d

/-- Acceptance of a FULL load (R303). -/
def Dev.fullLoadBegins (d : Dev) : Dev :=
  let d := (times 16 (fun n d => ((d.gsrAssert n).portEmpty n).updFabRegion n fun r =>
    { r with hold := true, boot := true, loadHold := false }) d).outputsZero.channelsLow
  { d with
    cfg := { d.cfg with done := false, err := false, blank := true, startup := false, suStep := 0, suWait := none, pulls := 0 }
    fab := { d.fab with writeEn := false, outRel := false, route := [], spine := [], carry := [], uio := [] } }

/-- A load is accepted: it takes a DMA channel, and the header checks follow. -/
def Dev.loadBegins (d : Dev) (l : Load) : Dev :=
  let d := (if l.full then d.fullLoadBegins else d).takeChan l.owner
  { d with cfg := { d.cfg with
    load := some l
    lfull := l.full
    lregion := if l.full then d.cfg.lregion else l.region
    prog := 0 } }

/-- The load that a header describes; one that could not be read has no KIND and counts as a REGION load of region 0
(log 36). -/
def loadOf (o : Owner) (src addr len : Nat) (h : List Byte) : Load :=
  let w (i : Nat) : Word := wordAt h i
  let full := decide (64 ≤ h.length) && fld (w 3) 16 2 == 0
  { owner := o, src := src, addr := addr, len := len, full := full, region := if full then 0 else fld (w 3) 8 4,
    toActive := fld (w 3) 4 2 == 1, keysel := fld (w 3) 0 2, frames := fld (w 6) 0 24, nonce := (h.drop 40).take 8,
    su := dword (w 7) (w 8), tpllWait := bit (w 9) 0, sid := w 12, hdr := h, pass := 1 }

/-- The mode, the holds and the domains that a load asks for (R303, R305, Table 13-7). -/
def Dev.loadStatus (d : Dev) (l : Load) : Status :=
  let nb := (List.range 16).any fun m => (m + 1 == l.region || l.region + 1 == m) && d.swapStaged m
  if l.full && !(d.mode.mode == 0 || d.mode.mode == 7) then .modeDenied
  else if (if l.full then (List.range 16).any d.swapStaged else d.regionHeld l.region || (l.toActive && nb)) then .busy
  else if (if l.full then (List.range 16).any fun n => !d.domOn (pdRg n) else !d.domOn (pdRg l.region)) then .fenced
  else .ok

/-- CFG_LOAD: the command checks, and for an accepted load the header checks; `x` is how the host answers the read of the
header. A refused one returns CFG_ERRPOS as it stands (Table 13-8). -/
def cfgLoad (c : Tci) (x : Dma) (o : Owner) (otp : Otp) (d : Dev) : Dev :=
  let src := fld (c.w 1) 0 2
  let addr := (c.w64 2).toNat
  let len := (c.w 4).toNat
  let refuse (d : Dev) (st : Status) : Dev := d.complete o st (word d.cfg.errPos.toNat) 0
  let bare : Load := { loadOf o src addr len [] with region := 0 }
  if c.w 1 ≠ word src || src = 3 || (src = 0 && addr % 16 ≠ 0) then refuse d .badOperand
  else if d.cfg.load.isSome then refuse d .busy
  else d.dma (src == 0) c o fun d =>
    if len < 64 then (d.loadBegins bare).loadFail bare .shortStream noFrame
    else if src = 0 && x ≠ .done then (d.loadBegins bare).sourceFail bare x noFrame
    else
      let r := d.sourceBytes o src addr 64
      if r.2.1 then (r.1.loadBegins bare).loadFail bare .mediaError noFrame
      else
        let l := loadOf o src addr len r.2.2
        match r.1.loadStatus l with
        | .ok =>
          let d := r.1.loadBegins l
          match headerStatus otp r.2.2 with
          | .ok => d
          | st => d.loadFail l st noFrame
        | st => refuse r.1 st

/-- The planes that the border checks of a load look at. -/
def Dev.loadCand (d : Dev) (l : Load) (m : Image) (n : Nat) : List Plane :=
  if l.full || n = l.region then [Store.get planeReset m.planes n] else [d.actPlane n]

/-- The image that a stream starts from. -/
def Load.image (l : Load) : Image := { region := l.region }

/-- The frames that a load checked or programmed (CFG_PROG). -/
def Dev.setProg (d : Dev) (n : Nat) : Dev := { d with cfg := { d.cfg with prog := n } }

/-- The plane of region `n` that a load writes. -/
def Dev.loadPlane (d : Dev) (l : Load) (n : Nat) : Nat := if l.toActive then d.activeOf n else 1 - d.activeOf n

/-- Pass 2 starts: the marks of what it writes are cleared (R290, R302, R303). -/
def Dev.pass2Begins (d : Dev) (l : Load) (body : List Byte) : Dev :=
  let d := { d with cfg := { d.cfg with load := some { l with pass := 2, seen := body }, prog := 0 } }
  let clearMark (n : Nat) (d : Dev) : Dev := d.updPlane n (d.loadPlane l n) fun p => { p with valid := false }
  if l.full then
    let d := { d with cfg := { d.cfg with glob := { d.cfg.glob with valid := false } } }
    times 16 clearMark d
  else
    let d := clearMark l.region d
    if l.toActive then (d.enterHold l.region).updFabRegion l.region fun r => { r with loadHold := true } else d

/-- A pass of the load waits: a Steward restart runs (R339), its source is host memory and Bus Master Enable is 0 (R318), or
streams come first at its source (R61). -/
def Dev.passWaits (d : Dev) (l : Load) : Bool := d.stw.restarting || (l.src == 0 && !d.cmd.bme) || (l.src == 2 && d.streamFirst)

/-- LOAD_PASS1_DONE: the checks of pass 1 in the order of Table 13-7; `bad` is the frame at which the source could not be
read, and `x` how the host answered the read. -/
def loadPass1 (bad : Option Nat) (x : Dma) (otp : Otp) (d : Dev) : Dev :=
  match d.cfg.load with
  | none => d
  | some l =>
    if l.pass ≠ 1 || d.passWaits l then d
    else if l.len < 64 + streamLen l.frames l.keysel then d.loadFail l .shortStream noFrame
    else
      let r := d.sourceBytes l.owner l.src (l.addr + 64) (streamLen l.frames l.keysel)
      let d := r.1
      match bad, r.2.1 with
      | some k, _ => (d.setProg k).sourceFail l x k
      | none, true => d.loadFail l .mediaError noFrame
      | none, false =>
        let fs := l.frameList otp r.2.2
        let im := Image.takeAll l.full fs.1 0 l.image
        match im.2, fs.2 with
        | some k, _ => (d.setProg k).loadFail l .streamError k
        | none, some k => (d.setProg k).loadFail l .streamError k
        | none, none =>
          let d := d.setProg l.frames
          if !im.1.complete l.full then d.loadFail l .streamError noFrame
          else match (if l.full then d.globBad (globOf im.1.glb l.su l.tpllWait) else none) with
          | some k => d.loadFail l .badOperand (im.1.glbAt.getD k noFrame)
          | none => match borderStatus (d.loadCand l im.1) with
            | .ok => d.pass2Begins l r.2.2
            | st => d.loadFail l st noFrame

/-- The first place where two lists of bytes differ. -/
def firstDiff : List Byte → List Byte → Nat → Option Nat
  | [], [], _ => none
  | a :: r, b :: q, i => if a = b then firstDiff r q (i + 1) else some i
  | _, _, i => some i

/-- The start-up steps begin (R306). -/
def Dev.startupBegins (d : Dev) : Dev :=
  { d.applyGlob with cfg := { d.applyGlob.cfg with startup := true, suStep := 0, suWait := none, blank := false } }

/-- LOAD_PASS2_DONE: `bad` is the frame at which the source could not be read or whose program failed its verify, and `x`
how the host answered a read. -/
def loadPass2 (bad : Option Nat) (x : Dma) (otp : Otp) (d : Dev) : Dev :=
  match d.cfg.load with
  | none => d
  | some l =>
    if l.pass ≠ 2 || d.passWaits l then d
    else
      let r := d.sourceBytes l.owner l.src (l.addr + 64) (streamLen l.frames l.keysel)
      let d := r.1
      let per := if l.keysel = 0 then 65536 else 65552
      match firstDiff l.seen r.2.2 0, bad with
      | some k, _ => let f := k / per * 512 + k % per / 128; (d.setProg f).loadFail l .streamError f
      | none, some k => (d.setProg k).sourceFail l x k
      | none, none =>
        let im := (Image.takeAll l.full (l.frameList otp l.seen).1 0 l.image).1
        let write (n : Nat) (d : Dev) : Dev :=
          let p := Store.get planeReset im.planes n
          d.updPlane n (d.loadPlane l n) fun _ => { p with valid := true, sid := l.sid }
        let d := d.setProg l.frames
        if l.full then
          let d := times 16 write d
          let d := { d with cfg := { d.cfg with
            active := ~~~d.cfg.active
            stored := ~~~d.cfg.active
            storing := 0
            checked := 0xFFFF
            glob := globOf im.glb l.su l.tpllWait
            nocfg := false
            load := some { l with pass := 3, seen := [] } } }
          let d := times 16 (fun n d => d.updPlane n (1 - d.activeOf n) fun p => { p with valid := false }) d
          (times 16 (fun n d => d.loadMems n (d.actPlane n)) d).startupBegins
        else
          let d := write l.region d
          let d := { d with cfg := { d.cfg with checked := if l.toActive then d.cfg.checked else setBit d.cfg.checked l.region } }
          let d := if l.toActive then d.loadMems l.region (d.actPlane l.region) else d
          d.loadDone l

/-! ## Start-up steps (R306, R307) -/

/-- A region may leave its hold once the outputs are released. -/
def Dev.regionReady (d : Dev) (n : Nat) : Bool := (d.actPlane n).valid && d.domOn (pdRg n)

/-- The step can complete now. -/
def Dev.suCan (d : Dev) (step : Nat) : Bool :=
  if step = 0 then
    decide ((d.loop 4).state = .locked) && decide ((d.loop 5).state = .locked) && (!d.cfg.tpllWait || d.tpllsLocked)
  else true
/-- A start-up step acts. -/
def Dev.suAct (d : Dev) (step : Nat) : Dev :=
  match step with
  | 1 => times 16 (fun n d => if d.regionReady n && (d.fabRegion n).boot then d.gsrRelease n else d) d
  | 2 => { d with fab := { d.fab with writeEn := true } }
  | 3 =>
    let d := times 16 (fun n d =>
      if !(d.fabRegion n).boot then d
      else if d.regionReady n then d.updFabRegion n fun r => { r with hold := false, boot := false }
      else (d.applyPolicies n).updFabRegion n fun r => { r with boot := false }) d
    let d := times 64 (fun c d => d.updChannel c fun x => { x with inSafe := false }.enterSafe (64 * d.now : Nat)) d
    { d with fab := { d.fab with outRel := true } }
  | _ => d
/-- The next slot starts, or user mode is reached. -/
def Dev.suNext (d : Dev) : Dev :=
  let d := { d with cfg := { d.cfg with suStep := d.cfg.suStep + 1, suWait := none } }
  if d.cfg.suStep < 4 then d
  else
    let d := ({ d with cfg := { d.cfg with startup := false, done := true } }).fire 228 (payload .ok 1 0)
    match d.cfg.load with
    | some l => if l.pass = 3 then d.loadDone l else d
    | none => d

/-- STARTUP_STEP: the step of the slot completes, or its delay has elapsed and the next slot starts. -/
def startupStep (d : Dev) : Dev :=
  if !d.cfg.startup then d
  else match d.cfg.suWait with
    | some 0 => d.suNext
    | some _ => d
    | none =>
      let x := (suSteps d.cfg.su).getD d.cfg.suStep (0, 0)
      if !d.suCan x.1 then d
      else
        let d := d.suAct x.1
        if x.2 = 0 then d.suNext else { d with cfg := { d.cfg with suWait := some x.2 } }

/-- One beat of a start-up delay passes. -/
def Dev.suBeat (d : Dev) : Dev :=
  match d.cfg.suWait with
  | some (k + 1) =>
    let d := { d with cfg := { d.cfg with suWait := some k } }
    if k = 0 then d.suNext else d
  | some 0 => d
  | none => d

/-! ## Power-on (R308) and the background check (R309) -/

/-- CONF_ERR rises for a media failure at power-on. -/
def Dev.confErr (d : Dev) : Dev := { d with cfg := { d.cfg with err := true, lstatus := .mediaError } }

/-- The power-on sequence senses the record and the planes: `globErr` and bit n of `planeErr` say which fail a CRC. A load
in progress has been cut. -/
def Dev.cfgPowerOn (d : Dev) (globErr : Bool) (planeErr : BitVec 16) : Dev :=
  let c := d.cfg
  let d := { d with
    cfg := { plane := c.plane, active := c.stored, stored := c.stored, glob := c.glob }
    fab := {} }
  let d := times 16 (fun n d => d.loadMems n (d.actPlane n)) d
  if !d.cfg.glob.valid || globErr then
    let st : Status := if d.cfg.glob.valid then .mediaError else .notPresent
    ({ d with cfg := { d.cfg with
        nocfg := true
        blank := true
        err := d.cfg.glob.valid
        lstatus := st } }).fire 226 (payload st 1 0x010)
  else
    let d := { d with cfg := { d.cfg with nocfg := false } }
    let d := times 16 (fun n d =>
      if !(d.actPlane n).valid then
        ({ d with cfg := { d.cfg with lstatus := .notPresent } }).fire 226 (payload .notPresent 1 n)
      else if bit planeErr n then
        ((d.updPlane n (d.activeOf n) fun p => { p with valid := false }).confErr).fire 226 (payload .mediaError 1 n)
      else d) d
    d.startupBegins
/-- SHADOW_CHECK of region `n`, in ascending order but for regions that a load targets; `ok`: every frame passes its CRC. -/
def shadowCheck (n : Nat) (ok : Bool) (d : Dev) : Dev :=
  let before := (List.range n).all fun k => bit d.cfg.checked k || d.loadTouches k
  if !d.cfg.done || bit d.cfg.checked n || d.loadTouches n || !before then d
  else
    let lost := !ok && (d.shdPlane n).valid
    let d := if lost then d.updPlane n (1 - d.activeOf n) fun p => { p with valid := false } else d
    let d := { d with cfg := { d.cfg with checked := setBit d.cfg.checked n } }
    if lost then d.fire 227 (payload .mediaError 1 n) else d

/-- ACTIVE_STORE: the new selections are in the non-volatile store (R292). -/
def activeStore (d : Dev) : Dev :=
  { d with cfg := { d.cfg with
    stored := (d.cfg.stored &&& ~~~d.cfg.storing) ||| (d.cfg.active &&& d.cfg.storing)
    storing := 0 } }

/-! ## Commands (R291, R300, R311) -/

/-- CFG_SWAP. -/
def cfgSwap (c : Tci) (o : Owner) (d : Dev) : Dev :=
  let n := fld (c.w 1) 0 4
  if c.w 1 ≠ word n then d.answer o .badOperand
  else match d.swapStatus n (d.regionHeld n) with
    | .ok => { d with cfg := { d.cfg with swaps := d.cfg.swaps ++ [{ region := n, due := d.boundariesFor 1000, owner := o }] } }
    | st => d.answer o st

/-- A beat boundary passes for the CFG_SWAPs that wait: those that are due apply (R291). -/
def Dev.swapBeat (d : Dev) : Dev :=
  let now := d.cfg.swaps.filter fun x => x.due ≤ 1
  let rest := (d.cfg.swaps.filter fun x => decide (1 < x.due)).map fun x => { x with due := x.due - 1 }
  now.foldl (fun d x => ((d.swapPlanes x.region).fire 229 (payload .ok 1 x.region)).answer x.owner .ok)
    { d with cfg := { d.cfg with swaps := rest } }

/-- CFG_ABORT. -/
def cfgAbort (o : Owner) (d : Dev) : Dev :=
  let d := match d.cfg.load with
    | some l => if l.pass ≤ 2 then d.loadFail l .aborted noFrame else d
    | none => d
  d.answer o .ok

/-- CFG_KEY_PROG; `v` is the verify of the program. A failed program spoils its generation (DESIGN CHOICE). -/
def cfgKeyProg (c : Tci) (v : Verify) (o : Owner) (otp : Otp) (d : Dev) : Otp × Dev :=
  let k := fld (c.w 1) 0 1
  let slot := Store.get (fun _ => ({} : KeySlot)) otp.keys k
  let key : BitVec 256 := BitVec.ofNat 256 (ofLeBytes ((List.range 8).flatMap fun i => leBytes 4 (c.w (2 + i)).toNat))
  let put (s : KeySlot) : Otp := { otp with keys := Store.put (fun _ => {}) otp.keys k s }
  if c.w 1 ≠ word k then (otp, d.answer o .badOperand)
  else if slot.key.isSome || 4 ≤ slot.gens then (otp, d.answer o .refused)
  else match v with
    | .passed _ => (put { key := some key, gens := slot.gens + 1 }, d.answer o .ok)
    | .failed => (put { key := none, gens := slot.gens + 1 }, d.answer o .mediaError)

/-- CFG_ENCONLY. -/
def cfgEncOnly (o : Owner) (otp : Otp) (d : Dev) : Otp × Dev := ({ otp with encOnly := true }, d.answer o .ok)

/-- The key check value of a slot: the first two bytes of the digest of its key (R300). -/
def kcv (otp : Otp) (k : Nat) : Nat :=
  match (Store.get (fun _ => ({} : KeySlot)) otp.keys k).key with
  | some key => ofLeBytes ((sha256 (keyBytes key)).take 2)
  | none => 0

/-! ## The meanings -/

/-- CFG_LOAD. -/
def execCfgLoad (c : Tci) (x : Dma) (s : State) : Host.Outcome State Fault Refusal :=
  s.onDev fun otp d => runTci 0x70 c (fun o d => cfgLoad c x o otp d) otp d
/-- LOAD_PASS1_DONE. -/
def execLoadPass1Done (bad : Option Nat) (x : Dma) (s : State) : Host.Outcome State Fault Refusal := s.onDev (loadPass1 bad x)
/-- LOAD_PASS2_DONE. -/
def execLoadPass2Done (bad : Option Nat) (x : Dma) (s : State) : Host.Outcome State Fault Refusal := s.onDev (loadPass2 bad x)
/-- STARTUP_STEP. -/
def execStartupStep (s : State) : Host.Outcome State Fault Refusal := s.onDev fun _ d => startupStep d
/-- SHADOW_CHECK. -/
def execShadowCheck (r : Fin 16) (ok : Bool) (s : State) : Host.Outcome State Fault Refusal :=
  s.onDev fun _ d => shadowCheck r ok d
/-- ACTIVE_STORE. -/
def execActiveStore (s : State) : Host.Outcome State Fault Refusal := s.onDev fun _ d => activeStore d
/-- CFG_SWAP. -/
def execCfgSwap (c : Tci) (s : State) : Host.Outcome State Fault Refusal := s.onDev (runTci 0x71 c (cfgSwap c))
/-- CFG_ABORT. -/
def execCfgAbort (c : Tci) (s : State) : Host.Outcome State Fault Refusal := s.onDev (runTci 0x72 c cfgAbort)
/-- CFG_KEY_PROG. -/
def execCfgKeyProg (c : Tci) (v : Verify) (s : State) : Host.Outcome State Fault Refusal :=
  s.onBoth (runTciOtp 0x73 c (cfgKeyProg c v))
/-- CFG_ENCONLY. -/
def execCfgEnconly (c : Tci) (s : State) : Host.Outcome State Fault Refusal := s.onBoth (runTciOtp 0x74 c cfgEncOnly)

end Sys2Proof.Machine
end

