-- ==== Sys2Proof/Machine/Breeze.lean ====
section
/-! DEFINITION. Breeze (07_breeze_calibration.md): corrections and targets, samples and measurements, steps and jumps, OM2
windows, sweeps, and what the power, clock and partner blocks do to them. -/

namespace Sys2Proof.Machine

/-! ## Values -/

/-- The integer that a 12-bit field holds; a value that does not fit is a free value (log 6). -/
def fit12 (v : Int) : Int := if -2048 ≤ v ∧ v ≤ 2047 then v else (Config.corrWide v).toInt

/-- A time in quarter picoseconds as LSB of 1/64 ECLK, rounded: round(64 × ECLK × t) (R158, R159). -/
def Dev.lsbOf (d : Dev) (q : Int) : Int :=
  if d.time.period = 0 then 0 else roundDiv (q * (16000 * d.time.mult : Nat)) d.time.period.toNat

/-- The typical added delay of a slew and swing setting, in quarter picoseconds (Table 6-12). -/
def slewDelay (slew : BitVec 2) (swing : Bool) : Int :=
  (if slew = 0 then 0 else if slew = 1 then 60 else if slew = 2 then 128 else 232) + (if swing then 12 else 0)
/-- The delay of a channel in mode `m`: OM5 forces the 120 ps slew setting (R60). -/
def Channel.delayIn (x : Channel) (m : Nat) : Int := slewDelay (if m = 5 then 3 else x.slew) x.swing

/-- The quad's Breeze event (R173). -/
def Dev.calEvent (d : Dev) (q : Nat) (st : Status) (reason c t : Nat) : Dev := d.fire (128 + q) (payload4 st reason c t)

/-- Apply a change to the five entries of a channel. -/
def Dev.updCorrs (d : Dev) (c : Nat) (f : CorrEntry → CorrEntry) : Dev :=
  times 5 (fun t d => d.updCorr c t f) d

/-- CAL_OOR of a channel (Table 7-13). -/
def Dev.oorOf (d : Dev) (c : Nat) : Bool := (List.range 5).any fun t => (d.corr c t).oor

/-! ## Discards (R157) -/

/-- The samples of an entry are discarded. -/
def CorrEntry.discard (e : CorrEntry) : CorrEntry := { e with count := 0, sum := 0 }
/-- The samples are discarded and MVALID clears. -/
def CorrEntry.invalidate (e : CorrEntry) : CorrEntry := { e with count := 0, sum := 0, mvalid := false }
/-- Discard the samples of the channels that TPLL `i` feeds. -/
def Dev.discardTpll (d : Dev) (i : Nat) : Dev :=
  times 16 (fun k d => d.updCorrs (16 * i + k) CorrEntry.discard) d
/-- PD_EQ of quad `q` leaves On (R157): samples are discarded, a TDC arm is lost, MVALID reads 0 on the return. -/
def Dev.discardQuad (d : Dev) (q : Nat) : Dev :=
  let d := times 4 (fun k d => d.updCorrs (4 * q + k) CorrEntry.invalidate) d
  { d with cal := { d.cal with arms := Store.drop d.cal.arms q } }
/-- A ramp starts: every sample is discarded (R53, R157). -/
def Dev.discardAll (d : Dev) : Dev := times 64 (fun c d => d.updCorrs c CorrEntry.discard) d

/-! ## Changes of the corrections -/

/-- Add a difference in quarter picoseconds to CORR and TARGET of a channel (R148). -/
def Dev.shiftCorrs (d : Dev) (c : Nat) (q : Int) : Dev :=
  let k := d.lsbOf q
  d.updCorrs c fun e => { e with corr := fit12 (e.corr + k), target := fit12 (e.target + k) }

/-- A change of a channel's slew or swing applies (R148, R157, R36). In OM5 the SLEW field alone changes nothing that drives: it
takes effect when OM5 is left (R60). -/
def Dev.setSlew (d : Dev) (c : Nat) (slew : BitVec 2) (swing : Bool) : Dev :=
  let x := d.channel c
  if x.slew = slew && x.swing == swing then d
  else if d.mode.mode = 5 && x.swing == swing then d.setChannel c { x with slew := slew }
  else
    let m := d.mode.mode
    let y := { x with slew := slew, swing := swing }
    let d := (d.setChannel c y).shiftCorrs c (y.delayIn m - x.delayIn m)
    let d := d.updCorrs c CorrEntry.invalidate
    { d with cal := { d.cal with cancel := setBit d.cal.cancel c } }

/-- A change into or out of OM5 (R148, Table 7-3): the forced slew setting comes or goes on every channel. -/
def Dev.forceSlew (d : Dev) (old new : Nat) : Dev :=
  if (old == 5) == (new == 5) then d
  else
    let d := times 64 (fun c d =>
      let x := d.channel c
      (d.shiftCorrs c (x.delayIn new - x.delayIn old)).updCorrs c CorrEntry.invalidate) d
    { d with cal := { d.cal with cancel := BitVec.allOnes 64 } }

/-- The bulk calibration apply (R164, R36, R157). -/
def Dev.bulkApply (d : Dev) (mask : DWord) : Dev :=
  let d := (bitsOf mask).foldl (fun d c =>
    d.updCorrs c fun e => { e.invalidate with corr := e.target, oor := false }) d
  { d with cal := { d.cal with cancel := d.cal.cancel ||| mask } }

/-- Whether an entry is out of range once its target is `target` (R163); `told` raises the event. -/
def Dev.judgeRange (d : Dev) (c t : Nat) : Dev :=
  if !d.inTraffic c then d
  else
    let e := d.corr c t
    if (d.modeCfg d.mode.mode).orl ≤ (e.target - e.corr).natAbs then
      (d.setCorr c t { e with oor := true }).calEvent (c / 4) .refused 1 c t
    else d.setCorr c t { e with oor := false }

/-- A change of the partner delay of an entry (R159). -/
def Dev.partnerShift (d : Dev) (c t : Nat) (q : Int) : Dev :=
  if q = 0 then d
  else (d.updCorr c t fun e => { e with target := fit12 (e.target + d.lsbOf q) }).judgeRange c t

/-- The seed of an entry (R158), out of range as R163 has it where it is clamped: `q` is the sum of the three delays in quarter picoseconds. -/
def Dev.seedEntry (d : Dev) (c t : Nat) (q : Int) : Dev :=
  let v := d.lsbOf q
  let k := max (-2048) (min 2047 v)
  let d := d.setCorr c t { corr := k, target := k, oor := decide (v ≠ k) }
  if v = k then d else d.calEvent (c / 4) .refused 1 c t

/-! ## Samples (R151 to R156) -/

/-- TPLL that feeds a channel. -/
def tpllOf (c : Nat) : Nat := c / 16

/-- The engine's OM2 window is in progress. -/
def Dev.inWindow (d : Dev) (n : Nat) : Bool :=
  match (d.engine n).winAt with
  | some s => decide (s ≤ d.now) && decide (d.now < s + 512)
  | none => false

/-- E of a channel is low now; in an OM2 window a CAL_WINZ bit takes it low (R169). -/
def Dev.eLow (d : Dev) (c : Nat) : Bool := !(d.channel c).e || (d.inWindow (d.driver c) && bit d.cal.winz c)

/-- Where the slot in progress of a channel ends at the latest (Table 7-2): at the end of the window, at the start of the next
vector of a running engine; a waiting or halted engine ends it at no known time. -/
def Dev.slotEnd (d : Dev) (c : Nat) : Option Nat :=
  let n := d.driver c
  let e := d.engine n
  if d.inWindow n then e.winAt.map (· + 512)
  else if e.st = .run then
    some (match e.flight with
      | v :: _ => v.start
      | [] => max e.issueAt e.slotAt + 10)
  else none

/-- The channel is in a breeze slot (Table 7-2): an idle channel, an OM2 window, or the time since the last vector with a
transition or a strobe. In OM0 and OM7 only idle channels have slots (Table 7-4). -/
def Dev.inSlot (d : Dev) (c : Nat) : Bool :=
  let m := d.mode.mode
  let x := d.channel c
  let idle := (d.engine (d.driver c)).st.halted && x.inSafe
  if m = 0 || m = 7 then idle
  else modeRuns m c && (idle || d.inWindow (d.driver c) ||
    ((d.engine (d.driver c)).st.moving && decide (x.quiet ≤ d.now)))

/-- The channel is measured by the full sweep in progress (R172). -/
def Dev.sweeping (d : Dev) (c : Nat) : Bool :=
  match d.cal.sweep with
  | some w => bit w.swept c
  | none => false

/-- Breeze takes measurements of the channel at all (R53, R157, Tables 7-8, 7-12). -/
def Dev.measures (d : Dev) (c : Nat) : Bool :=
  (d.modeCfg d.mode.mode).measEn && !d.cal.freeze && !d.cal.holdoff && d.domOn (pdEq c) &&
    (decide ((d.loop (tpllOf c)).state = .locked) || decide ((d.loop (tpllOf c)).state = .track)) &&
    !((d.channel c).inSafe && d.pin.safeN) && !d.quadTest c && !d.tested (pdEq c)

/-- Breeze may sample the channel now: in a slot, or in a full sweep of it. -/
def Dev.mayMeasure (d : Dev) (c : Nat) : Bool := d.measures c && (d.inSlot c || d.sweeping c)

/-- An idle channel cannot be armed (Table 7-2). -/
def Dev.mayArm (d : Dev) (c : Nat) : Bool :=
  d.mayMeasure c && (d.sweeping c || !((d.engine (d.driver c)).st.halted && (d.channel c).inSafe))

/-- A pulse fits on D of the channel now (R152, Table 7-2): E is low, the rise lies 32 LSB after the last transition of D, and
the fall, 1 ECLK later, 32 LSB before the end of the slot. -/
def Dev.mayInject (d : Dev) (c : Nat) : Bool :=
  d.mayMeasure c && (d.sweeping c || (d.eLow c && !tooClose (d.channel c).lastD (64 * d.now : Nat) &&
    (match d.slotEnd c with | some t => decide (d.now + 2 ≤ t) | none => true)))

/-- A pulse is injected: its rise now, its fall 1 ECLK later. -/
def Dev.injectPulse (d : Dev) (c : Nat) : Dev :=
  d.updChannel c fun x => { x with lastD := some (64 * (d.now + 1) : Nat), pulse := some d.now }

/-- A sample in 1/128 ECLK joins its measurement; the 257th waits for nothing and is not taken. -/
def CorrEntry.sample (v : Int) (e : CorrEntry) : CorrEntry :=
  if e.count < 256 then { e with count := e.count + 1, sum := e.sum + v } else e

/-- The reset value of a TDC arm. -/
def armReset (_ : Nat) : Option CapArm := none
/-- What the TDC of quad `q` is armed for. -/
def Dev.arm (d : Dev) (q : Nat) : Option CapArm := Store.get armReset d.cal.arms q
/-- Arm or disarm the TDC of a quad. -/
def Dev.setArm (d : Dev) (q : Nat) (a : Option CapArm) : Dev :=
  { d with cal := { d.cal with arms := Store.put armReset d.cal.arms q a } }

/-- It is the channel's turn at the TDC of its quad (R156): the TDC is not armed, and no channel of the quad that stands before
it in the rotation has a slot that the TDC could use. -/
def Dev.tdcTurn (d : Dev) (c : Nat) : Bool :=
  let q := c / 4
  let last := Store.get (fun _ => 0) d.cal.lastServed q
  (d.arm q).isNone &&
    (([1, 2, 3, 4].map fun i => 4 * q + (last + i) % 4).find? fun k => d.mayArm k || d.mayInject k) == some c

/-- The TDC of the channel's quad serves it (R156). -/
def Dev.served (d : Dev) (c : Nat) : Dev :=
  { d with cal := { d.cal with lastServed := Store.put (fun _ => 0) d.cal.lastServed (c / 4) (c % 4) } }

/-- The reference check of the TDC failed: the measurements that it was to serve are discarded (R151). -/
def Dev.tdcFault (d : Dev) (c : Nat) (ts : List Nat) : Dev :=
  let q := c / 4
  let d := ts.foldl (fun d t => d.updCorr c t CorrEntry.discard) d
  ({ d with cal := { d.cal with tdcFault := setBit d.cal.tdcFault q } }).calEvent q .mediaError 3 0xFF 0xFF

/-- BREEZE_SAMPLE: what happens in a breeze slot of channel `c`; `ok` says that the TDC passed its reference check. The TDC
arms for a capture or serves an injected pulse in the channel's turn (R156); a capture needs a transition of the armed type
within 256 ECLK of the arm (R152); a loopback sample is taken of an injected pulse, the TDC's or its own (R153). -/
def breezeSample (c : Nat) (x : Sample) (ok : Bool) (d : Dev) : Dev :=
  match x with
  | .arm t =>
    if d.mayArm c && d.tdcTurn c then
      ((d.setArm (c / 4) (some { ch := c, typ := t, since := d.now })).served c).updChannel c fun x =>
        { x with armTyp := some t.val, hit := none }
    else d
  | .capture v =>
    match d.arm (c / 4) with
    | some a =>
      let due := match (d.channel c).hit with
        | some t => decide (t ≤ (64 * (a.since + 256) : Nat))
        | none => d.sweeping c
      if a.ch ≠ c || !d.measures c || !due then d
      else
        let d := (d.setArm (c / 4) none).updChannel c fun x => { x with armTyp := none, hit := none }
        if ok then d.updCorr c a.typ (CorrEntry.sample v) else d.tdcFault c [a.typ.val]
    | none => d
  | .inject r f =>
    if !d.mayInject c || !d.tdcTurn c then d
    else if ok then (((d.injectPulse c).updCorr c 0 (CorrEntry.sample r)).updCorr c 1 (CorrEntry.sample f)).served c
    else d.tdcFault c [0, 1]
  | .loopback v =>
    let now := decide ((d.channel c).pulse = some d.now)
    if !d.mayMeasure c || !(now || d.mayInject c) then d
    else ((if now then d else d.injectPulse c).updChannel c fun x => { x with pulse := none }).updCorr c 4 (CorrEntry.sample v)

/-- ARM_LAPSE of quad `q` (R152): an arm that captured nothing within 256 ECLK. -/
def armLapse (q : Nat) (d : Dev) : Dev :=
  match d.arm q with
  | none => d
  | some a =>
    let hit := match (d.channel a.ch).hit with
      | some t => decide (t ≤ (64 * (a.since + 256) : Nat))
      | none => false
    if hit || decide (d.now < a.since + 256) then d
    else (d.setArm q none).updChannel a.ch fun x => { x with armTyp := none, hit := none }

/-- MEASUREMENT_DONE: the 256 samples of an entry are complete (R155, R163); in a full sweep of the channel CORR takes the
TARGET (R172). -/
def measurementDone (c t : Nat) (d : Dev) : Dev :=
  let e := d.corr c t
  if e.count ≠ 256 then d
  else
    let v := fit12 (e.corr - roundDiv e.sum 512)
    let e := { e with target := v, mvalid := true, count := 0, sum := 0 }
    match d.cal.sweep with
    | some w =>
      if bit w.swept c then
        let d := d.setCorr c t { e with corr := v, oor := false }
        { d with cal := { d.cal with sweep := some { w with got := (5 * c + t) :: w.got } } }
      else (d.setCorr c t e).judgeRange c t
    | none => (d.setCorr c t e).judgeRange c t

/-! ## Steps (R161, R162, R165) -/

/-- CORR moves by one LSB towards TARGET. -/
def CorrEntry.step (e : CorrEntry) : CorrEntry :=
  { e with corr := if e.corr < e.target then e.corr + 1 else if e.target < e.corr then e.corr - 1 else e.corr }

/-- Steps and jumps are switched on. -/
def Dev.stepsOn (d : Dev) : Bool := (d.modeCfg d.mode.mode).stepEn && !d.cal.freeze

/-- What a step boundary does to one entry; `traffic` says that the channel was in traffic in step 2. Steps and jumps wait out
the hold-off and are cancelled alike (R36, R53, Table 7-3; DEDUCED for jumps, log 27). -/
def Dev.stepEntry (d : Dev) (traffic : Bool) (c t : Nat) : Dev :=
  if d.cal.holdoff || bit d.cal.cancel c then d
  else d.updCorr c t fun e =>
    if traffic then
      if e.mvalid && !e.oor then e.step else e
    else { e with corr := e.target, oor := false }

/-- STEP_BOUNDARY: the steps and jumps that the last wrap of the step counter left due. -/
def Dev.stepBoundary (d : Dev) : Dev :=
  match d.cal.stepDue with
  | none => d
  | some traffic =>
    let d := { d with cal := { d.cal with stepDue := none } }
    if d.stepsOn then times 64 (fun c d => times 5 (fun t d => d.stepEntry (bit traffic c) c t) d) d else d

/-! ## OM2 windows (R169, R170) -/

/-- The window of an engine (R169): from the end of its vector in progress, or from the boundary at ECLK `base` where none is
in progress (DEDUCED, log 26), every later start at the ball and every later fetch and decision time is delayed by 512 ECLK. -/
def Engine.window (e : Engine) (base : Nat) : Engine :=
  let s := max e.vecEnd base
  let shift (x : Decision) : Decision := if s ≤ x.arrives then { x with arrives := x.arrives + 512 } else x
  let later (c : Cand) : Cand := if s ≤ (c.time / 64).toNat + 15 then { c with time := c.time + 64 * 512 } else c
  let e : Engine := { e with
    winAt := some s
    late := some s
    vecEnd := s + 512
    flight := e.flight.map fun v => { v with start := v.start + 512 }
    decisions := e.decisions.map shift
    lastVec := match e.lastVec with
      | .made cs => .made (cs.map later)
      | .none => .none }
  e.cross e.issueAt

/-- E of a channel whose CAL_WINZ bit is 1 falls at the window's start and returns 32 LSB before its end. -/
def Channel.windowE (x : Channel) (s : Nat) : Channel :=
  if x.e then { x with lastE := some (64 * (s + 512) - 32 : Int) } else x

/-- Engine `n` takes its window. -/
def Dev.takeWindow (d : Dev) (n : Nat) : Dev :=
  if (d.engine n).st ≠ .run then d
  else
    let d := d.updEngine n fun e => e.window d.time.base
    let s := (d.engine n).winAt.getD 0
    (d.driven n).foldl (fun d c => if bit d.cal.winz c then d.updChannel c fun x => x.windowE s else d) d

/-- The reset value of the OM2 record of a channel. -/
def om2Reset (_ : Nat) : OM2Chan := {}

/-- Judge the interval that ends for one channel (R170). -/
def Dev.judgeInterval (d : Dev) (c : Nat) : Dev :=
  let x := Store.get om2Reset d.cal.om2 c
  if x.throughout && d.inTraffic c && !x.brz then
    ({ d with cal := { d.cal with miss := setBit d.cal.miss c } }).calEvent (c / 4) .timeout 2 c 0xFF
  else d

/-- A new interval of CAL_OM2_CFG.INTV begins (R170). -/
def Dev.newInterval (d : Dev) : Dev :=
  let fresh := (List.range 64).foldl (fun m c =>
    Store.put om2Reset m c { throughout := d.inTraffic c, brz := false }) ([] : Store OM2Chan)
  { d with cal := { d.cal with winDue := none, intvFull := true, om2 := fresh } }

/-- OM2_WINDOW: every engine that was in RUN in step 2 takes its window (R169), and a new interval begins. -/
def Dev.om2Window (d : Dev) : Dev :=
  match d.cal.winDue with
  | none => d
  | some run => if !d.cal.steal then d else (bitsOf run).foldl Dev.takeWindow d.newInterval

/-- WINDOW_CHECK: the check of the interval that ends, and a new interval begins (R170). -/
def Dev.windowCheck (d : Dev) : Dev :=
  match d.cal.winDue with
  | none => d
  | some _ =>
    if d.cal.steal then d
    else (if d.cal.intvFull then times 64 (fun c d => d.judgeInterval c) d else d).newInterval

/-! ## The hold-off of a ramp (R53, R167) -/

/-- A ramp starts. -/
def Dev.beginHoldoff (d : Dev) : Dev := { d.discardAll with cal := { d.discardAll.cal with holdoff := true } }

/-- HOLDOFF_END: 4,096 beats after the ramp's end each rescaled correction is written into CORR and TARGET. -/
def Dev.holdoffEnd (d : Dev) : Dev :=
  if !d.cal.holdoff || d.time.rampActive || d.time.holdoff ≠ 0 then d
  else
    let d := times 64 (fun c d => times 5 (fun t d =>
      let v := fit12 (d.effCorr c t)
      d.updCorr c t fun e => { e with corr := v, target := v, mvalid := false }) d) d
    { d with cal := { d.cal with holdoff := false, refPer := d.time.period } }

/-! ## Beats -/

/-- What Breeze does at a beat boundary before the committed actions: what is still due from the last boundary, and the
step counter (R161), the OM2 record (R170) and the cancelled steps (R36) start anew. -/
def Dev.breezeBeat (d : Dev) : Dev :=
  let d := d.stepBoundary.om2Window.windowCheck.holdoffEnd
  let om2 := d.cal.om2.map fun e => (e.1, { e.2 with throughout := e.2.throughout && d.inTraffic e.1 })
  { d with cal := { d.cal with
      cancel := 0
      om2 := om2.filter fun e => e.2 ≠ om2Reset e.1
      stepcnt := if d.cal.counting then d.cal.stepcnt + 1 else d.cal.stepcnt } }

/-- The channels in traffic, and the engines in RUN. -/
def Dev.trafficMask (d : Dev) : DWord := ofBits 64 ((List.range 64).filter d.inTraffic)
/-- The engines in RUN. -/
def Dev.runMask (d : Dev) : DWord := ofBits 64 ((List.range 64).filter fun n => decide ((d.engine n).st = .run))

/-- Step 2 of R34: the steps of a wrapped counter and the OM2 window or its check fall due. -/
def Dev.breezeStep2 (d : Dev) : Dev :=
  let step := d.cal.counting && d.cal.stepcnt = 0
  let win := d.mode.mode == 2 && d.time.gci.toNat % d.cal.intv.toNat == 0
  { d with cal := { d.cal with
      stepDue := if step then some d.trafficMask else d.cal.stepDue
      winDue := if win then some d.runMask else d.cal.winDue } }

/-! ## Sweeps (R172) -/

/-- The quads of a channel mask. -/
def quadsOf (m : DWord) : List Nat := (List.range 16).filter fun q => (List.range 4).any fun k => bit m (4 * q + k)

/-- End a sweep: the swept channels return to their safe state, the event of each swept quad and the response; `ok` names the
channels measured in full. -/
def Dev.endSweep (d : Dev) (w : Sweep) (ok : DWord) : Dev :=
  let d := { d with cal := { d.cal with sweep := none } }
  let d := d.channelsSafe (bitsOf w.swept) (64 * d.now : Nat)
  let good (q : Nat) : Bool := (List.range 4).all fun k => !bit w.swept (4 * q + k) || bit ok (4 * q + k)
  let d := (quadsOf w.swept).foldl (fun d q => d.calEvent q (if good q then .ok else .aborted) 4 0xFF 0xFF) d
  d.answer? w.owner (if (quadsOf w.swept).all good then .ok else .aborted)

/-- The channels of a sweep whose five entries are all measured, by MEASUREMENT_DONE or in the list. -/
def Sweep.full (w : Sweep) (rs : List SweepRes) : DWord :=
  ofBits 64 ((bitsOf w.swept).filter fun c =>
    (List.range 5).all fun t => w.got.contains (5 * c + t) || rs.any fun r => r.ch.val == c && r.typ.val == t)

/-- A sweep is cut short by SAFE_N, a mode change or the loss of a domain: what is measured so far stays (R172). -/
def Dev.abortSweep (d : Dev) : Dev :=
  match d.cal.sweep with
  | some w => d.endSweep w 0
  | none => d

/-- A sweep of the enabled channels starts (R62, R172): their calibration edges take them out of their safe state, every other
channel stays in it; under SAFE_N it is cut at once. -/
def Dev.startSweep (d : Dev) (o : Option Owner) : Dev :=
  let w : Sweep := { swept := d.cal.sweepEn, owner := o }
  let d := { d with cal := { d.cal with sweep := some w } }
  if d.pin.safeN then d.abortSweep
  else (bitsOf w.swept).foldl (fun d c => d.updChannel c fun x => { x with inSafe := false }) d

/-- SWEEP_REPEAT: the sweep that OM0 repeats every 1 ms (Table 7-4), but not while Breeze rests (R53). -/
def sweepRepeat (d : Dev) : Dev :=
  if d.mode.mode = 0 && d.cal.sweep.isNone && d.cal.sweepEn ≠ 0 && !d.cal.holdoff then d.startSweep none else d

/-- A CAL_BULK staged in an open transaction holds a channel of the mask (R220). -/
def Dev.bulkStaged (d : Dev) (m : DWord) : Bool :=
  d.openActs.any fun
    | .calBulk k => k &&& m != 0
    | _ => false

/-- CAL_SWEEP (R172): BUSY while a sweep runs, and while a staged CAL_BULK holds a channel that it would sweep (R220). -/
def calSweep (o : Owner) (d : Dev) : Dev :=
  if d.cal.sweep.isSome || d.bulkStaged d.cal.sweepEn then d.answer o .busy else d.startSweep (some o)

/-- SWEEP_DONE: the sweep in progress ends with what it measured (R172), besides what MEASUREMENT_DONE gave; a channel with an
entry that was not measured ends ABORTED (R464). While Breeze rests it measures nothing and does not end (R53; DEDUCED, log 27). -/
def sweepDone (res : List SweepRes) (d : Dev) : Dev :=
  match d.cal.sweep with
  | none => d
  | some w =>
    if d.cal.holdoff then d
    else
      let rs := res.filter fun r => bit w.swept r.ch
      let d := rs.foldl (fun d r => d.updCorr r.ch r.typ fun e =>
        let v := fit12 (e.corr - r.err)
        { e with corr := v, target := v, oor := false, mvalid := true }) d
      d.endSweep w (w.full rs)

/-! ## Register writes (R174) -/

/-- Set CAL_STAT.WERR. -/
def Dev.calWerr (d : Dev) : Dev := { d with cal := { d.cal with werr := true } }

/-- A write to CAL_CORR(c, t). -/
def calCorrWrite (c t : Nat) (w : Word) (d : Dev) : Dev :=
  if d.inTraffic c || d.cal.sweep.isSome || d.bulkStaged (setBit 0 c) then d.calWerr
  else
    let v := (BitVec.ofNat 12 w.toNat).toInt
    d.updCorr c t fun e => { e with corr := v, target := v, oor := false, mvalid := false }

/-- A write to CAL_MODECFGm. -/
def calModecfgWrite (m : Nat) (w : Word) (d : Dev) : Dev :=
  let orl := fld w 0 4
  if orl = 0 || 8 < orl || fld w 6 26 ≠ 0 then d.calWerr
  else { d with cal := { d.cal with
    modeCfg := Store.put modeCfgReset d.cal.modeCfg m { stepEn := bit w 5, measEn := bit w 4, orl := orl } } }

/-- A write to CAL_OM2_CFG (Table 7-10). -/
def calOm2Write (w : Word) (d : Dev) : Dev :=
  if fld w 0 24 < 1024 then d.calWerr
  else { d with cal := { d.cal with steal := bit w 31, intv := BitVec.ofNat 24 w.toNat } }

/-! ## Timing set registers (R133, R134, R148) -/

/-- Set TIM_STAT.WERR. -/
def Dev.timWerr (d : Dev) (c : Nat) : Dev := d.updChannel c fun x => { x with werr := true }

/-- A write or swap of set `k` of channel `c` is staged in an open transaction. -/
def Dev.setStaged (d : Dev) (c k : Nat) : Bool :=
  d.openActs.any fun
    | .tsWrite set ch _ => set == k && ch == c
    | .tsSwap set ch => set == k && ch == c
    | _ => false
/-- A channel configuration write of channel `c` is staged in an open transaction. -/
def Dev.cfgStaged (d : Dev) (c : Nat) : Bool :=
  d.openActs.any fun
    | .chCfg ch _ _ => ch == c
    | _ => false

/-- A write to word `j` of the shadow copy of set `k`. -/
def timShadowWrite (c k j : Nat) (w : Word) (d : Dev) : Dev :=
  if d.setStaged c k then d.timWerr c
  else d.updChannel c fun x =>
    let old := (x.shadow k).toNat
    let new := BitVec.ofNat 128 (old - nfld old (32 * j) 32 * 2 ^ (32 * j) + w.toNat * 2 ^ (32 * j))
    { (x.touch k) with
      shd := Store.put tsReset x.shd k new
      svalid := clrBit x.svalid k }

/-- A write to TIM_TSCHK: the shadow copy is judged as it stands. -/
def timTschkWrite (c : Nat) (w : Word) (d : Dev) : Dev :=
  let x := d.channel c
  if x.check.isSome then d.timWerr c
  else
    let k := fld w 0 6
    let st := match tsCheck (x.shadow k) with
      | .ok => if tsDnrz (x.shadow k) && d.dnrzDenied then .modeDenied else .ok
      | st => st
    d.setChannel c { x with check := some { set := k, status := st } }

/-- TSCHK_DONE: the validation in progress on channel `c` completes. -/
def tschkDone (c : Nat) (d : Dev) : Dev :=
  d.updChannel c fun x =>
    match x.check with
    | none => x
    | some v =>
      { x with
        check := none
        vstatus := v.status
        vset := v.set
        svalid := if v.status = .ok && !v.dirty then setBit x.svalid v.set else clrBit x.svalid v.set }

/-- A write to TIM_SWAP_LO or TIM_SWAP_HI. -/
def timSwapWrite (c : Nat) (hi : Bool) (w : Word) (d : Dev) : Dev :=
  let x := d.channel c
  let ks := (bitsOf w).map (· + if hi then 32 else 0)
  if (d.engine (d.driver c)).st.moving || ks.any (d.setStaged c) then d.timWerr c
  else if ks.any fun k => !bit x.svalid k then d.setChannel c { x with werr := true, vstatus := .badOperand }
  else if d.dnrzDenied && ks.any (fun k => tsDnrz (x.shadow k)) then
    d.setChannel c { x with werr := true, vstatus := .modeDenied }
  else d.setChannel c (ks.foldl Channel.swap x)

/-- A write to TIM_CHCFG (R148, Table 6-14). -/
def timChcfgWrite (c : Nat) (w : Word) (d : Dev) : Dev :=
  let slew := BitVec.ofNat 2 (fld w 2 2)
  let swing := bit w 1
  let x := d.channel c
  let d := d.setChannel c { x with chSafe := BitVec.ofNat 2 (fld w 4 2), smask := bit w 0 }
  if x.slew = slew && x.swing == swing then d
  else if !(d.engine (d.driver c)).st.halted || d.cfgStaged c then d.timWerr c
  else d.setSlew c slew swing

/-! ## The meanings -/

/-- BREEZE_SAMPLE of channel `c`: what Breeze does in one of its slots; `ok`: the TDC passed its reference check. -/
def execBreezeSample (c : Fin 64) (x : Sample) (ok : Bool) (s : State) : Host.Outcome State Fault Refusal :=
  s.onDev fun _ d => breezeSample c x ok d
/-- ARM_LAPSE of the TDC of quad `q`. -/
def execArmLapse (q : Fin 16) (s : State) : Host.Outcome State Fault Refusal := s.onDev fun _ d => armLapse q d
/-- MEASUREMENT_DONE of entry `t` of channel `c`. -/
def execMeasurementDone (c : Fin 64) (t : Fin 5) (s : State) : Host.Outcome State Fault Refusal :=
  s.onDev fun _ d => measurementDone c t d
/-- WINDOW_CHECK. -/
def execWindowCheck (s : State) : Host.Outcome State Fault Refusal := s.onDev fun _ d => d.windowCheck
/-- HOLDOFF_END. -/
def execHoldoffEnd (s : State) : Host.Outcome State Fault Refusal := s.onDev fun _ d => d.holdoffEnd
/-- SWEEP_REPEAT. -/
def execSweepRepeat (s : State) : Host.Outcome State Fault Refusal := s.onDev fun _ d => sweepRepeat d
/-- CAL_SWEEP. -/
def execCalSweep (c : Tci) (s : State) : Host.Outcome State Fault Refusal := s.onDev (runTci 0x30 c calSweep)
/-- SWEEP_DONE with what the sweep measured. -/
def execSweepDone (res : List SweepRes) (s : State) : Host.Outcome State Fault Refusal := s.onDev fun _ d => sweepDone res d
/-- CAL_CORR_WRITE. -/
def execCalCorrWrite (c : Fin 64) (t : Fin 5) (w : Word) (s : State) : Host.Outcome State Fault Refusal :=
  s.onDev fun _ d => calCorrWrite c t w d
/-- CAL_MODECFG_WRITE. -/
def execCalModecfgWrite (m : Fin 8) (w : Word) (s : State) : Host.Outcome State Fault Refusal :=
  s.onDev fun _ d => calModecfgWrite m w d
/-- TIM_SHADOW_WRITE: word `j` of the shadow copy of set `k` of channel `c`. -/
def execTimShadowWrite (c k : Fin 64) (j : Fin 4) (w : Word) (s : State) : Host.Outcome State Fault Refusal :=
  s.onDev fun _ d => d.timWrite c (0x800 + 16 * k.val + 4 * j.val) w (timShadowWrite c k j w)
/-- TIM_TSCHK_WRITE. -/
def execTimTschkWrite (c : Fin 64) (w : Word) (s : State) : Host.Outcome State Fault Refusal :=
  s.onDev fun _ d => d.timWrite c 0x18 w (timTschkWrite c w)
/-- TSCHK_DONE. -/
def execTschkDone (c : Fin 64) (s : State) : Host.Outcome State Fault Refusal := s.onDev fun _ d => tschkDone c d
/-- TIM_SWAP_WRITE: TIM_SWAP_HI where `hi`, TIM_SWAP_LO otherwise. -/
def execTimSwapWrite (c : Fin 64) (hi : Bool) (w : Word) (s : State) : Host.Outcome State Fault Refusal :=
  s.onDev fun _ d => d.timWrite c (0x10 + 4 * b2n hi) w (timSwapWrite c hi w)
/-- TIM_CHCFG_WRITE. -/
def execTimChcfgWrite (c : Fin 64) (w : Word) (s : State) : Host.Outcome State Fault Refusal :=
  s.onDev fun _ d => d.timWrite c 0 w (timChcfgWrite c w)

end Sys2Proof.Machine
end

