-- ==== Sys2Proof/Machine/Partners.lean ====
section
/-! DEFINITION. Pin-electronics partners and their descriptors, the factory calibration row, vector memory and the stream
unit (22_partners_and_memory.md). -/

namespace Sys2Proof.Machine

/-! ## Descriptors (R459) -/

/-- Word `i` of a descriptor. -/
def descWord (l : List Byte) (i : Nat) : Word := word (ofLeBytes ((l.drop (4 * i)).take 4))
/-- LEN. -/
def descLen (l : List Byte) : Nat := fld (descWord l 1) 16 16
/-- Channels served, as a list. -/
def descChannels (l : List Byte) : List Nat :=
  (List.range (fld (descWord l 2) 0 6 + 1)).map (fld (descWord l 1) 0 6 + ·)
/-- The descriptor is valid. -/
def descOk (l : List Byte) : Bool :=
  let n := fld (descWord l 2) 0 6 + 1
  let len := descLen l
  descWord l 0 == 0x31525450#32 && fld (descWord l 1) 12 4 == 1 && fld (descWord l 1) 6 2 == 0 && decide (n ≤ 32) &&
    len == 36 + 16 * n && decide (len ≤ l.length) && decide (fld (descWord l 1) 0 6 + n ≤ 64) &&
    fld (descWord l 2) 6 26 == 0 && ([4, 5, 6, 7].all fun i => descWord l i == 0) &&
    ((List.range n).all fun k => fld (descWord l (10 + 4 * k)) 16 16 == 0 && descWord l (11 + 4 * k) == 0) &&
    descWord l (8 + 4 * n) == crc32c (l.take (len - 4))
/-- The delay of channel `c`, edge type `t`, in quarter picoseconds; zero for a channel that it does not serve. -/
def descDelay (l : List Byte) (c t : Nat) : Int :=
  let first := fld (descWord l 1) 0 6
  if (descChannels l).contains c then sgn 16 (fld (descWord l (8 + 4 * (c - first) + t / 2)) (16 * (t % 2)) 16) else 0
/-- DIGEST: bits [31:0] of the SHA-256 of the LEN bytes (R460). -/
def descDigest (l : List Byte) : Word := word (sha256n (l.take (descLen l))).toNat

/-! ## The partner table (R458 to R463) -/

/-- The reset value of an entry. -/
def ptrReset (_ : Nat) : PtrEnt := {}
/-- Partner table entry `i`. -/
def Dev.ptrEnt (d : Dev) (i : Nat) : PtrEnt := Store.get ptrReset d.ptr.ent i
/-- Make entry `i` be `x`. -/
def Dev.setPtr (d : Dev) (i : Nat) (x : PtrEnt) : Dev :=
  { d with ptr := { d.ptr with ent := Store.put ptrReset d.ptr.ent i x } }

/-- The entry in force for channel `c`. -/
def Dev.inForce (d : Dev) (c : Nat) : Option Nat := Store.get (fun _ => (none : Option Nat)) d.ptr.force c
/-- The partner delay of a channel and an edge type, in quarter picoseconds (R461). -/
def Dev.partnerDelay (d : Dev) (c t : Nat) : Int :=
  match d.inForce c with
  | none => 0
  | some i =>
    let e := d.ptrEnt i
    if e.st = 1 || e.st = 4 || e.st = 5 then descDelay e.desc c t else 0

/-- A valid descriptor claims a channel that another PRESENT or HOST entry serves. -/
def Dev.claimed (d : Dev) (i : Nat) (l : List Byte) : Bool :=
  (List.range 64).any fun j =>
    let e := d.ptrEnt j
    j != i && (e.st == 1 || e.st == 5) && (descChannels e.desc).any fun c => (descChannels l).contains c

/-- Bytes as whole code words, the rest erased. -/
def codeWords (l : List Byte) : List QWord :=
  (pieces 16 (l.length / 16 + 1) l).map fun p => BitVec.ofNat 128 (ofLeBytes (p ++ List.replicate (16 - p.length) 0xFF))
/-- The partner data block of entry `i` (Table 18-1) keeps the descriptor. -/
def Dev.storeDesc (d : Dev) (i : Nat) (l : List Byte) : Dev :=
  let blk := 546 + i
  let old := (d.nvBytes 1 (65536 * blk) 1024).2.2
  if !d.domOn pdNvs || (descOk old && decide (descDigest old = descDigest l)) then d
  else
    let ws := codeWords (l.take (descLen l))
    (List.range ws.length).foldl (fun d k => (d.nvPut (blkWords * blk + k) (ws.getD k 0) (.passed 0)).1) (d.nvErase blk true)

/-- An entry changes; the delays that change with it shift their corrections (R461, R159). -/
def Dev.changePtr (d : Dev) (i : Nat) (x : PtrEnt) : Dev :=
  let old := fun c t => d.partnerDelay c t
  let d := d.setPtr i x
  let d := if x.st = 1 || x.st = 5 then
      let force := (descChannels x.desc).foldl (fun f c => Store.put (fun _ => none) f c (some i)) d.ptr.force
      ({ d with ptr := { d.ptr with force := force } }).storeDesc i x.desc
    else d
  times 64 (fun c d => times 5 (fun t d => d.partnerShift c t (d.partnerDelay c t - old c t)) d) d

/-- A target has answered at index `i` and its descriptor has been read. An entry that host software described keeps its
descriptor where the target has no valid one of its own (DEDUCED, log 44). -/
def Dev.found (d : Dev) (i : Nat) (t : BusTarget) : Dev :=
  let was := d.ptrEnt i
  let addr : BitVec 7 := match t.legacy with
    | some a => BitVec.ofNat 7 (0x50 + a.val)
    | none => BitVec.ofNat 7 (0x10 + i)
  let x : PtrEnt := { legacy := t.legacy.isSome, bus := t.bus, daddr := addr, pid := t.pid }
  if descOk t.desc then
    let l := t.desc.take (descLen t.desc)
    d.changePtr i { x with st := if d.claimed i l then 3 else 1, desc := l, digest := descDigest l }
  else if was.st = 5 then d.changePtr i { x with st := 5, desc := was.desc, digest := was.digest }
  else d.changePtr i { x with st := 2 }

/-- The index of a target: the one that last held its identity, or else the lowest EMPTY one. -/
def Dev.indexOf (d : Dev) (t : BusTarget) : Option Nat :=
  let held (i : Nat) : Bool :=
    let e := d.ptrEnt i
    e.st != 0 && match t.legacy with
      | some a => e.legacy && e.bus == t.bus && e.daddr == BitVec.ofNat 7 (0x50 + a.val)
      | none => !e.legacy && e.pid == t.pid && e.daddr != 0
  match (List.range 64).find? held with
  | some i => some i
  | none => (List.range 64).find? fun i => (d.ptrEnt i).st == 0

/-- A target that answers is placed; none free: PTR_STAT.FULL. -/
def Dev.place (d : Dev) (t : BusTarget) : Dev × Option Nat :=
  match d.indexOf t with
  | some i => (d.found i t, some i)
  | none => ({ d with ptr := { d.ptr with full := true } }, none)

/-- DISCOVERY on both buses: the targets that answer, in the order of their arbitration. Legacy targets are probed where
LEGACY is 1. -/
def discovery (ts : List BusTarget) (d : Dev) : Dev :=
  (ts.filter fun t => t.legacy.isNone || bit d.ptr.legacy (b2n t.bus)).foldl (fun d t => (d.place t).1) d

/-- One poll of entry `i` (R462). -/
def Dev.poll (d : Dev) (ans : DWord) (i : Nat) : Dev :=
  let e := d.ptrEnt i
  if !(e.st = 1 || e.st = 2 || e.st = 3) then d
  else if bit ans i then d.setPtr i { e with missed := 0 }
  else if e.missed = 0 then d.setPtr i { e with missed := 1 }
  else (d.changePtr i { e with st := 4, missed := 0 }).fire 250 (payload .notPresent 2 i)
/-- GETSTATUS_POLL: bit i of `ans` says that entry i answers. -/
def getstatusPoll (ans : DWord) (d : Dev) : Dev := times 64 (fun i d => d.poll ans i) d

/-- HOT_JOIN. -/
def hotJoin (t : BusTarget) (d : Dev) : Dev :=
  let r := d.place t
  match r.2 with
  | some i => r.1.fire 250 (payload .ok 1 i)
  | none => r.1

/-- PRES_N_CHANGE of input `s`: a rising edge polls the entries of the slot; a falling edge starts discovery, which the
DISCOVERY that follows carries out. -/
def presChange (s : Nat) (level : Bool) (ans : DWord) (d : Dev) : Dev :=
  let was := bit d.pin.presN s
  let d := { d with pin := { d.pin with presN := putBit d.pin.presN s level } }
  if level && !was then
    times 64 (fun i d =>
      let w := descWord (d.ptrEnt i).desc 1
      if bit w 10 && fld w 8 2 == s then d.poll ans i else d) d
  else d

/-- A GO write to PTR_HDCTL (R463, R477). -/
def hdctlWrite (w : Word) (d : Dev) : Dev :=
  if !bit w 31 then { d with ptr := { d.ptr with hdIndex := fld w 0 6 } }
  else if d.ptr.hdBusy || 63 < fld w 0 8 then { d with ptr := { d.ptr with werr := true } }
  else { d with ptr := { d.ptr with hdIndex := fld w 0 6, hdBusy := true } }

/-- The bytes of PTR_HDESC. -/
def Dev.hdescBytes (d : Dev) : List Byte := Store.getList (fun _ => 0) d.ptr.hdesc 0 576
/-- HDESC_CHECK_DONE. -/
def hdescCheckDone (d : Dev) : Dev :=
  if !d.ptr.hdBusy then d
  else
    let i := d.ptr.hdIndex
    let l := d.hdescBytes.take (descLen d.hdescBytes)
    let e := d.ptrEnt i
    let st : Status := if !descOk l then .badOperand else if d.claimed i l then .refused else if e.st = 0 then .notPresent else .ok
    let d := { d with ptr := { d.ptr with hdBusy := false, hdStatus := st } }
    if st = .ok then d.changePtr i { e with st := 5, desc := l, digest := descDigest l } else d

/-! ## The factory calibration row (R465) -/

/-- Bytes of the row as every path shows them. -/
def Dev.rowBytes (d : Dev) (otp : Otp) (a n : Nat) : List Byte := (List.range n).map fun i => d.rowByte otp (a + i)
/-- MAGIC, UID and CRC match. -/
def Dev.rowOk (d : Dev) (otp : Otp) : Bool :=
  ofLeBytes (d.rowBytes otp 0 4) == 0x574F5243 && ofLeBytes (d.rowBytes otp 8 8) == d.byt.uid.toNat &&
    ofLeBytes (d.rowBytes otp 0xFFC 4) == (crc32c (d.rowBytes otp 0 0xFFC)).toNat
/-- The factory delay of a channel and an edge type, in quarter picoseconds. -/
def Dev.factoryDelay (d : Dev) (otp : Otp) (c t : Nat) : Int :=
  if d.ptr.calRowBad then 0 else sgn 16 (ofLeBytes (d.rowBytes otp (0x40 + 10 * c + 2 * t) 2))

/-- At power-on the row is judged, and every partner data block that holds a valid descriptor loads its entry as LOST, its
delays in force (R460, R465). -/
def Dev.ptrPowerOn (d : Dev) (otp : Otp) : Dev :=
  let d := { d with ptr := { calRowBad := !d.rowOk otp } }
  times 64 (fun i d =>
    let l := (d.nvBytes 1 (65536 * (546 + i)) 1024).2.2
    if descOk l then
      let l := l.take (descLen l)
      let d := d.setPtr i { st := 4, desc := l, digest := descDigest l }
      { d with ptr := { d.ptr with
        force := (descChannels l).foldl (fun f c => Store.put (fun _ => none) f c (some i)) d.ptr.force } }
    else d) d

/-! ## Vector memory (R466 to R470, R478) -/

/-- The capacity in bytes. -/
def Dev.vmiBytes (d : Dev) : Nat := d.vmi.cap * 2 ^ 30
/-- Training starts; a wipe follows it at a release of RESET_N and at a restore from Off. -/
def Dev.startTraining (d : Dev) (wipe : Bool) : Dev :=
  { d with vmi := { d.vmi with training := true, wiping := false, ready := false, chFail := 0, wipeDue := wipe } }
/-- TRAINING_DONE: bit k of `ok` says that channel k trained; `cap` is the capacity in GiB that MR8 gives. -/
def trainingDone (ok : BitVec 4) (cap : Nat) (d : Dev) : Dev :=
  if !d.vmi.training then d
  else
    let good := ok == 15
    { d with vmi := { d.vmi with
      training := false
      chFail := ~~~ok
      cap := min cap 16
      wiping := good && d.vmi.wipeDue
      ready := good && !d.vmi.wipeDue
      wipeDue := false } }
/-- WIPE_DONE: every selected segment, 1/64 of the capacity, reads zero. -/
def wipeDone (d : Dev) : Dev :=
  if !d.vmi.wiping then d
  else
    let seg := d.vmiBytes / 64
    { d with vmi := { d.vmi with
      wiping := false
      ready := true
      mem := Store.clear d.vmi.mem fun a => bit d.vmi.wipe (a / max 1 seg) } }
/-- REFRESH of channel `k`. -/
def refresh (k : Nat) (d : Dev) : Dev :=
  { d with vmi := { d.vmi with refreshed := Store.upd (fun _ => 0) d.vmi.refreshed k (· + 1) } }

/-- A stream is armed, or a refill or a load reads vector memory (R478). -/
def Dev.vmiInUse (d : Dev) : Bool :=
  (List.range 64).any (fun n => (d.stream n).left != 0 ||
    match (d.engine n).refill with
    | some r => !r.fromNv
    | none => false) ||
  match d.cfg.load with
  | some l => l.src == 2 && decide (l.pass ≤ 2)
  | none => false
/-- A write to VMI_CFG. -/
def vmiCfgWrite (w : Word) (d : Dev) : Dev :=
  if d.vmiInUse || fld w 0 3 = 7 then { d with vmi := { d.vmi with werr := true } }
  else
    let d := { d with vmi := { d.vmi with ranks2 := bit w 3, rate := BitVec.ofNat 3 w.toNat } }
    if bit w 31 then d.startTraining false else d
/-- A write to VMI_WPAGE. -/
def vmiWpageWrite (w : Word) (d : Dev) : Dev := { d with vmi := { d.vmi with wpage := BitVec.ofNat 5 w.toNat } }

/-- A failed access is recorded in VMI_ERR. -/
def Dev.vmiErr (d : Dev) (st : Status) : Dev :=
  { d with vmi := { d.vmi with errStatus := st, errCount := satAdd 0xFFFFFF d.vmi.errCount 1 } }
/-- How an access of `n` bytes at a vector address is answered. -/
def Dev.vmiStatus (d : Dev) (a n : Nat) : Status :=
  if d.vmi.training || d.vmi.wiping then .fenced
  else if d.vmi.chFail ≠ 0 then .mediaError
  else if d.vmiBytes < a + n then .noRoute
  else .ok

/-! ## The stream unit (R471, R472) -/

/-- ENG_STREAM. -/
def engStream (c : Tci) (o : Owner) (d : Dev) : Dev :=
  let n := fld (c.w 1) 0 6
  let a := (c.w64 2).toNat
  let len := (c.w 4).toNat
  let e := d.engine n
  if c.w 1 ≠ word n || len = 0 || a % 64 ≠ 0 || e.st = .follower then d.answer o .badOperand
  else if d.vmiBytes < a + len then d.answer o .noRoute
  else if !d.domOn pdVmi || (d.domain pdVmi).closed || !d.vmi.ready then d.answer o .fenced
  else if !(e.st.halted || e.st = .wait) || (d.stream n).left ≠ 0 then d.answer o .busy
  else
    (d.updEngine n fun e => { e with fifo := [] }).updStream n fun _ => { next := a, left := len, owner := some o }

/-- STREAM_FETCH for engine `n`: 64 bytes, or what is left, go into its FIFO. -/
def streamFetch (n : Nat) (d : Dev) : Dev :=
  if !d.vmi.ready || !d.domOn pdVmi || decide (d.streamTurn ≠ some n) then d
  else
    let x := d.stream n
    let k := min 64 x.left
    let bytes := rdBytes d.vmi.mem x.next k
    let d := { d with vmi := { d.vmi with last := n } }
    let d := d.updEngine n fun e =>
      { e with fifo := e.fifo ++ bytes.flatMap fun b => [BitVec.ofNat 4 b.toNat, BitVec.ofNat 4 (b.toNat / 16)] }
    let d := d.updStream n fun x => { x with next := x.next + k, left := x.left - k, owner := if x.left = k then none else x.owner }
    if x.left = k then d.answer? x.owner .ok else d

/-! ## The meanings -/

/-- DISCOVERY. -/
def execDiscovery (ts : List BusTarget) (s : State) : Host.Outcome State Fault Refusal := s.onDev fun _ d => discovery ts d
/-- GETSTATUS_POLL. -/
def execGetstatusPoll (ans : DWord) (s : State) : Host.Outcome State Fault Refusal := s.onDev fun _ d => getstatusPoll ans d
/-- HOT_JOIN. -/
def execHotJoin (t : BusTarget) (s : State) : Host.Outcome State Fault Refusal := s.onDev fun _ d => hotJoin t d
/-- PRES_N_CHANGE. -/
def execPresNChange (i : Fin 4) (level : Bool) (ans : DWord) (s : State) : Host.Outcome State Fault Refusal :=
  s.onDev fun _ d => presChange i level ans d
/-- PTR_HDCTL_GO: a write to PTR_HDCTL. -/
def execPtrHdctlGo (w : Word) (s : State) : Host.Outcome State Fault Refusal := s.onDev fun _ d => hdctlWrite w d
/-- HDESC_CHECK_DONE. -/
def execHdescCheckDone (s : State) : Host.Outcome State Fault Refusal := s.onDev fun _ d => hdescCheckDone d
/-- TRAINING_DONE. -/
def execTrainingDone (ok : BitVec 4) (cap : Nat) (s : State) : Host.Outcome State Fault Refusal :=
  s.onDev fun _ d => trainingDone ok cap d
/-- WIPE_DONE. -/
def execWipeDone (s : State) : Host.Outcome State Fault Refusal := s.onDev fun _ d => wipeDone d
/-- REFRESH. -/
def execRefresh (k : Fin 4) (s : State) : Host.Outcome State Fault Refusal := s.onDev fun _ d => refresh k d
/-- VMI_CFG_TRAIN: a write to VMI_CFG with TRAIN set; RATE and RANKS2 are written with it. -/
def execVmiCfgTrain (w : Word) (s : State) : Host.Outcome State Fault Refusal :=
  s.onDev fun _ d => d.hostWrite pdVmi 0xD0004 (setBit w 31) (vmiCfgWrite (setBit w 31))
/-- VMI_CFG_WRITE. -/
def execVmiCfgWrite (w : Word) (s : State) : Host.Outcome State Fault Refusal :=
  s.onDev fun _ d => d.hostWrite pdVmi 0xD0004 w (vmiCfgWrite w)
/-- VMI_WPAGE_WRITE. -/
def execVmiWpageWrite (w : Word) (s : State) : Host.Outcome State Fault Refusal :=
  s.onDev fun _ d => d.hostWrite pdVmi 0xD0040 w (vmiWpageWrite w)
/-- ENG_STREAM. -/
def execEngStream (c : Tci) (s : State) : Host.Outcome State Fault Refusal := s.onDev (runTci 0x17 c (engStream c))

end Sys2Proof.Machine
end

