-- ==== Sys2Proof/Machine/Clock.lean ====
section
/-! DEFINITION. The six loops (16_clocking.md): lock, loss of lock, holdover and recovery, the FMAX guard, spread, the
multiplier, and the frequency ramps of 02_beat_and_gci.md. What a loop's detector or a band search finds is an operand. -/

namespace Sys2Proof.Machine

/-! ## Locks (R357 to R361, R68) -/

/-- The kind of loop `i` now (Table 16-1): 0 OFF, 1 PLL, 2 DLL. -/
def Dev.kind (d : Dev) (i : Nat) : Nat := loopKind d.mode.mode i

/-- When every TPLL that the mode uses is locked, SETTLED sets, what waits for it is answered (R68, R335), and on the root
ALIGNED sets for good (Table 2-3). -/
def Dev.trySettle (d : Dev) : Dev :=
  if !d.tpllsLocked then d
  else
    let os := d.clk.multOwners
    let d := { d with
      mode := { d.mode with settled := true }
      clk := { d.clk with multOwners := [] }
      byt := { d.byt with aligned := d.byt.aligned || decide (d.time.role = .root) } }
    os.foldl (fun d o => d.answer o .ok) d

/-- The first lock of TPLL `i` after reset seeds its channels and starts the step counter (R158, R161). -/
def Dev.seedTpll (d : Dev) (otp : Otp) (i : Nat) : Dev :=
  if 4 ≤ i || bit d.cal.seeded i then d
  else
    let d := { d with cal := { d.cal with seeded := setBit d.cal.seeded i, counting := true, refPer := d.time.period } }
    times 16 (fun k d =>
      let c := 16 * i + k
      times 5 (fun t d =>
        d.seedEntry c t (d.factoryDelay otp c t + d.partnerDelay c t + (d.channel c).delayIn d.mode.mode)) d) d

/-- The first band search after RESET_N measures every band, and the table stays (R358). -/
def Loop.measured (l : Loop) (table : List (BitVec 16)) : Loop :=
  if l.searched then l else { l with searched := true, bandTable := Store.putList (fun _ => 0) [] 0 (table.take 64) }

/-- Every window of a lock detector found at most `n` (R359, R360). -/
def within (n : Nat) (l : List (BitVec 8)) : Bool := l.all fun x => decide (x.toInt.natAbs ≤ n)

/-- LOCK: the detector of a PLL-kind loop declares lock with the band and control word that the search or the tracking
found; `d1` to `diff` are the count differences of its last four windows, oldest first, and the first band search fills the
band table (R358, R359, R369, R370). -/
def loopLock (i : Nat) (band : BitVec 6) (cw : BitVec 16) (d1 d2 d3 diff : BitVec 8) (table : List (BitVec 16)) (otp : Otp)
    (d : Dev) : Dev :=
  let l := d.loop i
  if d.kind i ≠ 1 || l.state = .locked || l.state = .holdover || !within 1 [d1, d2, d3, diff] then d
  else
    let d := d.setLoop i { (l.measured table) with state := .locked, band := band, cw := cw, diff := diff, everLocked := true }
    let d := if i < 4 then d.fire (116 + i) (payload .ok 1 band.toNat) else d.fire 124 (payload .ok 1 i)
    (d.seedTpll otp i).trySettle

/-- DLL_LOCK (R360): a DLL locks after TPLL0, with the phase errors of its last four windows. -/
def dllLock (i : Nat) (d1 d2 d3 diff : BitVec 8) (otp : Otp) (d : Dev) : Dev :=
  let l := d.loop i
  if d.kind i ≠ 2 || l.state = .locked || (d.loop 0).state ≠ .locked || !within 2 [d1, d2, d3, diff] then d
  else
    let d := d.setLoop i { l with state := .locked, diff := diff }
    ((d.fire (116 + i) (payload .ok 1 l.band.toNat)).seedTpll otp i).trySettle

/-- Loop `i` gates its output and locks again (R361): a PLL by a band search, a DLL by its own acquisition. -/
def Dev.relock (d : Dev) (i : Nat) : Dev :=
  let st : LoopSt := if d.kind i = 0 then .off else if d.kind i = 2 then .acquire else .search
  let d := d.updLoop i fun l => { l with state := st }
  if i < 4 then d.discardTpll i else d

/-- Every loop acquires lock afresh: after reset and after a life-cycle transition (R358, R361, R451). -/
def Dev.startLoops (d : Dev) : Dev := times 6 (fun i d => d.relock i) d

/-- What a change between modes does to the loops (Table 3-5, R68): the current mode is already the new one. -/
def Dev.modeLoops (d : Dev) (old : Nat) : Dev :=
  let m := d.mode.mode
  if !altersTpll old m then d
  else
    let d := { d with mode := { d.mode with settled := false } }
    let d := times 4 (fun i d => if loopKind old i = loopKind m i then d else d.relock i) d
    d.trySettle

/-! ## Loss of lock (R359, R360, R366 to R370) -/

/-- The moving engines of which TPLL `i` feeds a channel (Table 4-8). -/
def Dev.fedBy (d : Dev) (i : Nat) : List Nat :=
  (List.range 64).filter fun n => (d.engine n).st.moving && (d.driven n).any fun c => tpllOf c == i

/-- A stamp with HOLDOVER set (R368). -/
def Stamp.held (s : Stamp) : Stamp := { s with status := setBit s.status 3 }

/-- A self-test of the loops that runs is marked (20_self_test.md). -/
def Dev.markLockLoss (d : Dev) : Dev :=
  { d with bst := { d.bst with tests := d.bst.tests.map fun t => if t.running then { t with lockLost := true } else t } }

/-- Loop `i` enters holdover with a cause of Table 16-4 (R368). -/
def Dev.holdoverOf (d : Dev) (i cause : Nat) : Dev :=
  let d := d.updLoop i fun l => { l with state := .holdover, loss := true, cause := cause }
  let d := d.fireAt (if i < 4 then 112 + i else 118 + i) (payload .aborted 1 (256 * cause + i)) d.stamp.held
  let d := d.markLockLoss
  if i < 4 then (d.requestStops (d.fedBy i) 2 .async).discardTpll i else d

/-- Loop `i` loses lock: in OM2 a loss of TPLL0 takes the DLLs with it (R360, R368). -/
def Dev.loseLock (d : Dev) (i cause : Nat) : Dev :=
  let d := d.holdoverOf i cause
  if i = 0 && d.mode.mode = 2 then [1, 2, 3].foldl (fun d k => d.holdoverOf k cause) d else d

/-- LOCK_LOSS: the detector's finding, with the count difference or phase error of the last window; `cw` is the control word of
the last window with a difference of at most 1, at which a PLL-kind loop freezes (R359, R360, R368). -/
def lockLoss (i : Nat) (cause : LossCause) (diff : BitVec 8) (cw : BitVec 16) (d : Dev) : Dev :=
  let k := d.kind i
  if (d.loop i).state ≠ .locked then d
  else
    let n := diff.toInt.natAbs
    let frozen := d.updLoop i fun l => { l with diff := diff, cw := cw }
    match cause with
    | .difference => if k = 1 && decide (4 ≤ n) then frozen.loseLock i 1 else d
    | .noReference => if k = 1 then frozen.loseLock i 2 else d
    | .dllPhase => if k = 2 && decide (8 ≤ n) then (d.updLoop i fun l => { l with diff := diff }).loseLock i 4 else d

/-- BAND_FAIL: no lock within 200 µs of the search; the first search after reset has filled the band table all the same
(R358). -/
def bandFail (i : Nat) (table : List (BitVec 16)) (d : Dev) : Dev :=
  let l := d.loop i
  if d.kind i ≠ 1 || l.state = .locked || l.state = .holdover || l.state = .track then d
  else (d.setLoop i { (l.measured table) with bsFail := true, state := .search }).fire 120 (payload .timeout 1 i)

/-- HOLD_EXPIRED (R368). -/
def holdExpired (i : Nat) (d : Dev) : Dev :=
  if (d.loop i).state = .holdover then
    (d.updLoop i fun l => { l with holdExp := true }).fire 126 (payload .timeout 1 i)
  else d

/-- REFERENCE_RETURN: a loop in holdover tracks from its frozen control word (R369, R370); a DLL acquires again. -/
def referenceReturn (i : Nat) (d : Dev) : Dev :=
  if (d.loop i).state ≠ .holdover then d
  else d.updLoop i fun l => { l with state := if d.kind i = 2 then .acquire else .track }

/-- TRACK_TIMEOUT: a TPLL that tracks for 1 ms gates its output and searches; an SPLL goes on tracking (R369, R370). -/
def trackTimeout (i : Nat) (d : Dev) : Dev :=
  if i < 4 && decide ((d.loop i).state = .track) then d.relock i else d

/-- The loop gives its output (R361). -/
def LoopSt.open : LoopSt → Bool
  | .locked => true | .holdover => true | .track => true
  | .off => false | .search => false | .acquire => false

/-- FMAX_TRIP: the period checker suppresses an edge (R366, R367). -/
def fmaxTrip (i : Nat) (d : Dev) : Dev :=
  let l := d.loop i
  if !l.state.open then d
  else
    let tell := match l.fmaxAt with
      | none => true
      | some t => decide (t + d.beatsOf 1000000 ≤ d.time.ticks)
    let l' := { l with trips := satAdd 65535 l.trips 1, fmaxTrip := true, fmaxAt := if tell then some d.time.ticks else l.fmaxAt }
    let d := d.setLoop i l'
    let d := if tell then d.fire 121 (payload .refused 1 i) else d
    if i < 4 && decide (l.state ≠ .holdover) then d.loseLock i 3 else d

/-- A write to CLK_LOOP_GUARD (R372). -/
def loopGuardWrite (i : Nat) (w : Word) (d : Dev) : Dev :=
  let p := fld w 0 11
  let floor := (loopReset d.fuse.grade3 i).minper
  let fast := if i < 4 then decide (d.time.period.toNat < p * 1000 * d.time.mult)
    else if i = 4 then decide (2000000 < 3000 * p) else decide (4000000 < 3000 * p)
  d.updLoop i fun l =>
    if p < floor || (decide (l.state = .locked) && fast) then { l with werr := true } else { l with minper := p }

/-! ## Spread (R364, R365) -/

/-- The depth that the mode puts in force (R364). -/
def Dev.depth (d : Dev) : BitVec 4 := if d.mode.mode = 5 then 10 else if d.mode.mode = 2 then 0 else d.clk.spreadDepth
/-- One reference cycle of the modulator's LFSR, x^23 + x^18 + 1 (R364); its direction is a DESIGN CHOICE (log 22). -/
def lfsrNext (x : BitVec 23) : BitVec 23 := (x <<< 1) ||| BitVec.ofNat 23 (b2n (bit x 22 != bit x 17))
/-- SPREAD_APEX: a new depth applies, and the seed of an accepted TIM_SPREAD is loaded; the LFSR has run through the 3,200
reference cycles of the triangle. -/
def spreadApex (d : Dev) : Dev :=
  { d with clk := { d.clk with
      spreadEff := d.depth
      lfsr := if d.clk.spreadPend then d.clk.spreadSeed else times 3200 (fun _ x => lfsrNext x) d.clk.lfsr
      spreadPend := false } }
/-- TIM_SPREAD. -/
def timSpread (c : Tci) (o : Owner) (d : Dev) : Dev :=
  let depth := fld (c.w 1) 0 4
  let seed := fld (c.w 2) 0 23
  if 11 ≤ depth || seed = 0 then d.answer o .badOperand
  else
    let d := { d with clk := { d.clk with
      spreadDepth := BitVec.ofNat 4 depth, spreadSeed := BitVec.ofNat 23 seed, spreadPend := true } }
    d.answer o .ok

/-! ## The multiplier (R335) -/

/-- A ramp runs or is staged. -/
def Dev.rampBusy (d : Dev) : Bool :=
  d.time.rampActive || d.openActs.any fun a => match a with
    | .rampStart _ => true
    | _ => false

/-- TIM_SET_MULT. -/
def timSetMult (c : Tci) (o : Owner) (d : Dev) : Dev :=
  let n := fld (c.w 1) 0 5
  let per := d.time.period.toNat
  if n < 8 || 30 < n || !eclkLe n per (if d.fuse.grade3 then 3000000000 else 2400000000) then d.answer o .badOperand
  else if !d.eclkIn n d.mode.mode || (match d.pendMode with
      | some m => !d.eclkIn n m
      | none => false) then d.answer o .modeDenied
  else if !d.allHalted || d.rampBusy then d.answer o .busy
  else
    let d := { d with
      time := { d.time with mult := n }
      mode := { d.mode with settled := false }
      clk := { d.clk with multOwners := d.clk.multOwners ++ [o] } }
    times 4 (fun i d => if d.kind i = 0 then d else d.relock i) d

/-! ## Ramps (R47 to R53) -/

/-- Slot `s` is locked (R49). -/
def Dev.rampLocked (d : Dev) (s : Nat) : Bool :=
  (d.time.rampActive && d.time.rampSlot == s) || d.openActs.any fun a => match a with
    | .rampStart k => k == s
    | _ => false

/-- CLK_RAMP_STAT.WERR is set. -/
def Dev.rampWerr (d : Dev) : Dev := { d with time := { d.time with rampWerr := true } }

/-- CLK_RAMP_SEG_WRITE: a half of a segment word. -/
def rampSegWrite (s n : Nat) (hi : Bool) (w : Word) (d : Dev) : Dev :=
  if d.rampLocked s then d.rampWerr
  else
    let old := d.seg s n
    let new := if hi then dword (lo32 old) w else dword w (hi32 old)
    { d with time := { d.time with segs := Store.put segReset d.time.segs (16 * s + n) new } }

/-- A write to CLK_RAMP_STARTs. -/
def rampStartWrite (s : Nat) (w : Word) (d : Dev) : Dev :=
  if d.rampLocked s then d.rampWerr
  else if s = 0 then { d with time := { d.time with startHz0 := BitVec.ofNat 29 w.toNat } }
  else { d with time := { d.time with startHz1 := BitVec.ofNat 29 w.toNat } }

/-- The ramp of slot `s` starts (R50, R53). DEV tells of the last ramp, so a new one clears it (DESIGN CHOICE, log 56). -/
def Dev.startRamp (d : Dev) (s : Nat) : Dev :=
  let d := d.beginHoldoff
  { d with time := { d.time with
      rampActive := true, rampDev := false, rampSlot := s, rampSeg := 0, rampBeat := 0, holdoff := 0 } }

/-- The ramp ends, on its profile or off it (R48, R52): Breeze rests for 4,096 beats more (R53). -/
def Dev.endRamp (d : Dev) : Dev :=
  { d with time := { d.time with rampHz := d.profileNow, rampActive := false, rampBeat := 0, holdoff := 4096 } }

/-- RAMP_SEGMENT_END: the beats of the segment have run out. -/
def Dev.segmentEnd (d : Dev) : Dev :=
  let t := d.time
  let dur := segDur (d.seg t.rampSlot t.rampSeg) + 1
  if !t.rampActive || t.rampBeat < dur then d
  else if t.rampSeg = 15 || segKind (d.seg t.rampSlot (t.rampSeg + 1)) = 2 then d.endRamp
  else { d with time := { t with rampSeg := t.rampSeg + 1, rampBeat := t.rampBeat - dur } }

/-- The ramp generator moves a loop to the profile frequency `f` (R363): the matching control word, in the adjacent band with
the band table's measured difference where the profile leaves the present one. -/
def Loop.follow (i : Nat) (rising : Bool) (f : Nat × Nat) (l : Loop) : Loop :=
  let go (b : BitVec 6) (off : BitVec 16) : Loop := { l with band := b, cw := Config.rampWord i l.band.toNat f.1 f.2 + off }
  if Config.bandHolds i l.band.toNat f.1 f.2 then go l.band 0
  else
    let b := if rising then l.band + 1 else l.band - 1
    let m (k : BitVec 6) : BitVec 16 := Store.get (fun _ => 0) l.bandTable k.toNat
    go b (m b - m l.band)

/-- The ramp generator's write ahead of a beat into every locked PLL-kind TPLL (R363); `old` is the device at the last beat. -/
def Dev.rampSteer (old d : Dev) : Dev :=
  if !d.time.rampActive then d
  else
    let f := d.profileNow
    let g := old.profileNow
    let rising := decide (g.1 * f.2 ≤ f.1 * g.2)
    times 4 (fun i d =>
      if d.kind i = 1 && decide ((d.loop i).state = .locked) then d.updLoop i (Loop.follow i rising f) else d) d

/-- RAMP_DEV_CHECK: the beat period measured over the last 1,024 beats, in fs, against the profile (R52). -/
def rampDevCheck (meas : BitVec 24) (d : Dev) : Dev :=
  if !d.time.rampActive then d
  else
    let (num, den) := d.profileNow
    let want := 10 ^ 15 * den
    let got := meas.toNat * num
    if want < 200 * (max want got - min want got) then
      let seg := d.time.rampSeg
      let d := d.endRamp
      ({ d with time := { d.time with rampDev := true } }).fire 125 (payload .aborted 1 seg)
    else d

/-! ## Commands -/

/-- LOCK. -/
def execLock (i : Fin 6) (band : BitVec 6) (cw : BitVec 16) (d1 d2 d3 diff : BitVec 8) (table : List (BitVec 16))
    (s : State) : Host.Outcome State Fault Refusal := s.onDev (loopLock i band cw d1 d2 d3 diff table)
/-- DLL_LOCK. -/
def execDllLock (i : Fin 6) (d1 d2 d3 diff : BitVec 8) (s : State) : Host.Outcome State Fault Refusal :=
  s.onDev (dllLock i d1 d2 d3 diff)
/-- LOCK_LOSS. -/
def execLockLoss (i : Fin 6) (cause : LossCause) (diff : BitVec 8) (cw : BitVec 16) (s : State) :
    Host.Outcome State Fault Refusal := s.onDev fun _ d => lockLoss i cause diff cw d
/-- BAND_FAIL. -/
def execBandFail (i : Fin 6) (table : List (BitVec 16)) (s : State) : Host.Outcome State Fault Refusal :=
  s.onDev fun _ d => bandFail i table d
/-- HOLD_EXPIRED. -/
def execHoldExpired (i : Fin 6) (s : State) : Host.Outcome State Fault Refusal := s.onDev fun _ d => holdExpired i d
/-- REFERENCE_RETURN. -/
def execReferenceReturn (i : Fin 6) (s : State) : Host.Outcome State Fault Refusal := s.onDev fun _ d => referenceReturn i d
/-- TRACK_TIMEOUT. -/
def execTrackTimeout (i : Fin 6) (s : State) : Host.Outcome State Fault Refusal := s.onDev fun _ d => trackTimeout i d
/-- FMAX_TRIP. -/
def execFmaxTrip (i : Fin 6) (s : State) : Host.Outcome State Fault Refusal := s.onDev fun _ d => fmaxTrip i d
/-- SPREAD_APEX. -/
def execSpreadApex (s : State) : Host.Outcome State Fault Refusal := s.onDev fun _ d => spreadApex d
/-- TIM_SPREAD. -/
def execTimSpread (c : Tci) (s : State) : Host.Outcome State Fault Refusal := s.onDev (runTci 0x21 c (timSpread c))
/-- TIM_SET_MULT. -/
def execTimSetMult (c : Tci) (s : State) : Host.Outcome State Fault Refusal := s.onDev (runTci 0x20 c (timSetMult c))
/-- CLK_RAMP_SEG_WRITE. -/
def execClkRampSegWrite (k : Fin 2) (n : Fin 16) (hi : Bool) (v : Word) (s : State) : Host.Outcome State Fault Refusal :=
  s.onDev fun _ d => rampSegWrite k n hi v d
/-- RAMP_SEGMENT_END. -/
def execRampSegmentEnd (s : State) : Host.Outcome State Fault Refusal := s.onDev fun _ d => d.segmentEnd
/-- RAMP_DEV_CHECK. -/
def execRampDevCheck (meas : BitVec 24) (s : State) : Host.Outcome State Fault Refusal :=
  s.onDev fun _ d => rampDevCheck meas d

end Sys2Proof.Machine
end

