-- ==== Sys2Proof/Machine/Frame.lean ====
section
/-! DEFINITION. A Byith frame on the lanes (R239 to R241): its words, its blocks, the scrambler, and what a receiver drops.
A word's first byte is bits [7:0] (DEDUCED, log 55). -/

namespace Sys2Proof.Machine

/-! ## Types and codes (Tables 11-2 and 11-3) -/

/-- TYPE and MSG of a message. -/
def msgCode : ByMsg → Nat × Nat
  | .mark _ => (1, 0)
  | .prepare _ _ _ _ => (2, 1) | .vote _ _ _ _ => (2, 2) | .decision _ _ _ _ _ => (2, 3)
  | .hello _ _ _ _ _ => (3, 1) | .echoReq _ => (3, 2) | .echoRsp _ _ => (3, 3) | .joinReq _ _ _ _ => (3, 4)
  | .joinAck _ _ => (3, 5) | .joinRefuse _ _ => (3, 6) | .ready _ => (3, 7) | .notReady _ _ => (3, 8)
  | .leave _ => (3, 9) | .topo _ _ => (3, 10)
  | .summary _ => (4, 1) | .event _ => (4, 2)
  | .ack => (5, 0)

/-- TYPE of a message. -/
def msgType (m : ByMsg) : Nat := (msgCode m).1
/-- A frame of TYPE CTRL or DISC: the receiver acknowledges it (R242). -/
def msgAcked (m : ByMsg) : Bool := msgType m == 2 || msgType m == 3
/-- A frame of TYPE DISC. -/
def msgDisc (m : ByMsg) : Bool := msgType m == 3
/-- A HELLO. -/
def msgHello (m : ByMsg) : Bool := msgCode m == (3, 1)
/-- An ACK. -/
def msgAck (m : ByMsg) : Bool := msgType m == 5

/-- The order in which a port sends what waits: BEAT, ACK, CTRL, DISC, DATA (R243). -/
def msgRank (m : ByMsg) : Nat := match msgType m with | 1 => 0 | 5 => 1 | 2 => 2 | 3 => 3 | _ => 4

/-- DIR. -/
def dirCode : ByDir → Nat
  | .hop => 0 | .up => 1 | .down => 2 | .bcast => 3

/-! ## Words (R240, Tables 11-2, 11-4, 11-9 and 11-10) -/

/-- The payload of a BEAT frame (Table 11-4). -/
def markWords (m : Mark) : List DWord :=
  [BitVec.ofNat 64 (at' 56 m.epoch.toNat + flag 51 m.announce + flag 50 m.hold + flag 49 m.rld + flag 48 m.auto + m.gci.toNat),
   BitVec.ofNat 64 (at' 48 m.offset.toNat + (if m.rld then m.rldGci.toNat else 0)),
   BitVec.ofNat 64 (if m.rld then m.newGci.toNat else 0)]

/-- The payload words of a message, at most 15. Where the spec names the contents and no layout, they are free. -/
def payloadWords (m : ByMsg) : List DWord :=
  match m with
  | .mark k => markWords k
  | .summary w => [BitVec.ofNat 64 w.toNat, BitVec.ofNat 64 (w.toNat / 2 ^ 64)]
  | .event w => (List.range 4).map fun i => BitVec.ofNat 64 (w.toNat / 2 ^ (64 * i))
  | .ack => []
  | .prepare _ _ _ _ | .vote _ _ _ _ | .decision _ _ _ _ _ | .hello _ _ _ _ _ | .echoReq _ | .echoRsp _ _
  | .joinReq _ _ _ _ | .joinAck _ _ | .joinRefuse _ _ | .ready _ | .notReady _ _ | .leave _ | .topo _ _ =>
    (Config.framePayload m).take 15

/-- The header word (Table 11-2). -/
def frameHeader (f : Frame) : DWord :=
  let c := msgCode f.msg
  BitVec.ofNat 64 (at' 60 c.1 + at' 58 (dirCode f.dir) + at' 48 (if f.dir = .down then f.dst.toNat else 0) +
    at' 38 f.src.toNat + at' 34 (payloadWords f.msg).length + at' 24 f.seq.toNat + at' 16 c.2)

/-- The CRC word of a list of words (R240). -/
def crcWord (ws : List DWord) : DWord := BitVec.ofNat 64 (crc32c (ws.flatMap fun w => leBytes 8 w.toNat)).toNat

/-- The words of a frame: header, payload, CRC. -/
def frameWords (f : Frame) : List DWord :=
  let ws := frameHeader f :: payloadWords f.msg
  ws ++ [crcWord ws]

/-! ## Blocks and the scrambler (R239, R240) -/

/-- IDLE, ALIGN of a lane, and START (Table 11-1). -/
def idleBlock : DWord := 0x1E
/-- See `idleBlock`. -/
def alignBlock (lane : Bool) : DWord := BitVec.ofNat 64 (at' 56 (b2n lane) + 0x4B)
/-- See `idleBlock`. -/
def startBlock : DWord := 0x78

/-- Data blocks alternate between the lanes, from lane `l` on. -/
def dataBlocks : Bool → List DWord → List Block
  | _, [] => []
  | l, w :: r => { lane := l, sync := 1, bits := w } :: dataBlocks (!l) r

/-- The blocks of a frame: START on lane 0, then its words from lane 1 on (R240). -/
def frameBlocks (f : Frame) : List Block := { lane := false, sync := 2, bits := startBlock } :: dataBlocks true (frameWords f)

/-- One bit of the scrambler x^58 + x^39 + 1: `s` holds the last 58 line bits, the latest in bit 0. -/
def scrambleBit (s : BitVec 58) (b : Bool) : BitVec 58 × Bool :=
  let o := b ^^ s.getLsbD 38 ^^ s.getLsbD 57
  ((s <<< 1) ||| BitVec.ofNat 58 (b2n o), o)
/-- One bit of the descrambler. -/
def lineDescrambleBit (s : BitVec 58) (o : Bool) : BitVec 58 × Bool :=
  ((s <<< 1) ||| BitVec.ofNat 58 (b2n o), o ^^ s.getLsbD 38 ^^ s.getLsbD 57)

/-- Run a bit function over `n` bits of a word from bit `i` on, lowest first. -/
def runBits (f : BitVec 58 → Bool → BitVec 58 × Bool) (w : DWord) : Nat → Nat → BitVec 58 → BitVec 58 × Nat
  | 0, _, s => (s, 0)
  | n + 1, i, s =>
    let x := f s (w.getLsbD i)
    let r := runBits f w n (i + 1) x.1
    (r.1, r.2 + at' i (b2n x.2))

/-- A block as it stands on the line: the 64 payload bits scrambled, the sync header as it is (R239). The state holds the
last 58 line bits of each lane. -/
def codeBlock (f : BitVec 58 → Bool → BitVec 58 × Bool) (s : BitVec 58 × BitVec 58) (b : Block) :
    (BitVec 58 × BitVec 58) × Block :=
  let r := runBits f b.bits 64 0 (if b.lane then s.2 else s.1)
  (if b.lane then (s.1, r.1) else (r.1, s.2), { b with bits := BitVec.ofNat 64 r.2 })

/-- Code a list of blocks in the order of the line. -/
def codeBlocks (f : BitVec 58 → Bool → BitVec 58 × Bool) : BitVec 58 × BitVec 58 → List Block → List Block
  | _, [] => []
  | s, b :: r =>
    let x := codeBlock f s b
    x.2 :: codeBlocks f x.1 r

/-- Blocks as they leave on the line. -/
def lineScramble (s : BitVec 58 × BitVec 58) (l : List Block) : List Block := codeBlocks scrambleBit s l
/-- Blocks as a receiver reads them from the line. -/
def lineDescramble (s : BitVec 58 × BitVec 58) (l : List Block) : List Block := codeBlocks lineDescrambleBit s l

/-! ## What a receiver drops (R241) -/

/-- The words after a START pass the receiver's tests: CRC, TYPE, reserved fields and LEN. -/
def wordsOk : List DWord → Bool
  | [] => false
  | h :: r =>
    let n := r.length
    let t := fld h 60 4
    decide (1 ≤ n) && decide (n ≤ 16) && r.getD (n - 1) 0 == crcWord (h :: r.take (n - 1)) &&
      decide (1 ≤ t) && decide (t ≤ 5) && fld h 32 2 == 0 && fld h 0 16 == 0 && fld h 34 4 == n - 1

/-- What the receiver reads of a row of blocks: the frames it drops and the control blocks it ignores, from the words of an
open frame on. A frame ends at the next START or IDLE, or where the row ends. -/
def readBlocks : Option (List DWord) → List Block → Nat × Nat
  | o, [] => (match o with | some ws => b2n (!wordsOk ws.reverse) | none => 0, 0)
  | o, b :: r =>
    let ended := match o with | some ws => b2n (!wordsOk ws.reverse) | none => 0
    if b.sync = 1 then readBlocks (o.map (b.bits :: ·)) r
    else if b.sync = 2 then
      match fld b.bits 0 8 with
      | 0x1E => let x := readBlocks none r; (x.1 + ended, x.2)
      | 0x78 => let x := readBlocks (some []) r; (x.1 + ended, x.2)
      | 0x4B => readBlocks o r
      | _ => let x := readBlocks o r; (x.1, x.2 + 1)
    else readBlocks o r

/-- The frames dropped and the control blocks ignored in what a port receives. -/
def receivedBad (x : Received) : Nat × Nat := readBlocks none (lineDescramble (x.line0, x.line1) x.blocks)

end Sys2Proof.Machine
end

