-- ==== Sys2Proof/Machine/Route.lean ====
section
/-! DEFINITION. The Byith tree as the directory gives it, and the sending of frames (R240 to R246). -/

namespace Sys2Proof.Machine

/-- Own address. -/
def Dev.ownAddr (d : Dev) : Nat := d.byt.addr

/-- The addresses from `a` up to the root (at most 12 hops, R245). -/
def Dev.chainUp (d : Dev) : Nat → Nat → List Nat
  | 0, a => [a]
  | k + 1, a => if a = 0 then [0] else a :: d.chainUp k (d.dirEnt a).parent
/-- The chain of `a`. -/
def Dev.chain (d : Dev) (a : Nat) : List Nat := d.chainUp 12 a

/-- The latency between two devices in ps (R246). -/
def Dev.pathLat (d : Dev) (a b : Nat) : Nat :=
  let c := ((d.chain a).find? (d.chain b).contains).getD 0
  let lat (x : Nat) : Nat := if x = 0 then 0 else (d.dirEnt x).latPs
  lat a + lat b - 2 * lat c

/-- The addresses of present and eligible devices. -/
def Dev.eligibles (d : Dev) : List Nat := d.byt.dir.filterMap fun e => if e.2.present && e.2.eligible then some e.1 else none

/-- The downstream ports. -/
def Dev.downPorts (d : Dev) : List Nat := (List.range 4).filter fun p => (d.port p).role == .downstream
/-- The downstream port below which the directory places `a` (R246). -/
def Dev.portBelow (d : Dev) (a : Nat) : Option Nat :=
  d.downPorts.find? fun p => a != d.ownAddr && (d.port p).partner != d.ownAddr && (d.chain a).contains (d.port p).partner

/-- Send a frame on port `p` with its SRC kept and the port's next SEQ (R241); a CTRL or DISC frame waits for its ACK. -/
def Dev.put (d : Dev) (p : Nat) (f : Frame) : Dev :=
  let f := { f with seq := (d.port p).seq }
  let d := d.updPort p fun x =>
    { x with seq := x.seq + 1, unacked := if msgAcked f.msg then x.unacked ++ [{ frame := f }] else x.unacked }
  { d with byt := { d.byt with sent := d.byt.sent ++ [(p, f)] } }

/-- Put a frame before the first one of a later rank that waits on the same port (R243). -/
def rankInsert (x : Nat × Frame) : List (Nat × Frame) → List (Nat × Frame)
  | [] => [x]
  | y :: r => if y.1 = x.1 && decide (msgRank x.2.msg < msgRank y.2.msg) then x :: y :: r else y :: rankInsert x r

/-- The frames that a command has created leave in the order of R243: `old` is the device before it. Whatever earlier
commands created has left before (DESIGN CHOICE, log 55). -/
def Dev.inRank (old d : Dev) : Dev :=
  let n := old.byt.sent.length
  { d with byt := { d.byt with
      sent := d.byt.sent.take n ++ (d.byt.sent.drop n).foldl (fun l x => rankInsert x l) [] } }

/-- What the lanes of port `p` have carried: the blocks of every frame that left there, oldest first (R240). -/
def Dev.line (d : Dev) (p : Nat) : List Block := (d.byt.sent.filter fun x => x.1 == p).flatMap fun x => frameBlocks x.2

/-- Own frames carry the own address as SRC. -/
def Dev.ownFrame (d : Dev) (dir : ByDir) (dst : Nat) (m : ByMsg) : Frame :=
  { dir := dir, dst := BitVec.ofNat 10 dst, src := BitVec.ofNat 10 d.ownAddr, msg := m }

/-- Pass a frame on through every downstream port. -/
def Dev.putBelow (d : Dev) (f : Frame) : Dev := d.downPorts.foldl (fun d p => d.put p f) d
/-- Pass a frame on through the upstream port. -/
def Dev.putUp (d : Dev) (f : Frame) : Dev :=
  match d.byt.upPort with
  | some p => d.put p f
  | none => d
/-- Pass a DOWN frame on: below where the directory places DST, else towards the root (DEDUCED). -/
def Dev.putDown (d : Dev) (f : Frame) : Dev :=
  match d.portBelow f.dst.toNat with
  | some p => d.put p f
  | none => d.putUp f

/-- Send a message of this device to every device below it. -/
def Dev.sayBelow (d : Dev) (m : ByMsg) : Dev := d.putBelow (d.ownFrame .bcast 0 m)
/-- Send a message of this device up. -/
def Dev.sayUp (d : Dev) (m : ByMsg) : Dev := d.putUp (d.ownFrame .up 0 m)
/-- Send a message to one device. -/
def Dev.sayTo (d : Dev) (a : Nat) (m : ByMsg) : Dev :=
  if a = 0 then d.sayUp m else d.putDown (d.ownFrame .down a m)

/-- Send a CTRL message of the coordinator along its scope. -/
def Dev.sayScope (d : Dev) (s : Scope) (m : ByMsg) : Dev :=
  let all := if d.time.role = .root then d.sayBelow m else d.sayUp m
  match s with
  | .all => all
  | .group _ => all
  | .subtree a => if a.toNat = d.ownAddr then d.sayBelow m else d.sayTo a.toNat m
  | .list l => (l.filter fun a => a.toNat ≠ d.ownAddr).foldl (fun d a => d.sayTo a.toNat m) d

end Sys2Proof.Machine
end

