-- ==== Sys2Proof/Machine/Link.lean ====
section
/-! DEFINITION. The ports of the Byith link: training, a port that goes down, the loss of the upstream, and the directory
that the root keeps (R244 to R247, R255 to R257). -/

namespace Sys2Proof.Machine

/-! ## The directory (R246, R254, R255) -/

/-- The directory entry of an address as TOPO carries it. -/
def Dev.topoEnt (d : Dev) (a : Nat) : TopoEnt :=
  let e := d.dirEnt a
  { addr := BitVec.ofNat 10 a, present := e.present, eligible := e.eligible, depth := BitVec.ofNat 4 e.depth,
    parent := BitVec.ofNat 10 e.parent, latPs := BitVec.ofNat 20 e.latPs }

/-- The root broadcasts directory entries, up to 7 in a frame. -/
def Dev.sayTopo (d : Dev) (l : List Nat) (announce : Bool) : Dev :=
  (List.range ((l.length + 6) / 7)).foldl (fun d i =>
    d.sayBelow (.topo (((l.drop (7 * i)).take 7).map d.topoEnt) announce)) d

/-- The present addresses in the subtree of `a`, `a` first. -/
def Dev.subtree (d : Dev) (a : Nat) : List Nat :=
  a :: d.byt.dir.filterMap fun e => if e.2.present && e.1 != a && (d.chain e.1).contains a then some e.1 else none

/-- The root frees the address `a` and every address below it (R255). -/
def Dev.dirRemove (d : Dev) (a : Nat) : Dev :=
  if !(d.dirEnt a).present then d
  else
    let l := d.subtree a
    let d := l.foldl (fun d b => d.updDir b fun e => { e with present := false, eligible := false, ready := false }) d
    (d.sayTopo l false).fire 157 (payload .notPresent 1 a)

/-! ## Ports -/

/-- A port starts to train (R247), or stays down while it is disabled. -/
def Dev.trainPort (d : Dev) (p : Nat) : Dev :=
  d.updPort p fun x => { x with
    role := if x.enabled then .training else .down
    stage := if x.enabled then 1 else 0
    hello := false, partner := 0, partnerHolds := false, partnerRoot := false, partnerDepth := 0, partnerUid := 0
    unacked := [], echoCount := 0, echoSum := 0, latNew := none
    fix := if d.byt.upFix then some d.byt.upSel else none }

/-- Training starts on every enabled port. -/
def Dev.trainPorts (d : Dev) : Dev :=
  let d := times 4 (fun p d => d.trainPort p) d
  { d with byt := { d.byt with jstate := if d.byt.jstate = .none then .training else d.byt.jstate } }

/-- The upstream port is lost (R256): every TPLL loses its reference, the device is no longer aligned and holds no
address. -/
def Dev.upstreamLost (d : Dev) : Dev :=
  let d := { d with byt := { d.byt with
    upPort := none, aligned := false, eligible := false, addr := 0, depth := 0, jstate := .training, good := 0, missing := 0
    loadNext := false } }
  times 4 (fun i d => if d.kind i = 1 && decide ((d.loop i).state = .locked) then d.loseLock i 2 else d) d

/-- A port goes down (R255, R242) with the reason of Table 11-6, a port in training only by RETRY_FAIL: its neighbour is
gone, and it trains again. -/
def Dev.portDown (d : Dev) (p reason : Nat) : Dev :=
  let x := d.port p
  let trained := x.stage = 0 && (x.role == .upstream || x.role == .downstream || x.role == .blocked)
  let d := if trained || reason = 2 then d.fire (148 + p) (payload .notPresent reason x.partner) else d
  let d := d.trainPort p
  if decide (d.byt.upPort = some p) then d.upstreamLost
  else if x.role = .downstream && x.partnerHolds then
    if d.time.role = .root then d.dirRemove x.partner else d.sayUp (.leave (BitVec.ofNat 10 x.partner))
  else d

/-- PD_BY leaves On: every port goes down and stays down (R257). -/
def Dev.portsOff (d : Dev) : Dev :=
  let d := times 4 (fun p d => d.portDown p 1) d
  times 4 (fun p d => d.updPort p fun x => { x with role := .down, stage := 0 }) d

end Sys2Proof.Machine
end

