-- ==== Sys2Proof/Machine/Log.lean ====
section
/-! DEFINITION. The registers of the event sources and the event recorder (19_events_and_recorder.md): records, blocks,
the power-on scan, freezes, annotations and the operating-hours store. What becomes of a code word that the recorder
programs is an operand of the command that programs it. -/

namespace Sys2Proof.Machine

/-! ## Code words of the log (Tables 19-4 to 19-6) -/

/-- KIND (Table 19-6). -/
def RecKind.code : RecKind → Nat
  | .event => 0 | .mediaFault => 1 | .annotation => 2 | .boot => 3

/-- The stamp is valid: LOCKED and ALIGNED of its STATUS are 1 (R417). -/
def LogEnt.stamped (e : LogEnt) : Bool := bit e.stamp.status 0 && bit e.stamp.status 1

/-- LEN: header, stamp word and data words (R417). -/
def LogEnt.len (e : LogEnt) : Nat := 1 + b2n e.stamped + e.data.length

/-- The header word. -/
def LogEnt.header (e : LogEnt) : QWord :=
  BitVec.ofNat 128 (at' 96 e.opsec.toNat + at' 72 e.pcc.toNat + at' 64 e.event + at' 32 e.payload.toNat + at' 26 e.len +
    at' 24 e.sev + at' 20 e.kind.code + flag 19 e.stamped)

/-- The stamp word. -/
def Stamp.logWord (s : Stamp) : QWord := BitVec.ofNat 128 (at' 64 s.short.toNat + at' 48 s.frac.toNat)

/-- The body code words of a record. -/
def LogEnt.body (e : LogEnt) : List QWord := e.header :: (if e.stamped then [e.stamp.logWord] else []) ++ e.data

/-- The seal of a record (R418, Table 19-5). -/
def sealOf (body : List QWord) (rep : Nat) (unknown drops staged : Bool) (seq : Word) : QWord :=
  let hi := at' 120 0x5A + at' 104 rep + flag 103 unknown + flag 102 drops + flag 101 staged + at' 64 seq.toNat
  let crc := crc32c (body.flatMap (fun w => leBytes 16 w.toNat) ++ leBytes 8 (hi / 2 ^ 64))
  BitVec.ofNat 128 (hi + at' 32 crc.toNat)

/-- A block header (R416). -/
def blockHeader (gen : Nat) (first : Word) : QWord := BitVec.ofNat 128 (at' 120 0xC3 + at' 64 gen + at' 32 first.toNat)

/-- The word reads as a valid block header. -/
def validHeader (w : QWord) : Bool := fld w 120 8 == 0xC3 && fld w 96 24 == 0 && fld w 0 32 == 0

/-! ## Blocks (R416, R425) -/

/-- The reset value of a log block's record. -/
def logBlkReset (_ : Nat) : LogBlk := {}
/-- Log block `b`, 994 to 1,023. -/
def Dev.logBlk (d : Dev) (b : Nat) : LogBlk := Store.get logBlkReset d.log.blks b
/-- Change what is known of log block `b`. -/
def Dev.updLogBlk (d : Dev) (b : Nat) (f : LogBlk → LogBlk) : Dev :=
  { d with log := { d.log with blks := Store.upd logBlkReset d.log.blks b f } }

/-- The good log blocks: those not retired. -/
def Dev.goodBlks (d : Dev) : List Nat := ((List.range 30).filter fun i => !bit d.log.retired i).map (994 + ·)

/-- The lowest-numbered free good block (R425). -/
def Dev.freeBlk (d : Dev) : Option Nat :=
  d.goodBlks.find? fun b => !(d.logBlk b).used && !(d.logBlk b).reclaimable

/-- The block to reclaim for a record of severity `sev` (R425): the lowest GEN among those whose records all have a
severity of at most `sev`, the current block aside. -/
def Dev.reclaimBlk (d : Dev) (sev : Nat) : Option Nat :=
  let l := d.goodBlks.filter fun b =>
    b != d.log.curblk && ((d.logBlk b).used || (d.logBlk b).reclaimable) && decide ((d.logBlk b).maxSev ≤ sev)
  l.foldl (fun o b => match o with
    | none => some b
    | some a => if (d.logBlk b).gen < (d.logBlk a).gen then some b else some a) none

/-- What the next program of the recorder does in the media. -/
def Dev.logFails (d : Dev) (v : Verify) : Bool :=
  match v with
  | .passed c => decide (d.nvs.ethr ≤ c.toNat)
  | .failed => true

/-- The CBITS that a failed program showed (R393: 15 is uncorrectable). -/
def verifyCbits : Verify → Nat
  | .passed c => c.toNat
  | .failed => 15

/-! ## The ring (R424, R426) -/

/-- A LOG_MEDIA_FAULT entry (Table 19-6); its severity is CRITICAL (log 41). -/
def Dev.faultEnt (d : Dev) (st : Status) (cbits blk : Nat) : LogEnt :=
  { kind := .mediaFault, sev := 3, opsec := d.log.opsec, pcc := d.log.pcc, stamp := d.stamp,
    payload := word (at' 24 st.code + at' 16 cbits + blk % 1024) }

/-- Place an entry at the head of the ring; in a full ring the newest entry is lost and counted (log 41). -/
def Dev.pushHead (d : Dev) (e : LogEnt) : Dev :=
  if d.log.ring.length < 64 then { d with log := { d.log with ring := e :: d.log.ring } }
  else
    let sev := (d.log.ring.getLast?.map LogEnt.sev).getD 0
    let d := { d with log := { d.log.dropped sev with ring := e :: d.log.ring.dropLast } }
    d.raiseDrop sev d.stamp

/-- Enter the degraded state (R426): cause 1 no usable block, 2 PD_NVS not On. The flag goes to the calibration store
while PD_NVS is On. -/
def Dev.logDegrade (d : Dev) (cause blk : Nat) : Dev :=
  if d.log.degraded && (d.log.dcause == cause || cause == 2) then d
  else
    let st : Status := if cause = 1 then .mediaError else .fenced
    let d := { d with log := { d.log with degraded := true, dcause := cause
                                          calDegraded := d.log.calDegraded || d.domOn pdNvs }
                      evt := { d.evt with logfail := true } }
    (d.fire 242 (payload st 1 blk)).pushHead (d.faultEnt st 0 blk)

/-! ## Programming (R418, R425, R426) -/

/-- Program consecutive code words from word `i`. The flag says that a word was not erased, so that its program was refused
(R394). -/
def Dev.logPut (v : Verify) : Nat → List QWord → Dev → Dev × Bool
  | _, [], d => (d, false)
  | i, w :: r, d =>
    let x := d.nvPut i w v
    let y := Dev.logPut v (i + 1) r x.1
    (y.1, decide (x.2 = .reprogram) || y.2)

/-- A program of the current block went wrong: the block is retired, and its fault goes to the head of the ring (R426). -/
def Dev.logRetire (d : Dev) (v : Verify) : Dev :=
  let b := d.log.curblk
  let d := { d with log := { d.log with retired := setBit d.log.retired (b - 994), curblk := 0 } }
  (d.fire 240 (payload .mediaError 2 b)).pushHead (d.faultEnt .mediaError (verifyCbits v) b)

/-- A record has its seal: LOG_SEQ_NEW names it (R428), and an annotation is done (R427). -/
def Dev.sealed (d : Dev) (e : LogEnt) (seq : Word) : Dev :=
  let d := { d with log := { d.log with seqNew := seq, annBusy := d.log.annBusy && !decide (e.kind = RecKind.annotation) } }
  d.updLogBlk d.log.curblk fun b => { b with lastSeq := seq, maxSev := max b.maxSev e.sev }

/-- Program the seal of the open record (R422); a failure retires the block and the record goes back to the ring. -/
def Dev.sealOpen (d : Dev) (v : Verify) : Dev :=
  match d.log.opened with
  | none => d
  | some o =>
    let d := { d with log := { d.log with opened := none } }
    let w := sealOf o.body o.ent.rep false o.dropsBefore o.ent.staged o.seq
    let x := Dev.logPut v o.sealWord [w] d
    let d := x.1
    if x.2 || d.logFails v then (d.pushHead o.ent).logRetire v else d.sealed o.ent o.seq

/-- Put a record into the current block, which has room for it: body in ascending order, then the seal, which a record of
KIND EVENT leaves open (R418, R422). It takes the next SEQ whatever its outcome (R419). -/
def Dev.putRecord (d : Dev) (e : LogEnt) (v : Verify) : Dev :=
  let b := d.log.curblk
  let at0 := (d.logBlk b).next
  let seq := d.log.seqNext
  let drops := d.log.dropsBefore
  let x := Dev.logPut v (b * blkWords + at0) e.body d
  let d := x.1
  let d := d.updLogBlk b fun x => { x with next := at0 + e.len + 1 }
  let d := { d with log := { d.log with seqNext := seq + 1, dropsBefore := false } }
  if x.2 || d.logFails v then (d.pushHead e).logRetire v
  else
    let o : OpenRec := { ent := e, sealWord := b * blkWords + at0 + e.len, body := e.body, seq := seq,
                         dropsBefore := drops, due := e.rep == 65535 }
    let d := { d with log := { d.log with opened := some o } }
    if e.kind = .event then d else d.sealOpen v

/-- Open block `b` (R416, R425). -/
def Dev.openBlk (d : Dev) (b : Nat) : Dev :=
  let gen := d.log.gen + 1
  let d := (d.nvPut (b * blkWords) (blockHeader gen d.log.seqNext) (.passed 0)).1
  let d := d.updLogBlk b fun _ => { used := true, gen := gen, firstSeq := d.log.seqNext, lastSeq := d.log.seqNext, next := 1 }
  { d with log := { d.log with gen := gen, curblk := b } }

/-- Start the reclaim of block `b` (R425): LOG_SEQ_OLD moves past its records. -/
def Dev.startReclaim (d : Dev) (b : Nat) : Dev :=
  let x := d.logBlk b
  let old := if x.used && decide (d.log.seqOld.toNat ≤ x.lastSeq.toNat) then x.lastSeq + 1 else d.log.seqOld
  let d := { d with log := { d.log with seqOld := old, erasing := some b } }
  d.fire 240 (payload .ok 1 b)

/-- The erase of a reclaim ends. -/
def Dev.endReclaim (d : Dev) : Dev :=
  match d.log.erasing with
  | none => d
  | some b =>
    let d := { d with log := { d.log with erasing := none } }
    (d.nvErase b true).updLogBlk b fun _ => {}

/-! ## The power-on scan (R423) -/

/-- What the scan of one block gathers. -/
structure ScanRes where
  dev : Dev
  next : Nat := 1
  last : Word := 0
  maxSev : Nat := 0
  deriving DecidableEq, Repr

/-- Walk the records of a block from code word `r.next`; `open0`: the SEQ that an unsealed body takes. -/
def scanRecs (b : Nat) : Nat → ScanRes → ScanRes
  | 0, r => r
  | fuel + 1, r =>
    match r.dev.nvCell (b * blkWords + r.next) with
    | .data h c =>
      let len := fld h 26 6
      if c = 15#4 || len = 0 || blkWords < r.next + len + 1 then r
      else
        let sw := b * blkWords + r.next + len
        let r := { r with maxSev := max r.maxSev (fld h 24 2) }
        match r.dev.nvCell sw with
        | .erased =>
          let body := (List.range len).map fun k =>
            match r.dev.nvCell (b * blkWords + r.next + k) with
            | .data w _ => w
            | .erased => BitVec.allOnes 128
            | .unknown => BitVec.allOnes 128
          let seq := r.last + 1
          let d := (r.dev.nvPut sw (sealOf body 0 true false false seq) (.passed 0)).1
          scanRecs b fuel { r with dev := d, next := r.next + len + 1, last := seq }
        | .data s _ => scanRecs b fuel { r with next := r.next + len + 1, last := BitVec.ofNat 32 (fld s 64 32) }
        | .unknown => scanRecs b fuel { r with next := r.next + len + 1 }
    | .erased => r
    | .unknown => r

/-- The log blocks with a valid header, in GEN order: a retired one keeps its records (log 41). -/
def Dev.genOrder (d : Dev) : List (Nat × Nat × Word) :=
  ((List.range 30).map (994 + ·)).foldl (fun l b =>
    match d.nvCell (b * blkWords) with
    | .data h c => if validHeader h && c != 15#4 then ins (b, fld h 64 32, BitVec.ofNat 32 (fld h 32 32)) l else l
    | .erased => l
    | .unknown => l) []
where
  ins (x : Nat × Nat × Word) : List (Nat × Nat × Word) → List (Nat × Nat × Word)
    | [] => [x]
    | y :: r => if x.2.1 < y.2.1 then x :: y :: r else y :: ins x r

/-- A block whose code word 0 is not erased and is no valid header is reclaimable (R416). -/
def Dev.garbageBlk (d : Dev) (b : Nat) : Bool :=
  match d.nvCell (b * blkWords) with
  | .data h c => !(validHeader h && c != 15#4)
  | .erased => false
  | .unknown => true

/-- The power-on scan, and then the BOOT record at the head of the ring (R419, R423). -/
def Dev.logScan (d : Dev) : Dev :=
  let d := { d with log := { d.log with scanned := true, blks := [], curblk := 0, gen := 0 } }
  let d := (d.goodBlks.filter d.garbageBlk).foldl (fun d b => d.updLogBlk b fun _ => { reclaimable := true }) d
  let l := d.genOrder
  let first := (l.head?.map (·.2.2)).getD 0
  let d := l.foldl (fun d x =>
    let r := scanRecs x.1 blkWords { dev := d, last := x.2.2 - 1 }
    let d := r.dev.updLogBlk x.1 fun _ =>
      { used := true, gen := x.2.1, firstSeq := x.2.2, lastSeq := r.last, maxSev := r.maxSev, next := r.next }
    { d with log := { d.log with gen := x.2.1, curblk := if d.goodBlks.contains x.1 then x.1 else 0, seqNew := r.last, seqNext := r.last + 1 } }) d
  let boot : LogEnt := { kind := .boot, payload := if d.log.bootVin then 1 else 2, opsec := d.log.opsec,
                         pcc := d.log.pcc, stamp := d.stamp }
  let old := if l.isEmpty then d.log.seqOld else first
  ({ d with log := { d.log with seqOld := old, seqOldCap := old } }).pushHead boot

/-! ## The recorder (R419 to R426) -/

/-- The record that the recorder writes next: a LOG_MEDIA_FAULT at the head of the ring, an accepted annotation, or the
oldest entry; with the state in which it has been taken. -/
def Dev.nextRecord (d : Dev) : Option (LogEnt × Dev) :=
  match d.log.ring, d.log.ann with
  | [], none => none
  | [], some a => some (a, { d with log := { d.log with ann := none } })
  | e :: r, none => some (e, { d with log := { d.log with ring := r } })
  | e :: r, some a =>
    if e.kind = .mediaFault then some (e, { d with log := { d.log with ring := r } })
    else some (a, { d with log := { d.log with ann := none } })

/-- A record for which no block qualifies is dropped (R425). -/
def Dev.logDrop (d : Dev) (e : LogEnt) : Dev :=
  let ann := decide (e.kind = RecKind.annotation)
  let d := { d with log := { d.log.dropped e.sev with annBusy := d.log.annBusy && !ann } }
  d.raiseDrop e.sev e.stamp

/-- Write entry `e`, which `d` no longer holds; `d0` is the state that still holds it, to which a reclaim or the degraded
state goes back. -/
def Dev.writeRecord (d0 d : Dev) (e : LogEnt) (v : Verify) : Dev :=
  let cur := d.logBlk d.log.curblk
  if d.log.curblk != 0 && decide (cur.next + e.len + 1 ≤ blkWords) then d.putRecord e v
  else match d.freeBlk with
    | some b => (d.openBlk b).putRecord e v
    | none =>
      match d.reclaimBlk e.sev with
      | some b => d0.startReclaim b
      | none =>
        if (d.goodBlks.filter (· != d.log.curblk)).isEmpty then
          d0.logDegrade 1 (if d.log.curblk = 0 then 0x3FF else d.log.curblk)
        else d.logDrop e

/-- LOG_RECORD_WRITE: one turn of the recorder. It makes its scan first, ends an erase that runs, seals the open record
when another waits, and writes the next record; it does nothing while it is held or a freeze waits (R422 to R429). -/
def logRecordWrite (v : Verify) (d : Dev) : Dev :=
  if d.log.frozen || d.log.freezePend.isSome || (d.log.degraded && d.log.dcause == 1) then d
  else if !d.domOn pdNvs then d.logDegrade 2 0x3FF
  else
    let d := if d.log.scanned then d else d.logScan
    let d := d.endReclaim
    match d.nextRecord with
    | none => d
    | some _ =>
      let d := d.sealOpen v
      match d.nextRecord with
      | none => d
      | some (e, t) => d.writeRecord t e v

/-- RECORD_SEAL: the open record gets its seal (R422). -/
def recordSeal (v : Verify) (d : Dev) : Dev := if d.log.frozen || !d.domOn pdNvs then d else d.sealOpen v

/-! ## Freezes (R429, R431) -/

/-- A freeze is requested; in the degraded state FROZEN is set and nothing else changes. -/
def Dev.askFreeze (d : Dev) (src : Nat) (o : Option Owner) : Dev :=
  if d.log.degraded then
    ({ d with log := { d.log with frozen := true, freezeSrc := src, remainMs := 10000 } }).answer? o .ok
  else
    let op := d.log.opened.map fun o => { o with due := true }
    { d with log := { d.log with freezePend := some { src := src, owner := o }, opened := op } }

/-- FREEZE_EFFECT: the recorder's operation has ended and the open record is sealed. -/
def freezeEffect (v : Verify) (d : Dev) : Dev :=
  match d.log.freezePend with
  | none => d
  | some f =>
    let d := if d.domOn pdNvs then d.endReclaim.sealOpen v else d
    let d := { d with log := { d.log with freezePend := none, frozen := true, freezeSrc := f.src, remainMs := 10000 } }
    (d.fire 243 (payload .ok 1 f.src)).answer? f.owner .ok

/-- The freeze ends: reason 2 on a release, 3 by itself. -/
def Dev.thaw (d : Dev) (reason : Nat) : Dev :=
  if d.log.frozen then
    ({ d with log := { d.log with frozen := false, remainMs := 0 } }).fire 243 (payload .ok reason d.log.freezeSrc)
  else d

/-- LOG_FREEZE: the Steward freezes for it, so its SRC is 1 (log 41). -/
def logFreezeCmd (o : Owner) (d : Dev) : Dev :=
  if d.log.frozen || d.log.freezePend.isSome then d.answer o .busy else d.askFreeze 1 (some o)
/-- LOG_RELEASE. -/
def logReleaseCmd (o : Owner) (d : Dev) : Dev := (d.thaw 2).answer o .ok
/-- LOG_SEQ. -/
def logSeqCmd (o : Owner) (d : Dev) : Dev := d.complete o .ok d.log.seqOld d.log.seqNew

/-- LOG_STAT.WERR is set. -/
def Dev.logWerr (d : Dev) : Dev := { d with log := { d.log with werr := true } }

/-- A write to LOG_FRZCTL by initiator `src` (R429, R431). -/
def frzctlWrite (src : Nat) (freeze release : Bool) (d : Dev) : Dev :=
  if !freeze && !release then d
  else if (src != 1 && src != 6) || (freeze && release) then d.logWerr
  else if release then d.thaw 2
  else if d.log.frozen || d.log.freezePend.isSome then d
  else d.askFreeze src none

/-! ## Annotations (R427) -/

/-- A write to LOG_ANN_CTL. -/
def annCtlWrite (w : Word) (d : Dev) : Dev :=
  let dlen := fld w 2 6
  let l := d.log
  let fields (l : LogState) : LogState := { l with dlen := dlen, annSev := fld w 0 2 }
  if !bit w 31 then { d with log := fields l }
  else if dlen = 0 || 61 < dlen || !l.ring.isEmpty || l.annBusy || l.frozen || l.degraded || l.erasing.isSome then d.logWerr
  else
    let data := (List.range dlen).map fun k =>
      BitVec.ofNat 128 ((List.range 4).foldl (fun n i => n + at' (32 * i) (Store.get (fun _ => (0 : Word)) l.annBuf (4 * k + i)).toNat) 0)
    let e : LogEnt := { kind := .annotation, payload := l.annPayload, sev := fld w 0 2, opsec := l.opsec, pcc := l.pcc,
                        stamp := d.stamp, data := data }
    let op := l.opened.map fun o => { o with due := true }
    { d with log := { fields l with annBusy := true, ann := some e, opened := op } }

/-! ## Operating hours (R421) -/

/-- The code word of a pair. -/
def opsecWord (opsec : Word) (pcc : BitVec 24) : QWord :=
  let hi := at' 96 opsec.toNat + at' 72 pcc.toNat + at' 64 0x3C
  BitVec.ofNat 128 (hi + at' 32 (crc32c (leBytes 8 (hi / 2 ^ 64))).toNat)

/-- OPSEC_TICK: OPSEC never decreases; the time left to a freeze's automatic release is known by the second (log 41). -/
def opsecTick (d : Dev) : Dev :=
  { d with log := { d.log with
      opsec := if d.log.opsec = 0xFFFFFFFF#32 then d.log.opsec else d.log.opsec + 1
      remainMs := if d.log.frozen then max 1 (d.log.remainMs - 1000) else 0 } }

/-- OPSEC_STORE: the pair goes into the operating-hours store; a full store block is followed by the other, erased. -/
def opsecStore (v : Verify) (d : Dev) : Dev :=
  if !d.domOn pdNvs then d
  else
    let full := decide (blkWords ≤ d.log.opPos)
    let b := if full then 992 + 993 - d.log.opBlk else d.log.opBlk
    let p := if full then 0 else d.log.opPos
    let d := if full then d.nvErase b true else d
    let d := (d.nvPut (b * blkWords + p) (opsecWord d.log.opsec d.log.pcc) v).1
    { d with log := { d.log with opBlk := b, opPos := p + 1 } }

/-- The newest valid pair of the operating-hours store, with its code word. -/
def Dev.newestHours (d : Dev) : Option (Nat × Word × BitVec 24) :=
  d.nvs.words.foldl (fun o e =>
    if e.1 < 992 * blkWords || 994 * blkWords ≤ e.1 then o
    else match e.2 with
      | .data w _ =>
        let x := (e.1, BitVec.ofNat 32 (fld w 96 32), BitVec.ofNat 24 (fld w 72 24))
        if w ≠ opsecWord x.2.1 x.2.2 then o
        else match o with
          | none => some x
          | some y => if x.2.1.toNat < y.2.1.toNat then o else some x
      | .erased => o
      | .unknown => o) none

/-- At a power-on both counts continue from the newest valid word, and the new pair is programmed at once. -/
def Dev.hoursPowerOn (d : Dev) : Dev :=
  match d.newestHours with
  | none => opsecStore (.passed 0) { d with log := { d.log with opsec := 0, pcc := 0, opBlk := 992, opPos := 0 } }
  | some (i, s, p) =>
    opsecStore (.passed 0)
      { d with log := { d.log with opsec := s + 64, pcc := p + 1, opBlk := i / blkWords, opPos := i % blkWords + 1 } }

/-! ## Event registers (R410 to R412, R430) -/

/-- A write of 1 to status bits of EVT_STAT(w) (R411). -/
def evtStatClear (w : Nat) (bits : Word) (d : Dev) : Dev :=
  (bitsOf bits).foldl (fun d i =>
    let n := 32 * w + i
    { d with evt := { d.evt with
        stat := clrBit d.evt.stat n
        last := Store.upd evtLastReset d.evt.last n fun x => { x with count := 0 } } }) d

/-- A write to EVT_CFG(n): setting MSI while the status bit is 1 requests the vector once (Table 19-1). -/
def evtCfgWrite (n : Nat) (w : Word) (d : Dev) : Dev :=
  let old := d.evtCfg n
  let new : EvtCfg := { en := bit w 31, byt := bit w 7, alert := bit w 6, rcd := bit w 5, stw := bit w 4, msi := bit w 3,
                        sev := fld w 0 2 }
  let d := { d with evt := { d.evt with cfg := Store.put evtCfgReset d.evt.cfg n new } }
  if new.msi && !old.msi && bit d.evt.stat n then d.requestVector n else d

/-- The reset value of the captured words. -/
def evtCapReset (_ : Nat) : EvtCap := {}
/-- A read of EVT_LAST_PAY(n) (R430). -/
def evtLastPayRead (n : Nat) (d : Dev) : Dev :=
  let l := d.evtLast n
  let c : EvtCap := { lo := l.stamp.lo, hi := l.stamp.hi, fc := word (at' 16 l.stamp.frac.toNat + l.count) }
  ({ d with evt := { d.evt with cap := Store.put evtCapReset d.evt.cap n c } }).returned [l.payload]

/-- A read of LOG_SEQ_NEW (R428). -/
def logSeqNewRead (d : Dev) : Dev :=
  ({ d with log := { d.log with seqOldCap := d.log.seqOld } }).returned [d.log.seqNew]

/-! ## Commands -/

/-- EVT_STAT_CLEAR. -/
def execEvtStatClear (k : Fin 8) (bits : Word) (s : State) : Host.Outcome State Fault Refusal :=
  s.onDev fun _ d => evtStatClear k bits d
/-- EVT_CFG_WRITE. -/
def execEvtCfgWrite (n : Fin 256) (v : Word) (s : State) : Host.Outcome State Fault Refusal :=
  s.onDev fun _ d => evtCfgWrite n v d
/-- EVT_LAST_PAY_READ. -/
def execEvtLastPayRead (n : Fin 256) (s : State) : Host.Outcome State Fault Refusal := s.onDev fun _ d => evtLastPayRead n d
/-- LOG_SEQ_NEW_READ. -/
def execLogSeqNewRead (s : State) : Host.Outcome State Fault Refusal := s.onDev fun _ d => logSeqNewRead d
/-- LOG_RECORD_WRITE. -/
def execLogRecordWrite (v : Verify) (s : State) : Host.Outcome State Fault Refusal := s.onDev fun _ d => logRecordWrite v d
/-- RECORD_SEAL. -/
def execRecordSeal (v : Verify) (s : State) : Host.Outcome State Fault Refusal := s.onDev fun _ d => recordSeal v d
/-- FREEZE_EFFECT. -/
def execFreezeEffect (v : Verify) (s : State) : Host.Outcome State Fault Refusal := s.onDev fun _ d => freezeEffect v d
/-- FREEZE_AUTO_RELEASE. -/
def execFreezeAutoRelease (s : State) : Host.Outcome State Fault Refusal := s.onDev fun _ d => d.thaw 3
/-- LOG_FREEZE. -/
def execLogFreeze (c : Tci) (s : State) : Host.Outcome State Fault Refusal := s.onDev (runTci 0xA0 c logFreezeCmd)
/-- LOG_RELEASE. -/
def execLogRelease (c : Tci) (s : State) : Host.Outcome State Fault Refusal := s.onDev (runTci 0xA1 c logReleaseCmd)
/-- LOG_SEQ. -/
def execLogSeq (c : Tci) (s : State) : Host.Outcome State Fault Refusal := s.onDev (runTci 0xA2 c logSeqCmd)
/-- LOG_FRZCTL_FREEZE. -/
def execLogFrzctlFreeze (src : Fin 64) (s : State) : Host.Outcome State Fault Refusal :=
  s.onDev fun _ d => frzctlWrite src true false d
/-- LOG_FRZCTL_RELEASE. -/
def execLogFrzctlRelease (src : Fin 64) (s : State) : Host.Outcome State Fault Refusal :=
  s.onDev fun _ d => frzctlWrite src false true d
/-- LOG_ANN_GO: a write to LOG_ANN_CTL with GO = 1. -/
def execLogAnnGo (v : Word) (s : State) : Host.Outcome State Fault Refusal :=
  s.onDev fun _ d => annCtlWrite (setBit v 31) d
/-- OPSEC_TICK. -/
def execOpsecTick (s : State) : Host.Outcome State Fault Refusal :=
  s.onPins fun o d => (o, if d.pin.powered then opsecTick d else d)
/-- OPSEC_STORE. -/
def execOpsecStore (v : Verify) (s : State) : Host.Outcome State Fault Refusal := s.onDev fun _ d => opsecStore v d

end Sys2Proof.Machine
end

