-- ==== Sys2Proof/Machine/Noc.lean ====
section
/-! DEFINITION. The network on chip (15_steward_and_noc.md): route tables and their checks, Lens probes, tags and timeouts,
the NOC registers. Requests at their targets stand in `Machine/Packets.lean`. -/

namespace Sys2Proof.Machine

/-! ## Routers and route tables (R349, R350) -/

/-- NOC_STAT.WERR. -/
def Dev.nocWerr (d : Dev) : Dev := { d with noc := { d.noc with werr := true } }

/-- The entry of X-first routing from router `r` to destination `q`: 0 LOCAL, 1 N, 2 E, 3 S, 4 W. -/
def xyEntry (r q : Nat) : Nat :=
  let x := r % 6
  let y := r / 6
  let dx := q % 6
  let dy := q / 6
  if x < dx then 2 else if dx < x then 4 else if dy < y then 1 else if y < dy then 3 else 0
/-- What a route table word reads as after reset (both copies route X first, then Y). -/
def rtReset (k : Nat) : Word :=
  let w := k % 0x20 / 4
  if k / 0x100 < 36 && k % 0x100 / 0x20 < 5 && w < 5 then
    word ((List.range 8).foldl (fun v i =>
      if 8 * w + i < 36 then v + at' (4 * i) (xyEntry (k / 0x100) (8 * w + i)) else v) 0)
  else 0
/-- The key of word `w` of the table of port `p` of router `r`. -/
def rtKey (r p w : Nat) : Nat := 0x100 * r + 0x20 * p + 4 * w
/-- The entry for destination `q` in a table store. -/
def rtEntry (t : Store Word) (r p q : Nat) : Nat := fld (Store.get rtReset t (rtKey r p (q / 8))) (4 * (q % 8)) 4

/-- The router has the port. -/
def hasPort (r e : Nat) : Bool :=
  match e with
  | 0 => true
  | 1 => decide (0 < r / 6)
  | 2 => decide (r % 6 < 5)
  | 3 => decide (r / 6 < 5)
  | 4 => decide (0 < r % 6)
  | _ => false
/-- The router that a port leads to. -/
def nextRouter (r e : Nat) : Nat :=
  match e with
  | 1 => r - 6
  | 2 => r + 1
  | 3 => r + 6
  | 4 => r - 1
  | _ => r
/-- The distance between two routers. -/
def routerDist (r q : Nat) : Nat := (r % 6 - q % 6) + (q % 6 - r % 6) + ((r / 6 - q / 6) + (q / 6 - r / 6))
/-- The checks of one entry (R349). -/
def entryOk (r q e : Nat) : Bool :=
  decide (e ≤ 5) && (e == 5 || hasPort r e) && ((e == 0) == (r == q)) &&
    (e == 0 || e == 5 || decide (routerDist (nextRouter r e) q < routerDist r q)) && (!decide (q % 6 < r % 6) || e == 4)

/-- The first failing router, port and destination of the shadow tables of the named routers. -/
def Dev.rtBad (d : Dev) (m : BitVec 36) : Option (Nat × Nat × Nat) :=
  ((bitsOf m).flatMap fun r => (List.range 5).flatMap fun p => (List.range 36).map fun q => (r, p, q)).find? fun x =>
    !entryOk x.1 x.2.2 (rtEntry d.noc.shd x.1 x.2.1 x.2.2)

/-- A write to NOC_RT_CHECK_HI starts the check of the named routers. -/
def nocRtCheck (hi : Word) (d : Dev) : Dev :=
  if d.noc.check.isSome then d.nocWerr
  else
    let m := BitVec.ofNat 36 (d.noc.checkLo.toNat + at' 32 (fld hi 0 4))
    { d with noc := { d.noc with check := some m } }

/-- ROUTE_CHECK_DONE. -/
def routeCheckDone (d : Dev) : Dev :=
  match d.noc.check with
  | none => d
  | some m =>
    match d.rtBad m with
    | none => { d with noc := { d.noc with check := none, vstatus := .ok, svalid := d.noc.svalid ||| m, vrouter := 0, vport := 0, vdest := 0 } }
    | some x => { d with noc := { d.noc with check := none, vstatus := .badOperand, vrouter := x.1, vport := x.2.1, vdest := x.2.2 } }

/-- The router is held by a staged ROUTE_SWAP (R220). -/
def Dev.routerHeld (d : Dev) (r : Nat) : Bool :=
  d.openActs.any fun a => match a with
    | .routeSwap m => bit m r
    | .tsWrite _ _ _ => false | .tsSwap _ _ => false | .chCfg _ _ _ => false | .pageSwap _ _ => false
    | .pinmap _ _ _ => false | .scrmask _ _ _ _ => false | .gang _ _ _ _ => false | .fabSwap _ => false
    | .calBulk _ => false | .mode _ => false | .pwrGroup _ _ => false | .rampStart _ => false

/-- Swap the tables of the named routers; the new shadow copies are not valid. -/
def Dev.routeSwap (d : Dev) (m : BitVec 36) : Dev :=
  let ks := (bitsOf m).flatMap fun r => (List.range 5).flatMap fun p => (List.range 5).map fun w => rtKey r p w
  let swap (t : Store Word × Store Word) (k : Nat) : Store Word × Store Word :=
    (Store.put rtReset t.1 k (Store.get rtReset t.2 k), Store.put rtReset t.2 k (Store.get rtReset t.1 k))
  let t := ks.foldl swap (d.noc.act, d.noc.shd)
  { d with noc := { d.noc with act := t.1, shd := t.2, svalid := d.noc.svalid &&& ~~~m } }

/-- A write to NOC_RT_SWAP_HI. -/
def nocRtSwap (hi : Word) (d : Dev) : Dev :=
  let m := BitVec.ofNat 36 (d.noc.swapLo.toNat + at' 32 (fld hi 0 4))
  if (bitsOf m).any fun r => d.routerHeld r || !bit d.noc.svalid r then d.nocWerr else d.routeSwap m

/-- A write to a shadow route table word. -/
def nocShadowWrite (r p w : Nat) (v : Word) (d : Dev) : Dev :=
  if (w = 4 && fld v 16 16 ≠ 0) || d.routerHeld r then d.nocWerr
  else { d with noc := { d.noc with shd := Store.put rtReset d.noc.shd (rtKey r p w) v, svalid := clrBit d.noc.svalid r } }

/-! ## Lens probes (R354, R355) -/

/-- The reset value of a probe. -/
def lensReset (_ : Nat) : Lens := {}
/-- Probe `k`. -/
def Dev.lens (d : Dev) (k : Nat) : Lens := Store.get lensReset d.noc.lens k
/-- Make probe `k` be `x`. -/
def Dev.setLens (d : Dev) (k : Nat) (x : Lens) : Dev :=
  { d with noc := { d.noc with lens := Store.put lensReset d.noc.lens k x } }
/-- STATE is RUNNING or TRIGGERED. -/
def Lens.live (x : Lens) : Bool := x.st == 1 || x.st == 2

/-- A write to LENS_CTL. -/
def lensCtlWrite (k : Nat) (w : Word) (d : Dev) : Dev :=
  let x := { d.lens k with mode := fld w 30 2, post := BitVec.ofNat 7 w.toNat }
  d.setLens k (if bit w 29 then { x with pkt := 0, units := 0, wptr := 0, st := 1, left := 0, fired := false } else x)

/-- The header unit of a packet (Table 15-5). -/
def headerUnit (cmd : Nat) (p : Packet) : QWord :=
  BitVec.ofNat 128 (at' 120 p.status.toNat + at' 104 p.be.toNat + at' 77 p.dx.toNat + at' 74 p.dy.toNat + at' 70 cmd
    + at' 60 p.tag.toNat + at' 54 p.src.toNat + at' 48 p.len.toNat + p.addr.toNat)

/-- One trace entry; W4 is zero where no data unit follows the header (R355). -/
def traceEntry (h : QWord) (p : Packet) (router units : Nat) : BitVec 256 :=
  BitVec.ofNat 256 (h.toNat + at' 128 (if units = 0 then 0 else (p.data.headD 0).toNat % 2 ^ 32) + at' 160 p.cycle.toNat + at' 208 router)

/-- A probe writes a trace entry as its MODE gives. -/
def Lens.record (x : Lens) (e : BitVec 256) : Lens :=
  let y := { x with trace := Store.put (fun _ => 0) x.trace (x.wptr.toNat % 128) e, wptr := x.wptr + 1 }
  match x.mode with
  | 1 => y
  | 2 => if x.wptr.toNat = 127 then { y with st := 3 } else y
  | 3 =>
    if x.st = 2 then if x.left ≤ 1 then { y with st := 3, left := 0 } else { y with left := x.left - 1 }
    else y
  | _ => x

/-- A probe sees a packet at its place. -/
def Dev.lensSees (d : Dev) (k : Nat) (h : QWord) (p : Packet) (units : Nat) : Dev :=
  let x := d.lens k
  if !x.live || h &&& x.mask ≠ x.mtch &&& x.mask then d
  else
    let n := satAdd 0xFFFFFFFF x.pkt 1
    let y := { x with pkt := n, units := satAdd 0xFFFFFFFF x.units units }.record (traceEntry h p x.router.toNat units)
    if x.thresh ≠ 0 && n == x.thresh.toNat && x.pkt ≠ n && !x.fired then
      let y := { y with fired := true }
      let y := if y.mode = 3 && y.st = 1 then { y with st := if y.post = 0 then 3 else 2, left := y.post.toNat } else y
      (d.setLens k y).fire (200 + k) (payload .ok 1 (n % 65536))
    else d.setLens k y

/-- One hop: a router, the port by which the packet enters, and the one by which it leaves. -/
structure Hop where
  router : Nat
  inp : Nat
  out : Nat
  deriving DecidableEq, Repr

/-- The port by which a packet that left by `e` enters the next router. -/
def entersBy (e : Nat) : Nat :=
  match e with
  | 1 => 3 | 2 => 4 | 3 => 1 | 4 => 2 | _ => 0

/-- The way of a packet from router `r`, entering by port `p`, to destination `q`: its hops, and the router at which it
meets NONE, if it does (R350). -/
def Dev.way (d : Dev) (q : Nat) : Nat → Nat → Nat → List Hop × Option Nat
  | 0, _, _ => ([], none)
  | fuel + 1, r, p =>
    let e := rtEntry d.noc.act r p q
    if e = 0 then ([⟨r, p, 0⟩], none)
    else if !hasPort r e then ([⟨r, p, e⟩], some r)
    else
      let w := d.way q fuel (nextRouter r e) (entersBy e)
      (⟨r, p, e⟩ :: w.1, w.2)

/-- Every probe on the way sees the packet. -/
def Dev.observe (d : Dev) (hops : List Hop) (cmd units : Nat) (p : Packet) : Dev :=
  let h := headerUnit cmd p
  (List.range 8).foldl (fun d k =>
    let x := d.lens k
    hops.foldl (fun d hop =>
      if hop.router == x.router.toNat && (if x.dir then hop.out else hop.inp) == x.port.toNat then d.lensSees k h p units
      else d) d) d

/-! ## Tags (R348, R352) -/

/-- The key of a tag. -/
def tagKey (p : Packet) : Nat := 1024 * p.src.toNat + p.tag.toNat
/-- The state of a tag. -/
def Dev.tagSt (d : Dev) (k : Nat) : TagSt := Store.get (fun _ => .free) d.noc.tags k
/-- Change a tag. -/
def Dev.setTag (d : Dev) (k : Nat) (x : TagSt) : Dev :=
  { d with noc := { d.noc with tags := Store.put (fun _ => .free) d.noc.tags k x } }

/-- The power domain of an initiator, where it lies in one that can sleep (Tables 15-7 and 17-2). -/
def srcDomain (src : Nat) : Option Nat :=
  if 24 ≤ src && src ≤ 39 then some (2 + (src - 24))
  else if 40 ≤ src && src ≤ 43 then some (18 + (src - 40 + 6))
  else none

/-- A response that is discarded counts in NOC_LATE. -/
def Dev.lateCount (d : Dev) : Dev := { d with noc := { d.noc with late := satAdd 0xFFFFFFFF d.noc.late 1 } }

/-- The word of a packet's data that lies at byte address `a`. -/
def dataWord (a : Nat) (data : List QWord) : Word := word (fld (data.headD 0) (8 * (a % 16 / 4 * 4)) 32)

/-- The request that a response answers waits no longer in a fabric port. -/
def Dev.answered (d : Dev) (p : Packet) : Dev :=
  { d with fab := { d.fab with
      delivered := d.fab.delivered.filter fun x => x.2.1 == 2 || tagKey x.2.2 != tagKey p
      inbox := d.fab.inbox.filter fun x => x.2.2.1 == 2 || tagKey x.2.2.2 != tagKey p } }

/-- The words of a unit of which some byte is enabled, in a read that returns one value throughout. -/
def laneFill (be : BitVec 16) (w : Word) : List Word :=
  ((List.range 4).filter fun i => fld be (4 * i) 4 != 0).map fun _ => w

/-- A read of host software that waits at an edge with a tag. -/
def Dev.heldRead (d : Dev) (k : Nat) : Option Packet :=
  (d.noc.held.find? fun x => x.2.1 == 0 && x.2.2.status != 0 && tagKey x.2.2 == k).map (·.2.2)

/-- A response that its initiator takes: a host read of the FAB window returns its word (R24), and an access of the JTAG
bridge ends (R476). `ok` says that it is a RESP; a host read that waits at an edge takes only the timeout. -/
def Dev.taken (d : Dev) (ok : Bool) (p : Packet) : Dev :=
  if p.src = 6 then
    { d with tap := { d.tap with
        busy := false, status := if ok then 0 else p.status
        data := if ok && !d.tap.write then dataWord d.tap.addr.toNat p.data else d.tap.data } }
  else if p.src = 0 then
    match d.fab.delivered.find? fun x => x.2.1 == 0 && tagKey x.2.2 == tagKey p with
    | some x =>
      if ok then d.returned [dataWord x.2.2.addr.toNat p.data] else d.bump.returned [Config.errRead d.fresh]
    | none => match d.heldRead (tagKey p) with
      | some x => d.bump.returned (laneFill x.be (Config.errRead d.fresh))
      | none => if ok then d else d.bump.returned [Config.errRead d.fresh]
  else d

/-- A response reaches initiator `p.src` from the router `origin`; `cmd` is RESP or ERR_RESP. -/
def responseArrives (cmd origin : Nat) (p : Packet) (d : Dev) : Dev :=
  let src := p.src.toNat
  let k := tagKey p
  let q := srcRouter src
  let d := d.observe (d.way (6 * q.2 + q.1) 12 origin 0).1 cmd (if cmd = 3 then p.len.toNat else 0) p
  match d.tagSt k with
  | .free => d
  | .timedOut => ((d.answered p).setTag k .free).lateCount.fire 197 (payload .timeout 1 src)
  | .outstanding =>
    let d := d.setTag k .free
    let off : Bool := match srcDomain src with
      | some n => decide ((d.domain n).st = .off)
      | none => false
    if off then (d.answered p).lateCount
    else if 40 ≤ src && src ≤ 43 && d.inHold (src - 34) then (d.answered p).updFabRegion (src - 34) fun r => { r with rspDrop := true }
    else (d.taken (cmd == 3) p).answered p
/-- NOC_TIMEOUT: the request of initiator `src` with a tag times out (R352). -/
def nocTimeout (src tag : Nat) (d : Dev) : Dev :=
  let k := 1024 * src + tag
  if d.tagSt k = .outstanding then
    ((d.setTag k .timedOut).fire 192 (payload .timeout 1 src)).taken false
      { src := BitVec.ofNat 6 src, tag := BitVec.ofNat 10 tag, status := 8 }
  else d

/-! ## The meanings -/

/-- RESP, from the target at router `origin`. -/
def execResp (origin : Fin 36) (p : Packet) (s : State) : Host.Outcome State Fault Refusal :=
  s.onDev fun _ d => responseArrives 3 origin p d
/-- ERR_RESP. -/
def execErrResp (origin : Fin 36) (p : Packet) (s : State) : Host.Outcome State Fault Refusal :=
  s.onDev fun _ d => responseArrives 4 origin p d
/-- NOC_TIMEOUT. -/
def execNocTimeout (src : Fin 64) (tag : Fin 1024) (s : State) : Host.Outcome State Fault Refusal :=
  s.onDev fun _ d => nocTimeout src tag d
/-- NOC_RT_CHECK. -/
def execNocRtCheck (w : Word) (s : State) : Host.Outcome State Fault Refusal := s.onDev fun _ d => nocRtCheck w d
/-- NOC_RT_SWAP. -/
def execNocRtSwap (w : Word) (s : State) : Host.Outcome State Fault Refusal := s.onDev fun _ d => nocRtSwap w d
/-- ROUTE_CHECK_DONE. -/
def execRouteCheckDone (s : State) : Host.Outcome State Fault Refusal := s.onDev fun _ d => routeCheckDone d
/-- NOC_SHADOW_TABLE_WRITE of word `i` of port `p` of router `r`. -/
def execNocShadowTableWrite (r : Fin 36) (p i : Fin 5) (w : Word) (s : State) : Host.Outcome State Fault Refusal :=
  s.onDev fun _ d => nocShadowWrite r p i w d
/-- LENS_ARM: a write to LENS_CTL of probe `k`. -/
def execLensArm (k : Fin 8) (w : Word) (s : State) : Host.Outcome State Fault Refusal := s.onDev fun _ d => lensCtlWrite k w d

end Sys2Proof.Machine
end

