-- ==== Sys2Proof/Machine/Rae.lean ====
section
/-! DEFINITION. The Fail Address Table's commands (R196 to R200) and the Repair Analysis Engine (09_repair_analysis.md). -/

namespace Sys2Proof.Machine

/-! ## FAT commands and registers -/

/-- A write to FCP_RPTR (R200). -/
def fcpRptrWrite (w : Word) (d : Dev) : Dev :=
  let new := BitVec.ofNat 22 w.toNat
  if d.fcp.mode ≠ .append || d.fcp.clearing || d.fcp.held < (d.fcp.wptr - new).toNat then
    { d with fcp := { d.fcp with werr := true } }
  else { d with fcp := { d.fcp with rptr := new } }

/-- The FAT mode of an operand. -/
def fatModeOf (n : Nat) : FatMode := if n = 0 then .append else if n = 1 then .mergeMode else .count
/-- The code of a FAT mode (Table 8-10). -/
def FatMode.code : FatMode → Nat
  | .append => 0 | .mergeMode => 1 | .count => 2

/-- Region descriptors and states after a FAT mode selection (Table 9-6). -/
def Dev.raeModeSelected (d : Dev) : Dev :=
  let d := d.abortAnalysis .idle
  { d with
    rae := { d.rae with
      queue := []
      reg := [] }
    fcp := { d.fcp with
      src := Store.mapVals sourceReset (fun x => { x with region := none }) d.fcp.src } }

/-- FCP_MODE (R198). -/
def fcpMode (c : Tci) (o : Owner) (d : Dev) : Dev :=
  let n := (c.w 1).toNat
  if 2 < n then d.answer o .badOperand
  else if n = 1 && (match d.pendMode with | some m => !(m == 0 || m == 3 || m == 7) | none => false) then
    d.answer o .modeDenied
  else if d.fcp.clearing || !d.collectorsIdle then d.answer o .busy
  else
    let d := d.raeModeSelected
    { d with fcp := { d.fcp with
        mode := fatModeOf n
        fat := []
        bad := []
        clearing := true
        clrBusy := some o
        wptr := 0
        rptr := 0
        rloss := 0
        mlossCnt := 0
        noblkCnt := 0
        fc := [] } }

/-- FAT_CLEAR_DONE (R198). -/
def fatClearDone (d : Dev) : Dev :=
  if !d.fcp.clearing then d
  else
    let o := d.fcp.clrBusy
    let d := { d with fcp := { d.fcp with clearing := false, clrBusy := none } }
    (d.fire 75 (payload .ok 1 d.fcp.mode.code)).answer? o .ok

/-- Copy `n` entries from index `k` on, wrapping as the ring does, to host address `a`; the count of uncorrectable
entries comes back (R197). -/
def Dev.copyFat : Nat → Nat → Nat → Nat → Dev → Dev × Nat
  | 0, _, _, ue, d => (d, ue)
  | n + 1, k, a, ue, d =>
    let d' := (d.fatReadEffect k).setHost (wr128 d.cmd.hostMem a (d.fatRead128 k))
    Dev.copyFat n ((k + 1) % 2 ^ 21) (a + 16) (ue + b2n (d.fatBad k == 2)) d'

/-- FCP_READ (R197). -/
def fcpRead (c : Tci) (x : Dma) (o : Owner) (d : Dev) : Dev :=
  let adv := bit (c.w 1) 31
  let from' := bit (c.w 1) 30
  let start := fld (c.w 1) 0 21
  let n := fld (c.w 2) 0 22
  let a := (c.w64 3).toNat
  if fld (c.w 1) 21 9 != 0 || fld (c.w 2) 22 10 != 0 || n == 0 || decide (2 ^ 21 < n) || a % 16 != 0 then
    d.answer o .badOperand
  else if !from' && decide (2 ^ 21 < start + n) then d.answer o .badOperand
  else if (from' || adv) && decide (d.fcp.mode ≠ .append) then d.answer o .badOperand
  else if adv && decide (d.fcp.held < n) then d.answer o .badOperand
  else d.dma true c o fun d =>
    if x ≠ .done then d.dmaFail o x else
    let r := Dev.copyFat n (if from' then d.fcp.rptr.toNat % 2 ^ 21 else start) a 0 d
    let d := r.1
    let d := if adv then { d with fcp := { d.fcp with rptr := d.fcp.rptr + BitVec.ofNat 22 n } } else d
    d.complete o .ok (word n) (word r.2)

/-! ## Descriptors (R201, R202) -/

/-- A descriptor that may be stored (R202, Table 9-2). -/
def dscOk (w : QWord) : Bool :=
  if !dscValid w then w == 0
  else
    fld w 0 10 == 0 && fld w 62 2 == 0 && fld w 32 8 == 0 && fld w 64 20 == 0 && fld w 96 16 == 0 &&
    decide (dscSpr w ≤ 32) && decide (dscSpc w ≤ 32) &&
    decide (1 ≤ dscRowW w) && decide (dscRowW w ≤ 24) && decide (dscColW w ≤ 24) &&
    decide (dscRowLsb w + dscRowW w ≤ 48) && decide (dscColLsb w + dscColW w ≤ 48) &&
    decide (dscDlo w ≤ dscDhi w) && !(dscSrcAny w && dscSrc w != 0)

/-- The operands COUNT and FIRST of RAE_LOAD, RAE_READ and RAE_START, none when they name no range. -/
def raeRange (w : Word) : Option (Nat × Nat) :=
  let n := fld w 16 13
  let first := fld w 0 12
  if fld w 29 3 != 0 || fld w 12 4 != 0 || n == 0 || decide (4096 < n) || decide (4096 < first + n) then none
  else some (first, n)

/-- The region is QUEUED or ACTIVE. -/
def Region.inUse (g : Region) : Bool := decide (g.st = .queued) || decide (g.st = .active)

/-- RAE_LOAD (R201). -/
def raeLoad (c : Tci) (x : Dma) (o : Owner) (d : Dev) : Dev :=
  let a := (c.w64 2).toNat
  match raeRange (c.w 1) with
  | none => d.answer o .badOperand
  | some (first, n) =>
    if a % 16 ≠ 0 then d.answer o .badOperand
    else d.dma true c o fun d =>
      if x ≠ .done then d.dmaFail o x else
      let ws := (List.range n).map fun i => rd128 d.cmd.hostMem (a + 16 * i)
      if !ws.all dscOk then d.answer o .badOperand
      else if (List.range n).any fun i => (d.region (first + i)).inUse then d.answer o .busy
      else
        ({ d with rae := { d.rae with desc := Store.putList (fun _ => 0) d.rae.desc first ws } }).answer o .ok

/-- RAE_READ (R201). -/
def raeRead (c : Tci) (x : Dma) (o : Owner) (d : Dev) : Dev :=
  let a := (c.w64 2).toNat
  match raeRange (c.w 1) with
  | none => d.answer o .badOperand
  | some (first, n) =>
    if a % 16 ≠ 0 then d.answer o .badOperand
    else d.dma true c o fun d =>
      if x ≠ .done then d.dmaFail o x else
      let m := (List.range n).foldl (fun m i => wr128 m (a + 16 * i) (d.desc (first + i))) d.cmd.hostMem
      (d.setHost m).answer o .ok

/-! ## Queueing (R204, R205, R211) -/

/-- Put a region at the end of the queue. -/
def Dev.queueRegion (d : Dev) (r : Nat) : Dev :=
  ({ d with rae := { d.rae with queue := d.rae.queue ++ [r] } }).updRegion r fun g => { g with st := .queued }

/-- RAE_START (R205). -/
def raeStart (c : Tci) (o : Owner) (d : Dev) : Dev :=
  match raeRange (c.w 1) with
  | none => d.answer o .badOperand
  | some (first, n) =>
    let rs := (List.range n).map (first + ·)
    if d.fcp.mode ≠ .mergeMode then d.answer o .modeDenied
    else if !rs.all fun r => dscValid (d.desc r) then d.answer o .badOperand
    else if rs.any fun r => decide ((d.region r).st = .opened) || decide ((d.region r).st = .closing) then d.answer o .busy
    else (rs.foldl (fun d r => if (d.region r).inUse then d else d.queueRegion r) d).answer o .ok

/-- RAE_ABORT (Table 9-6). -/
def raeAbort (o : Owner) (d : Dev) : Dev :=
  let d := if d.rae.cur.isSome || d.rae.out.any (fun r => d.raeActive r.region) then d.abortAnalysis .closed else d
  let d := d.rae.queue.foldl (fun d r => d.updRegion r fun g => { g with st := .closed }) d
  ({ d with rae := { d.rae with queue := [] } }).answer o .ok

/-- Region `r` has nothing left that keeps it CLOSING. -/
def Region.mayLeave (g : Region) : Bool := decide (g.st = .closing) && g.waiting.isEmpty

/-- Region `r` leaves CLOSING where it may (R204, R205). -/
def Dev.leaveClosing (d : Dev) (r : Nat) : Dev :=
  if !(d.region r).mayLeave then d
  else
    let w := d.desc r
    if dscValid w && dscAuto w && d.rae.autoEn && decide (d.fcp.mode = .mergeMode) && d.mode.mode == 3 then d.queueRegion r
    else
      let d := d.updRegion r fun g => { g with st := .closed }
      if !dscValid w && d.rae.autoEn then d.fire 79 (payload .notPresent 1 r) else d

/-- REGION_CLOSE: region `r` leaves CLOSING, after every region of a smaller number that may leave in the same SPLL0
cycle (R204). A region that may leave when the command comes leaves in the command's cycle (DESIGN CHOICE, log 53). -/
def regionClose (r : Nat) (d : Dev) : Dev :=
  if !(d.region r).mayLeave then d
  else (((d.rae.reg.map (·.1)).filter fun k => decide (k < r)) ++ [r]).foldl Dev.leaveClosing d

/-! ## Analysis (R206 to R208) -/

/-- RAE_ANALYSIS_START: the region at the head of the queue becomes ACTIVE. -/
def raeAnalysisStart (d : Dev) : Dev :=
  match d.rae.queue with
  | [] => d
  | r :: rest =>
    if d.rae.st ≠ .idle || !d.domOn pdFat then d
    else
      ({ d with rae := { d.rae with queue := rest, st := .gather, region := r, cur := some { region := r } } }).updRegion r
        fun g => { g with st := .active }

/-- GATHER_DONE: the pass over the FAT ends (R206, R195). -/
def gatherDone (d : Dev) : Dev :=
  match d.rae.cur with
  | none => d
  | some a =>
    if d.rae.st ≠ .gather || !d.domOn pdFat then d
    else
      let r := a.region
      let found := d.gathered r
      let d := d.fcp.bad.foldl (fun d e =>
        let d := d.fatReadEffect e.1
        if e.2 = 2 then d.setRloss r 3 else d) d
      let loss := bit d.fcp.rloss r
      match found with
      | none =>
        d.endAnalysis a (recordWords .errLenExceeds 3 loss false r 0 65537 {}) .errLenExceeds loss .done
      | some cs =>
        { d with rae := { d.rae with
            st := .must
            cur := some { a with cells := cs, gathered := true, loss := loss } } }

/-- MUST_REPAIR_DONE (R207). -/
def mustRepairDone (d : Dev) : Dev :=
  match d.rae.cur with
  | none => d
  | some a =>
    if d.rae.st ≠ .must || !d.domOn pdFat then d
    else
      let w := d.desc a.region
      let root : RaeNode := { sr := dscSpr w, sc := dscSpc w }
      let infeasible := d.endAnalysis a (recordWords .infeasible 1 a.loss false a.region 0 a.cells.length {}) .infeasible a.loss .done
      match root.must a.cells true with
      | none => infeasible
      | some n =>
        let u := n.uncovered a.cells
        if u.isEmpty then
          d.endAnalysis a (recordWords .ok 0 a.loss false a.region 0 a.cells.length n) .ok a.loss .done
        else if 2 * n.sr * n.sc < u.length then infeasible
        else { d with rae := { d.rae with st := .search, cur := some { a with node := n } } }

/-- SEARCH_DONE (R208, Table 9-4). -/
def searchDone (d : Dev) : Dev :=
  match d.rae.cur with
  | none => d
  | some a =>
    if d.rae.st ≠ .search || !d.domOn pdFat then d
    else
      let x := d.searched a
      let r (st : Status) (outcome : Nat) (notopt : Bool) (n : RaeNode) : Dev :=
        d.endAnalysis a (recordWords st outcome a.loss notopt a.region x.nodes a.cells.length n) st a.loss .done
      match x.best with
      | some n => r .ok 0 x.expired n
      | none => if x.expired then r .timeout 2 false {} else r .infeasible 1 false {}

/-! ## Records (R209, R210) -/

/-- RECORD_WRITE: the waiting record goes to the ring, or the RAE waits for space or RING_EN (R210, R213). Bus Master
Enable 0 holds the write itself (R318) and makes no RING_WAIT. -/
def recordWrite (d : Dev) : Dev :=
  match d.rae.out with
  | [] => d
  | o :: rest =>
    if !d.domOn pdFat then d
    else
      let n := o.words.length / 4
      let size := 2 ^ (d.rae.log2u + 8)
      if d.rae.ringEn && decide ((d.rae.rhead - d.rae.rtail).toNat + n ≤ size) then
        if !d.cmd.bme then d
        else
          let ws := o.words.set 1 (o.words.getD 1 0 ||| word d.rae.seq.toNat)
          let m := (List.range n).foldl (fun m i =>
            wrWords m (d.rae.rbase.toNat + 16 * ((d.rae.rhead.toNat + i) % size)) ((ws.drop (4 * i)).take 4)) d.cmd.hostMem
          let d := d.setHost m
          let d := { d with rae := { d.rae with
            rhead := d.rae.rhead + BitVec.ofNat 20 n
            seq := d.rae.seq + 1
            out := rest
            st := if d.mode.mode = 7 then .held else .idle } }
          let d := if (d.region o.region).st = .active then d.updRegion o.region fun g => { g with st := o.next } else d
          let d := d.fire 76 (payload o.status 1 o.region)
          if o.loss then d.fire 78 (payload .refused 1 o.region) else d
      else if d.rae.st = .ringWait then d
      else ({ d with rae := { d.rae with st := .ringWait } }).fire 77 (payload .busy 1 0)

/-- The RAE at a mode change (Table 9-6). -/
def Dev.raeModeChange (d : Dev) (target : Nat) : Dev :=
  if target = 7 then
    let d := if d.rae.cur.isSome || d.rae.out.any (fun r => d.raeActive r.region) then d.abortAnalysis .closed else d
    if d.rae.st = .idle then { d with rae := { d.rae with st := .held } } else d
  else if (target = 0 || target = 3) && decide (d.rae.st = .held) then { d with rae := { d.rae with st := .idle } }
  else d

/-! ## Register writes (R214) -/

/-- A write to RAE_RBASE_LO (0), RAE_RBASE_HI (1) or RAE_RSIZE (2). -/
def raeRingWrite (reg : Nat) (w : Word) (d : Dev) : Dev :=
  if d.rae.st ≠ .idle || !d.rae.queue.isEmpty || decide (d.rae.rhead ≠ d.rae.rtail) || (reg == 2 && decide (8 < fld w 0 4)) then
    { d with rae := { d.rae with werr := true } }
  else
    let b := d.rae.rbase
    { d with rae := { d.rae with
        rbase := if reg = 0 then dword (word (w.toNat / 4096 * 4096)) (hi32 b) else if reg = 1 then dword (lo32 b) w else b
        log2u := if reg = 2 then fld w 0 4 else d.rae.log2u
        rhead := 0
        rtail := 0 } }

/-- A write to RAE_RTAIL. -/
def raeRtailWrite (w : Word) (d : Dev) : Dev :=
  let new := BitVec.ofNat 20 w.toNat
  if (d.rae.rhead - new).toNat ≤ (d.rae.rhead - d.rae.rtail).toNat then { d with rae := { d.rae with rtail := new } }
  else { d with rae := { d.rae with werr := true } }

/-- A write to RAE_CTL. -/
def raeCtlWrite (w : Word) (d : Dev) : Dev :=
  if fld w 0 16 = 0 then { d with rae := { d.rae with werr := true } }
  else { d with rae := { d.rae with ringEn := bit w 17, autoEn := bit w 16, defBudget := BitVec.ofNat 16 w.toNat } }

/-! ## The meanings -/

/-- FAIL_ENTRY of collector `k`. -/
def execFailEntry (k : Fin 8) (s : State) : Host.Outcome State Fault Refusal := s.onDev fun _ d => d.failEntryStep k
/-- COMPACTION_EXIT of collector `k`. -/
def execCompactionExit (k : Fin 8) (s : State) : Host.Outcome State Fault Refusal := s.onDev fun _ d => d.compactionExit k
/-- FAT_INGEST: how many entries each collector's output stage presents in this SPLL0 cycle. -/
def execFatIngest (present : List Nat) (s : State) : Host.Outcome State Fault Refusal :=
  s.onDev fun _ d => d.fatIngest present
/-- REGION_CLOSE of region `r`. -/
def execRegionClose (r : Fin 4096) (s : State) : Host.Outcome State Fault Refusal := s.onDev fun _ d => regionClose r d
/-- FAT_CLEAR_DONE. -/
def execFatClearDone (s : State) : Host.Outcome State Fault Refusal := s.onDev fun _ d => fatClearDone d
/-- RAE_ANALYSIS_START. -/
def execRaeAnalysisStart (s : State) : Host.Outcome State Fault Refusal := s.onDev fun _ d => raeAnalysisStart d
/-- GATHER_DONE. -/
def execGatherDone (s : State) : Host.Outcome State Fault Refusal := s.onDev fun _ d => gatherDone d
/-- MUST_REPAIR_DONE. -/
def execMustRepairDone (s : State) : Host.Outcome State Fault Refusal := s.onDev fun _ d => mustRepairDone d
/-- SEARCH_DONE. -/
def execSearchDone (s : State) : Host.Outcome State Fault Refusal := s.onDev fun _ d => searchDone d
/-- RECORD_WRITE. -/
def execRecordWrite (s : State) : Host.Outcome State Fault Refusal := s.onDev fun _ d => recordWrite d
/-- FCP_MODE. -/
def execFcpMode (c : Tci) (s : State) : Host.Outcome State Fault Refusal := s.onDev (runTciAt pdFat 0x40 c (fcpMode c))
/-- FCP_READ. -/
def execFcpRead (c : Tci) (x : Dma) (s : State) : Host.Outcome State Fault Refusal :=
  s.onDev (runTciAt pdFat 0x41 c (fcpRead c x))
/-- RAE_LOAD. -/
def execRaeLoad (c : Tci) (x : Dma) (s : State) : Host.Outcome State Fault Refusal :=
  s.onDev (runTciAt pdFat 0x50 c (raeLoad c x))
/-- RAE_READ. -/
def execRaeRead (c : Tci) (x : Dma) (s : State) : Host.Outcome State Fault Refusal :=
  s.onDev (runTciAt pdFat 0x51 c (raeRead c x))
/-- RAE_START. -/
def execRaeStart (c : Tci) (s : State) : Host.Outcome State Fault Refusal := s.onDev (runTciAt pdFat 0x52 c (raeStart c))
/-- RAE_ABORT. -/
def execRaeAbort (c : Tci) (s : State) : Host.Outcome State Fault Refusal := s.onDev (runTciAt pdFat 0x53 c raeAbort)
/-- FCP_RPTR_WRITE. -/
def execFcpRptrWrite (w : Word) (s : State) : Host.Outcome State Fault Refusal := s.onDev fun _ d => d.hostWrite pdFat 0x100008 w (fcpRptrWrite w)
/-- RAE_RING_WRITE: a write to RAE_RBASE_LO (0), RAE_RBASE_HI (1) or RAE_RSIZE (2). -/
def execRaeRingWrite (reg : Fin 3) (w : Word) (s : State) : Host.Outcome State Fault Refusal :=
  s.onDev fun _ d => d.hostWrite pdFat (0x110008 + 4 * reg.val) w (raeRingWrite reg w)
/-- RAE_RTAIL_WRITE. -/
def execRaeRtailWrite (w : Word) (s : State) : Host.Outcome State Fault Refusal := s.onDev fun _ d => d.hostWrite pdFat 0x110018 w (raeRtailWrite w)
/-- RAE_CTL_WRITE. -/
def execRaeCtlWrite (w : Word) (s : State) : Host.Outcome State Fault Refusal := s.onDev fun _ d => d.hostWrite pdFat 0x110000 w (raeCtlWrite w)

end Sys2Proof.Machine
end

