-- ==== Sys2Proof/Machine/Power.lean ====
section
/-! DEFINITION. The power domains (17_power_domains.md): requests, fences and refusals, entry, restore and wakes, the
supply warning, and the PWR registers. -/

namespace Sys2Proof.Machine

/-! ## Domains -/

/-- PWR_DSTATE's encoding (Table 17-12). -/
def DomSt.code : DomSt → Nat
  | .on => 0 | .retention => 1 | .off => 2 | .changing => 3
/-- The state that a STATE operand names (Table 10-2). -/
def domGoal (n : Nat) : Option DomSt := if n = 0 then some .on else if n = 1 then some .retention else if n = 2 then some .off else none
/-- PWR_DSTATE(w). -/
def Dev.dstate (d : Dev) (w : Nat) : Word :=
  word ((List.range 16).foldl (fun v i => v + at' (2 * i) (d.domain (16 * w + i)).st.code) 0)
/-- A domain that is always On (R378). -/
def alwaysOn (n : Nat) : Bool := n == 0 || n == 1 || n == 37 || n == 39

/-- PD_EQ8 to PD_EQ15, the implicit group of a mode change into or out of OM6 (Table 3-5). -/
def halfGroup : BitVec 40 := ofBits 40 ((List.range 8).map (10 + ·))

/-- The domains that a staged action names, in mode `m` (R220). -/
def actDomains (m : Nat) : Action → BitVec 40
  | .pwrGroup _ s => s
  | .mode t => if (t == 6) != (m == 6) then halfGroup else 0
  | .tsWrite _ _ _ => 0 | .tsSwap _ _ => 0 | .chCfg _ _ _ => 0 | .pageSwap _ _ => 0 | .pinmap _ _ _ => 0
  | .scrmask _ _ _ _ => 0 | .gang _ _ _ _ => 0 | .fabSwap _ => 0 | .calBulk _ => 0 | .routeSwap _ => 0 | .rampStart _ => 0

/-- Domain `n` is held: by a staged action, by a request in progress, or by a change in progress (R220, R386). -/
def Dev.domHeld (d : Dev) (n : Nat) : Bool :=
  d.openActs.any (fun a => bit (actDomains d.mode.mode a) n) || d.pwr.reqs.any (fun r => bit r.set n) ||
    decide ((d.domain n).st = .changing)

/-! ## Validation (R380) -/

/-- Table 17-3 against the modes of R222. -/
def Dev.pwrCheck (d : Dev) (state : Nat) (set : BitVec 40) (rsvd : Bool) (modes : List Nat) : Status :=
  let ns := bitsOf set
  if 3 ≤ state || ns.isEmpty || rsvd then .badOperand
  else if state ≠ 0 && ns.any alwaysOn then .badOperand
  else if ns.any fun n => modes.any fun m =>
      if state = 0 then m == 6 && bit halfGroup n else m != 7 && modeUsesDomain m n then .modeDenied
  else if ns.any d.domHeld then .busy
  else if ns.any fun n => d.bst.tests.any fun t => t.running && t.domain == n then .selfTestActive
  else .ok

/-! ## Fences (R381, R353) -/

/-- The drain of domain `n` starts: its edge closes, and its wake sources are watched (R384). -/
def Dev.closeEdge (d : Dev) (n : Nat) : Dev := d.updDomain n fun x => { x with closed := true, told := false, latch := false }
/-- The domain is unfenced. -/
def Dev.openEdge (d : Dev) (n : Nat) : Dev := d.updDomain n fun x => { x with closed := false, told := false, latch := false }

/-- A request starts: every named domain that is On and is to leave On is drained. -/
def Dev.startReq (d : Dev) (r : PwrReq) : Dev :=
  let ns := if r.goal = .on then [] else (bitsOf r.set).filter d.domOn
  let d := ns.foldl Dev.closeEdge d
  { d with pwr := { d.pwr with reqs := d.pwr.reqs ++ [{ r with draining := ofBits 40 ns, fenced := ns }] } }

/-- The two requests belong to one transaction, or are one. -/
def PwrReq.same (a b : PwrReq) : Bool := if a.slot.isSome then decide (a.slot = b.slot) else decide (a = b)

/-- Every domain of the requests that go with `r` has agreed. -/
def Dev.allAgreed (d : Dev) (r : PwrReq) : Bool := d.pwr.reqs.all fun x => !r.same x || x.draining == 0

/-- The requests of slot `t` end, and their domains are unfenced in order (R383). -/
def Dev.dropSlot (d : Dev) (t : Nat) : Dev :=
  let mine := d.pwr.reqs.filter fun r => decide (r.slot = some t) && !r.applied
  let d := (mine.flatMap PwrReq.fenced).foldl Dev.openEdge d
  { d with pwr := { d.pwr with reqs := d.pwr.reqs.filter fun r => !(decide (r.slot = some t) && !r.applied) } }

/-- Domain `n` refuses the request `r` (Table 17-4). -/
def Dev.refuses (d : Dev) (r : PwrReq) (n : Nat) : Bool :=
  if 2 ≤ n && n ≤ 17 then
    (List.range 4).any fun i =>
      let e := d.engine (4 * (n - 2) + i)
      !e.st.halted || e.sizeLog2 != 0 || e.refill.isSome || (d.stream (4 * (n - 2) + i)).left != 0
  else if 18 ≤ n && n ≤ 33 then
    match d.cfg.load with
    | some l => l.full || l.region == n - 18
    | none => false
  else if n = pdFat then
    !d.collectorsIdle || d.fcp.clearing || (r.goal == .off && (decide (d.rae.st ≠ .idle) || !d.rae.queue.isEmpty))
  else if n = pdNvs then
    d.nvBusy || !d.nvs.waiting.isEmpty || (List.range 64).any (fun k => match (d.engine k).refill with
      | some x => x.fromNv
      | none => false) || (match d.cfg.load with
      | some l => l.src == 1
      | none => false)
  else if n = pdVmi then
    (List.range 64).any (fun k => (d.stream k).left != 0 || (match (d.engine k).refill with
      | some x => !x.fromNv
      | none => false)) || (match d.cfg.load with
      | some l => l.src == 2
      | none => false)
  else if n = pdBy then
    (List.range 8).any (fun t => decide (r.slot ≠ some t) && (match (d.slot t).st with
      | .preparing => true | .ready => true | .voted => true
      | .committed => decide (2 ≤ (d.slot t).kind)
      | .free => false | .opened => false | .applied => false | .aborted => false | .outstep => false)) ||
      (d.time.role == .downstream && !d.allHalted)
  else false

/-- An enabled level source of domain `n` that the device can see is asserted (Table 17-8). -/
def Dev.levelWake (d : Dev) (n : Nat) : Option Nat :=
  let x := d.domain n
  if bit x.en 0 && d.pwr.expired then some 0
  else if bit x.en 1 && bit d.evt.stat x.evt.toNat then some 1
  else none

/-- How a fence ended: nothing decided yet, every domain of the request agreed, or a domain refused with a cause. -/
inductive FenceRes where
  | none
  | agreed (slot : Option Nat)
  | refused (slot : Option Nat) (cause : Status) (dom : Nat)
  deriving DecidableEq, Repr

/-- Domain `n` refuses request `r`: the request ends (R382 to R384), and a PWR_SET is answered (R388). -/
def Dev.refuseReq (d : Dev) (r : PwrReq) (cause : Status) (n : Nat) : Dev :=
  let d := match r.slot with
    | some t => d.dropSlot t
    | none =>
      let d := r.fenced.foldl Dev.openEdge d
      { d with pwr := { d.pwr with reqs := d.pwr.reqs.erase r } }
  let d := { d with pwr := { d.pwr with lstatus := cause, ldomain := n } }
  let d := d.fire 177 (payload cause (if cause = .wakePending then 2 else 1) n)
  match r.owner with
  | some o => d.complete o cause (word n) 0
  | none => d

/-- The request that drains domain `n`. -/
def Dev.drainer (d : Dev) (n : Nat) : Option PwrReq := d.pwr.reqs.find? fun r => bit r.draining n

/-- A request is neither answered nor timed out that an initiator in domain `n` sent, or one is not answered that was accepted
into the domain (R353). -/
def Dev.outstanding (d : Dev) (n : Nat) : Bool :=
  (d.noc.tags.any fun e => decide (e.2 = .outstanding) && decide (srcDomain (e.1 / 1024) = some n)) ||
  (d.fab.delivered.any fun x => decide (srcDomain (40 + x.1) = some n) && x.2.1 != 2) ||
  (d.fab.inbox.any fun x => decide (srcDomain (40 + x.2.1) = some n)) ||
  (decide (n = pdNvs) && !d.nvs.waiting.isEmpty)

/-- Change the request that drains domain `n`. -/
def Dev.updDrainer (d : Dev) (n : Nat) (f : PwrReq → PwrReq) : Dev :=
  { d with pwr := { d.pwr with reqs := d.pwr.reqs.map fun r => if bit r.draining n then f r else r } }

/-- A PWR_SET of which every domain agrees applies at the first boundary at least 1 µs later (R388). -/
def Dev.agreeSet (d : Dev) (r : PwrReq) : Dev :=
  { d with pwr := { d.pwr with reqs := d.pwr.reqs.map fun x =>
      if x = r then { x with agreed := true, due := d.boundariesFor 1000 } else x } }

/-- The fence of domain `n` is complete (R382): it agrees or refuses. -/
def Dev.fenceStep (d : Dev) (n : Nat) : Dev × FenceRes :=
  match d.drainer n with
  | none => (d, .none)
  | some r =>
    if d.outstanding n then (d, .none)
    else if d.refuses r n then (d.refuseReq r .refused n, .refused r.slot .refused n)
    else if (d.domain n).latch || (d.levelWake n).isSome then (d.refuseReq r .wakePending n, .refused r.slot .wakePending n)
    else
      let r' := { r with draining := clrBit r.draining n }
      let d := d.updDrainer n fun x => { x with draining := clrBit x.draining n }
      if !d.allAgreed r' then (d, .none)
      else if r.slot.isSome then (d, .agreed r.slot)
      else (d.agreeSet r', .agreed none)

/-- The drain of domain `n` exceeds NOC_DRAIN (R353, R382). -/
def Dev.drainLate (d : Dev) (n : Nat) : Dev × FenceRes :=
  match d.drainer n with
  | none => (d, .none)
  | some r =>
    (({ d with noc := { d.noc with drainFail := true } }).refuseReq r .refused n, .refused r.slot .refused n)

/-! ## Entry and restore (R385, R386, Tables 17-5 to 17-7) -/

/-- Step 1 of the entry: the clocks of domain `n`, which was On, are gated. -/
def Dev.leaveOn (d : Dev) (n : Nat) : Dev :=
  if 2 ≤ n && n ≤ 17 then
    (d.channelsSafe ((List.range 4).map (4 * (n - 2) + ·)) (64 * d.now : Nat)).discardQuad (n - 2)
  else if 18 ≤ n && n ≤ 33 then d.enterHold (n - 18)
  else if n = pdNvs then d.logDegrade 2 0x3FF
  else if n = pdBy then d.portsOff
  else d

/-- Domain `n` is Off: it loses everything (R379). The Pin Map of an engine lies in PD_TIM, the flash and its zones keep
their contents. -/
def Dev.domainLost (d : Dev) (n : Nat) : Dev :=
  if 2 ≤ n && n ≤ 17 then
    times 4 (fun i d =>
      let k := 4 * (n - 2) + i
      let x := d.channel k
      (d.updEngine k fun e => { pinmap := e.pinmap }).setChannel k { d := x.d, e := x.e, dDriven := x.dDriven }) d
  else if 18 ≤ n && n ≤ 33 then
    let r := n - 18
    let d := d.gsrAssert r
    let f := d.fab
    { d with fab := { f with
        mem := Store.clear f.mem fun k => k / (4096 * 24) == r
        port := Store.clear f.port fun k => k / 48 == r
        reg := Store.upd fabRegionReset f.reg r fun x => { x with fxDrop := false, rspDrop := false } } }
  else if n = pdFat then
    { d with fcp := { src := Store.mapVals sourceReset (fun s => { s with region := none }) d.fcp.src }, rae := {} }
  else if n = pdNvs then
    { d with nvs := { words := d.nvs.words, lost := d.nvs.lost, row := d.nvs.row, rowLost := d.nvs.rowLost,
                      zone := d.nvs.zone, ecnt := d.nvs.ecnt } }
  else if n = pdVmi then { d with vmi := { wipe := d.vmi.wipe, ranks2 := d.vmi.ranks2, rate := d.vmi.rate, refreshed := d.vmi.refreshed } }
  else if n = pdBy then
    { d with byt := { uid := d.byt.uid, aligned := d.byt.aligned && decide (d.time.role = .root),
                      jstate := if d.time.role = .root then .root else .none, sent := d.byt.sent } }
  else d

/-- Domain `n` changes to `goal` (R385, R386). -/
def Dev.beginChange (d : Dev) (n : Nat) (goal : DomSt) : Dev :=
  let d := if goal != .on && d.domOn n then d.leaveOn n else d
  d.updDomain n fun x => { x with st := .changing, goal := goal, closed := true,
                                  latch := if goal = .on then false else x.latch }

/-- A wake: the restore starts and EV178 fires (R387). -/
def Dev.wakeDomain (d : Dev) (n src : Nat) : Dev := (d.beginChange n .on).fire 178 (payload .ok 1 (256 * src + n))

/-- The entry or the restore of domain `n` is complete for the requests that wait for it; a request with none left raises
EV176 and is answered (R388, R389). -/
def Dev.changeDone (d : Dev) (n : Nat) : Dev :=
  let rs := d.pwr.reqs.map fun r => { r with left := clrBit r.left n }
  let fin := rs.filter fun r => r.applied && r.left == 0
  let d := { d with pwr := { d.pwr with reqs := rs.filter fun r => !(r.applied && r.left == 0) } }
  fin.foldl (fun d r =>
    (d.fire 176 (payload .ok 1 ((bitsOf r.set).headD 0))).answer? r.owner .ok) d

/-- A request applies at its boundary, in step 1 of R34: every domain not yet in the target state changes. -/
def Dev.applyReq (d : Dev) (r : PwrReq) : Dev :=
  let ns := (bitsOf r.set).filter fun n => (d.domain n).st != r.goal
  let d := ns.foldl (fun d n => d.beginChange n r.goal) d
  let r' := { r with applied := true, left := ofBits 40 ns }
  let d := { d with pwr := { d.pwr with
    lstatus := .ok, ldomain := 0, reqs := d.pwr.reqs.map fun x => if x = r then r' else x } }
  if ns.isEmpty then d.changeDone 0 else d

/-- The requests of slot `t` apply. -/
def Dev.applySlot (d : Dev) (t : Nat) : Dev :=
  (d.pwr.reqs.filter fun r => decide (r.slot = some t) && !r.applied).foldl Dev.applyReq d

/-- PWR_SET requests count boundaries and apply (R388). -/
def Dev.pwrBeat (d : Dev) : Dev :=
  let d := { d with pwr := { d.pwr with reqs := d.pwr.reqs.map fun (r : PwrReq) =>
    if r.slot.isNone && r.agreed && !r.applied then { r with due := r.due - 1 } else r } }
  (d.pwr.reqs.filter fun r => r.slot.isNone && r.agreed && !r.applied && r.due == 0).foldl Dev.applyReq d

/-- ENTRY_DONE: domain `n` is in Retention or Off; a latched or asserted wake then starts its restore (R384, R385). -/
def entryDone (n : Nat) (d : Dev) : Dev :=
  let x := d.domain n
  if x.st ≠ .changing || x.goal = .on then d
  else
    let off := decide (x.goal = .off)
    let d := d.updDomain n fun x => { x with st := x.goal, lost := x.lost || off }
    let d := if off then
        let d := d.domainLost n
        { d with
          noc := { d.noc with held := d.noc.held.filter fun h => h.1 != n }
          fab := { d.fab with delivered := d.fab.delivered.filter fun x => decide (srcDomain (40 + x.1) ≠ some n) } }
      else d
    let d := d.changeDone n
    let x := d.domain n
    if x.latch then d.wakeDomain n x.latchSrc
    else match d.levelWake n with
      | some src => d.wakeDomain n src
      | none => d

/-- RESTORE_DONE: domain `n` is On, its edge opens and EV179 fires (R386, Table 17-7). -/
def restoreDone (n : Nat) (d : Dev) : Dev :=
  let x := d.domain n
  if x.st ≠ .changing || x.goal ≠ .on then d
  else
    let d := d.updDomain n fun x => { x with st := .on, lost := false, closed := false, told := false, latch := false }
    let d := if 18 ≤ n && n ≤ 33 then
        let d := if x.lost then d.loadMems (n - 18) (d.actPlane (n - 18)) else d
        d.enterHold (n - 18)
      else if n = pdVmi && x.lost then d.startTraining true
      else if n = pdBy then d.trainPorts
      else d
    (d.fire 179 (payload .ok 1 n)).changeDone n

/-- WAKE: source `src` of domain `n` fires; `lost` says that an edge fell into the three cycles after the commit point
(R384, R387). Up to the commit point a level that the device sees itself counts only if it is asserted there. -/
def wake (n src : Nat) (lost : Bool) (d : Dev) : Dev :=
  let x := d.domain n
  let seen := if src = 0 then d.pwr.expired else if src = 1 then bit d.evt.stat x.evt.toNat else true
  let latched := d.updDomain n fun x => { x with latch := true, latchSrc := src }
  if !bit x.en src || !seen then d
  else match x.st with
    | .retention => d.wakeDomain n src
    | .off => d.wakeDomain n src
    | .changing => if x.goal = .on then d else latched
    | .on =>
      if (d.drainer n).isSome then (if src ≤ 1 then d else latched)
      else if d.pwr.reqs.any fun r => r.fenced.contains n && !r.applied then
        if lost && (src = 2 || src = 4) then d else latched
      else d

/-! ## Commands (R388) -/

/-- PWR_SET. -/
def pwrSet (c : Tci) (o : Owner) (d : Dev) : Dev :=
  let w3 := c.w 3
  let set : BitVec 40 := BitVec.ofNat 40 ((c.w 2).toNat + at' 32 (fld w3 0 8))
  let modes := d.mode.mode :: (match d.pendMode with
    | some m => [m]
    | none => [])
  let st := d.pwrCheck (fld (c.w 1) 0 2) set (fld w3 8 24 != 0) modes
  match st, domGoal (fld (c.w 1) 0 2) with
  | .ok, some goal =>
    let r : PwrReq := { owner := some o, goal := goal, set := set }
    let d := d.startReq r
    match d.pwr.reqs.getLast? with
    | some r => if r.draining = 0 then d.agreeSet r else d
    | none => d
  | _, _ => ({ d with pwr := { d.pwr with lstatus := st } }).answer o st

/-- PWR_QUERY. -/
def pwrQuery (c : Tci) (o : Owner) (d : Dev) : Dev :=
  if bit (c.w 1) 0 then d.complete o .ok (d.dstate 2) 0 else d.complete o .ok (d.dstate 0) (d.dstate 1)

/-! ## Supply and registers (R375, R387, R390) -/

/-- DROOP: VIN falls below the threshold (R375). -/
def droop (mv : Nat) (d : Dev) : Dev :=
  let d := { d with pwr := { d.pwr with vinMv := mv } }
  if d.pwr.droop || d.pwr.droopMv ≤ mv then d
  else
    let d := { d with pwr := { d.pwr with droop := true, seen := true }
                      log := { d.log with opened := d.log.opened.map fun (o : OpenRec) => { o with due := true } } }
    (d.fire 248 (payload .ok 1 (mv / 100))).nvDroop

/-- DROOP_CLEAR: VIN rises 200 mV above the threshold. -/
def droopClear (mv : Nat) (d : Dev) : Dev :=
  let d := { d with pwr := { d.pwr with vinMv := mv } }
  if !d.pwr.droop || mv < d.pwr.droopMv + 200 then d
  else ({ d with pwr := { d.pwr with droop := false } }).nvDroopClear

/-- PWR_STAT.WERR is set. -/
def Dev.pwrWerr (d : Dev) : Dev := { d with pwr := { d.pwr with werr := true } }
/-- A write to PWR_VIN_CFG. -/
def vinCfgWrite (w : Word) (d : Dev) : Dev :=
  let mv := fld w 0 16
  if mv < 4300 || 17500 < mv then d.pwrWerr else { d with pwr := { d.pwr with droopMv := mv } }
/-- A write to PWR_WAKE(n). -/
def pwrWakeWrite (n : Nat) (w : Word) (d : Dev) : Dev :=
  if fld w 16 15 != 0 || fld w 5 3 != 0 || (alwaysOn n && fld w 0 5 != 0) then d.pwrWerr
  else d.updDomain n fun x => { x with en := BitVec.ofNat 5 w.toNat, evt := BitVec.ofNat 8 (fld w 8 8) }
/-- A write to PWR_TIMER. -/
def pwrTimerWrite (w : Word) (d : Dev) : Dev :=
  { d with pwr := { d.pwr with
      timerEn := bit w 31, expired := d.pwr.expired && !bit w 30, countUs := BitVec.ofNat 24 w.toNat
      timerAt := d.time.ticks } }
/-- PWR_TIMER_EXPIRED. -/
def pwrTimerExpired (d : Dev) : Dev :=
  if d.pwr.timerEn then { d with pwr := { d.pwr with expired := true, countUs := 0 } } else d

/-! ## Meanings -/

/-- ENTRY_DONE. -/
def execEntryDone (n : Fin 40) (s : State) : Host.Outcome State Fault Refusal := s.onDev fun _ d => entryDone n d
/-- WAKE. -/
def execWake (n : Fin 40) (src : Fin 5) (lost : Bool) (s : State) : Host.Outcome State Fault Refusal :=
  s.onDev fun _ d => wake n src lost d
/-- PWR_SET. -/
def execPwrSet (c : Tci) (s : State) : Host.Outcome State Fault Refusal := s.onDev (runTci 0x80 c (pwrSet c))
/-- PWR_QUERY. -/
def execPwrQuery (c : Tci) (s : State) : Host.Outcome State Fault Refusal := s.onDev (runTci 0x81 c (pwrQuery c))
/-- DROOP. -/
def execDroop (mv : Nat) (s : State) : Host.Outcome State Fault Refusal := s.onDev fun _ d => droop mv d
/-- DROOP_CLEAR. -/
def execDroopClear (mv : Nat) (s : State) : Host.Outcome State Fault Refusal := s.onDev fun _ d => droopClear mv d
/-- PWR_WAKE_WRITE. -/
def execPwrWakeWrite (n : Fin 40) (v : Word) (s : State) : Host.Outcome State Fault Refusal :=
  s.onDev fun _ d => pwrWakeWrite n v d
/-- PWR_TIMER_WRITE. -/
def execPwrTimerWrite (v : Word) (s : State) : Host.Outcome State Fault Refusal := s.onDev fun _ d => pwrTimerWrite v d
/-- PWR_TIMER_EXPIRED. -/
def execPwrTimerExpired (s : State) : Host.Outcome State Fault Refusal := s.onDev fun _ d => pwrTimerExpired d

end Sys2Proof.Machine
end

