-- ==== Sys2Proof/Machine/Flags.lean ====
section
/-! DEFINITION. Every flag computation of the Yunor instruction set: the ALU (R110, Table 5-9), the generators (Table
5-7), the data generator (Table 5-8) and the conditions (Table 5-4). -/

namespace Sys2Proof.Machine

/-- The result of an ALU operation with its flags. -/
structure AluOut where
  res : Word
  c : Bool
  v : Bool
  deriving DecidableEq, Repr

/-- A logical operation: C and V are 0 (R110). -/
def aluLogic (r : Word) : AluOut := ⟨r, false, false⟩

/-- RA op B (Table 5-9, R110). -/
def alu (op : Nat) (a b : Word) : AluOut :=
  let k := b.toNat % 32
  match op with
  | 0 => ⟨a + b, decide (2 ^ 32 ≤ a.toNat + b.toNat), a.msb == b.msb && (a + b).msb != a.msb⟩
  | 1 => ⟨a - b, decide (b.toNat ≤ a.toNat), a.msb != b.msb && (a - b).msb != a.msb⟩
  | 2 => aluLogic (a &&& b)
  | 3 => aluLogic (a ||| b)
  | 4 => aluLogic (a ^^^ b)
  | 5 => ⟨a <<< k, k != 0 && bit a (32 - k), false⟩
  | 6 => ⟨a >>> k, k != 0 && bit a (k - 1), false⟩
  | 7 => ⟨a.sshiftRight k, k != 0 && bit a (k - 1), false⟩
  | 8 => ⟨a - b, decide (b.toNat ≤ a.toNat), a.msb != b.msb && (a - b).msb != a.msb⟩
  | _ => aluLogic (a &&& b)

/-- Z, N, C and V of a result (R110). -/
def Arch.setAlu (a : Arch) (r : AluOut) : Arch :=
  (((a.setFlag 0 (decide (r.res = 0))).setFlag 1 r.res.msb).setFlag 2 r.c).setFlag 3 r.v

/-- What a generator operation does to its generator, its limit and its wrap flag. -/
structure GenOut where
  a : BitVec 24
  m : BitVec 24
  w : Option Bool
  deriving DecidableEq, Repr

/-- The operations of Table 5-7 on one generator; INCY and DECY act as INC and DEC on XA. -/
def genop (code : Nat) (a m imm : BitVec 24) (g : Word) : GenOut :=
  match code with
  | 1 => ⟨BitVec.ofNat 24 ((a.toNat + 1) % (m.toNat + 1)), m, some (decide (m.toNat < a.toNat + 1))⟩
  | 2 => ⟨if a = 0 then m else a - 1, m, some (decide (a = 0))⟩
  | 3 => ⟨0, m, some false⟩
  | 4 => ⟨m, m, some false⟩
  | 5 => ⟨m - a, m, some false⟩
  | 6 => ⟨BitVec.ofNat 24 ((a.toNat + 1) % (m.toNat + 1)), m, some (decide (m.toNat < a.toNat + 1))⟩
  | 7 => ⟨if a = 0 then m else a - 1, m, some (decide (a = 0))⟩
  | 8 => ⟨imm, m, some false⟩
  | 9 => ⟨BitVec.ofNat 24 ((a.toNat + imm.toNat) % (m.toNat + 1)), m, some (decide (m.toNat < a.toNat + imm.toNat))⟩
  | 10 => ⟨a, imm, none⟩
  | 11 => ⟨BitVec.ofNat 24 g.toNat, m, some false⟩
  | _ => ⟨a, m, none⟩

/-- Write a wrap flag where the operation wrote one. -/
def Arch.setWrap (a : Arch) (i : Nat) : Option Bool → Arch
  | some b => a.setFlag i b
  | none => a

/-- Apply a code of Table 5-7 to XA; INCY and DECY step YA when XA wrapped (R116). -/
def Arch.xop (a : Arch) (code : Nat) (imm : BitVec 24) (g : Word) : Arch :=
  let x := genop code a.xa a.xmax imm g
  let b := ({ a with xa := x.a, xmax := x.m }).setWrap 4 x.w
  if code = 6 || code = 7 then
    if x.w = some true then
      let y := genop (code - 5) a.ya a.ymax 0 0
      ({ b with ya := y.a }).setWrap 5 y.w
    else b.setFlag 5 false
  else b

/-- Apply a code of Table 5-7 to YA. -/
def Arch.yop (a : Arch) (code : Nat) (imm : BitVec 24) (g : Word) : Arch :=
  let y := genop code a.ya a.ymax imm g
  ({ a with ya := y.a, ymax := y.m }).setWrap 5 y.w

/-- Apply a code of Table 5-8 to DG; `ckb` says that XA[0] XOR YA[0] changed (code CKB, VGEN only). -/
def dgop (code : Nat) (dg : DWord) (imm ga gb : Word) (ckb : Bool) : DWord :=
  match code with
  | 1 => ~~~dg
  | 2 => dg.rotateLeft 1
  | 3 => dg.rotateRight 1
  | 4 => if ckb then ~~~dg else dg
  | 5 => (dg <<< 1) ||| BitVec.ofNat 64 (b2n (bit dg 30 != bit dg 27))
  | 6 => dword (hi32 dg) (lo32 dg)
  | 8 => dword imm (hi32 dg)
  | 9 => dword (lo32 dg) imm
  | 10 => dword ga gb
  | _ => dg

/-- A condition code is true (Table 5-4). -/
def condTrue (cond : Nat) (f : BitVec 16) : Bool :=
  match cond with
  | 0 => true
  | 1 => bit f 6
  | 2 => bit f 7
  | 3 => bit f 0
  | 4 => bit f 1
  | 5 => bit f 2
  | 6 => bit f 3
  | 7 => bit f 4
  | 8 => bit f 5
  | 9 => bit f 9
  | 10 => bit f 10
  | 11 => bit f 8
  | 12 => bit f 1 == bit f 3
  | 13 => !bit f 0 && bit f 1 == bit f 3
  | 14 => bit f 2 && !bit f 0
  | _ => false

end Sys2Proof.Machine
end

