-- ==== Sys2Proof/Machine/Operands.lean ====
section
/-! DEFINITION. The Yunor instruction word: its fields, the reserved encodings (R101, R104, Tables 5-5 and 5-11), the
register selectors (Table 5-6) and the symbols that VGEN forms through the Pin Map (R92). -/

namespace Sys2Proof.Machine

/-- OPC (Table 5-1). -/
def opc (w : DWord) : Nat := fld w 58 6
/-- TS. -/
def opTs (w : DWord) : Nat := fld w 52 6
/-- COND or MOD. -/
def opMod (w : DWord) : Nat := fld w 48 4
/-- RA. -/
def opRa (w : DWord) : Nat := fld w 36 3
/-- RB. -/
def opRb (w : DWord) : Nat := fld w 32 3
/-- RD. -/
def opRd (w : DWord) : Nat := fld w 40 3
/-- The 32-bit immediate. -/
def opImm (w : DWord) : Word := lo32 w
/-- IMM24. -/
def opImm24 (w : DWord) : BitVec 24 := BitVec.ofNat 24 w.toNat
/-- The 12-bit target. -/
def opAddr (w : DWord) : BitVec 12 := BitVec.ofNat 12 w.toNat
/-- REPEAT_M1, COUNT_M1, ARG, TMO or FRAC. -/
def op16 (w : DWord) : Nat := fld w 0 16
/-- The loop counter of LOOP and MLOOP. -/
def opLc (w : DWord) : Nat := fld w 44 2

/-- A mask of the bits hi to lo. -/
def span (hi lo : Nat) : Nat := 2 ^ (hi + 1) - 2 ^ lo

/-- The operand bits that an opcode's layout assigns (Table 5-5); none for an unused opcode. -/
def operandBits (op : Nat) : Option Nat :=
  match op with
  | 0x01 => some (span 47 40 + span 15 0) | 0x02 => some (span 47 4) | 0x03 => some (span 15 0)
  | 0x04 => some (span 16 0) | 0x05 => some (span 15 0)
  | 0x10 => some 0 | 0x11 => some (span 11 0) | 0x12 => some (span 11 0) | 0x13 => some 0
  | 0x14 => some (span 16 16 + span 11 0) | 0x15 => some (span 45 44 + span 11 0)
  | 0x16 => some (span 45 44 + span 3 0) | 0x17 => some (span 11 0) | 0x18 => some 0
  | 0x20 => some (span 44 40 + span 31 0) | 0x21 => some (span 42 40 + span 38 36 + span 34 32)
  | 0x22 => some (span 42 40 + span 38 36 + span 31 0)
  | 0x23 => some (span 38 36 + span 23 0) | 0x24 => some (span 38 36 + span 23 0)
  | 0x25 => some (span 38 36 + span 34 32 + span 31 0) | 0x26 => some (span 3 0)
  | 0x27 => some (span 44 40 + span 36 32)
  | 0x30 => some (span 47 40 + span 38 36 + span 34 32 + span 15 0)
  | 0x31 => some (span 38 36 + span 34 32 + span 15 0) | 0x32 => some (span 15 0)
  | 0x33 => some (span 31 0) | 0x34 => some (span 7 0) | 0x35 => some (span 42 40 + span 38 36)
  | _ => none

/-- The values of COND or MOD that an opcode's layout admits before its own rules (Table 5-5). -/
def modOk (op m : Nat) : Bool :=
  match op with
  | 0x02 => m % 8 == 0
  | 0x04 => m != 1 && m != 2 && m != 15
  | 0x14 => m != 15
  | 0x21 => decide (m ≤ 9) | 0x22 => decide (m ≤ 9)
  | 0x23 => decide (m ≤ 11) | 0x24 => decide (m ≤ 11) && m != 6 && m != 7
  | 0x25 => decide (m ≤ 10) && m != 4 && m != 7
  | 0x30 => decide (m ≤ 1) | 0x32 => decide (m ≤ 6) | 0x33 => decide (m ≤ 1)
  | 0x35 => decide (1 ≤ m) && decide (m ≤ 3)
  | _ => m == 0

/-- The further rules of Table 5-11 that the instruction alone decides; `pc` is its address. -/
def fieldsOk (w : DWord) (pc : BitVec 12) : Bool :=
  let m := opMod w
  match opc w with
  | 0x02 =>
    let x := fld w 12 4
    let y := fld w 8 4
    decide (x ≤ 7) && decide (y ≤ 5) && decide (fld w 4 4 ≤ 6) && !((x == 6 || x == 7) && y != 0)
  | 0x15 => decide ((opAddr w).toNat ≤ pc.toNat)
  | 0x20 =>
    let r := fld w 40 5
    decide (r ≤ 17) && !(decide (8 ≤ r) && decide (r ≤ 15) && fld w 24 8 != 0)
  | 0x21 => !((m == 8 || m == 9) && opRd w != 0)
  | 0x22 => !((m == 8 || m == 9) && opRd w != 0) && !((m == 5 || m == 6 || m == 7) && fld w 5 27 != 0)
  | 0x23 => (m == 8 || m == 9 || m == 10 || fld w 0 24 == 0) && (m == 11 || opRa w == 0)
  | 0x24 => (m == 8 || m == 9 || m == 10 || fld w 0 24 == 0) && (m == 11 || opRa w == 0)
  | 0x25 => (m == 8 || m == 9 || fld w 0 32 == 0) && (m == 10 || (opRa w == 0 && opRb w == 0))
  | 0x27 => decide (fld w 40 5 ≤ 17) && decide (fld w 32 5 ≤ 18)
  | 0x30 => !(m == 1 && fld w 40 8 != 0)
  | 0x32 =>
    if m == 2 || m == 3 then fld w 12 4 == 0 else if m == 4 then true else op16 w == 0
  | 0x35 =>
    (if m % 2 == 1 then opRa w % 2 == 0 else opRa w == 0) && (if m / 2 == 1 then opRd w % 2 == 0 else opRd w == 0)
  | _ => true

/-- The word at address `pc` is a legal encoding in its own right (R101, R104). -/
def legal (w : DWord) (pc : BitVec 12) : Bool :=
  match operandBits (opc w) with
  | none => false
  | some bits =>
    (decide (opc w ≤ 5) || opTs w == 0) && modOk (opc w) (opMod w) &&
      (w.toNat % 2 ^ 48 &&& (2 ^ 48 - 1 - bits)) == 0 && fieldsOk w pc

/-- The instruction may stand in an MLOOP body (R120). -/
def bodyOk (w : DWord) : Bool :=
  let o := opc w
  o == 1 || o == 2 || o == 0x10 || (decide (0x20 ≤ o) && decide (o ≤ 0x27)) ||
    (o == 0x32 && opMod w != 6) || o == 0x33 || o == 0x34 || o == 0x35

/-- The instruction is one that a body run from the loop buffer must not contain (R119). -/
def isFlow (w : DWord) : Bool := decide (0x11 ≤ opc w) && decide (opc w ≤ 0x17)

/-! ## Register selectors (R111, Table 5-6) -/

/-- Read a selector; narrow sources are zero-extended. -/
def Engine.readSel (e : Engine) (s : Nat) : Word :=
  if s < 8 then e.a.gr s
  else if s < 12 then (e.a.lcr (s - 8)).zeroExtend 32
  else if s = 12 then e.a.xa.zeroExtend 32 else if s = 13 then e.a.ya.zeroExtend 32
  else if s = 14 then e.a.xmax.zeroExtend 32 else if s = 15 then e.a.ymax.zeroExtend 32
  else if s = 16 then lo32 e.a.dg else if s = 17 then hi32 e.a.dg
  else e.flagsNow.zeroExtend 32

/-- Write a selector; a 24-bit destination takes bits [23:0]. -/
def Arch.writeSel (a : Arch) (s : Nat) (v : Word) : Arch :=
  let v24 := BitVec.ofNat 24 v.toNat
  if s < 8 then a.setG s v
  else if s < 12 then a.setLc (s - 8) v24
  else if s = 12 then { a with xa := v24 } else if s = 13 then { a with ya := v24 }
  else if s = 14 then { a with xmax := v24 } else if s = 15 then { a with ymax := v24 }
  else if s = 16 then { a with dg := dword v (hi32 a.dg) } else { a with dg := dword (lo32 a.dg) v }

/-! ## The Pin Map (R92, R94) -/

/-- The scramble bit of a channel whose engine is `e`, from the leader's generators `a` (R94). -/
def scramble (a : Arch) (e : Engine) : Bool :=
  let par (n : Nat) : Bool := n % 2 == 1
  ((par (popcount (a.xa &&& e.scrx)) != par (popcount (a.ya &&& e.scry))) != par (popcount (a.dg &&& e.scrd))) != e.scrinv

/-- The source bit of a Pin Map entry (Table 4-6). -/
def pinBit (a : Arch) (e : Engine) (x : BitVec 16) : Bool :=
  let b := fld x 5 6
  let v := match fld x 11 3 with
    | 0 => bit a.xa b
    | 1 => bit a.ya b
    | 2 => bit a.dg b
    | 3 => scramble a e
    | 4 => false
    | 5 => true
    | _ => false
  v != bit x 4

/-- The symbol pair of a GEN vector on a channel, none where its entry is OFF (R92). -/
def genSymbols (a : Arch) (e : Engine) (x : BitVec 16) (w : DWord) : Option (BitVec 4 × BitVec 4) :=
  let b := pinBit a e x
  let write := bit w 51
  match fld x 14 2 with
  | 0 => some (if b then (1, 1) else (0, 0))
  | 1 => some (if write then (if b then (1, 1) else (0, 0)) else (if b then (4, 4) else (3, 3)))
  | 2 =>
    let k := fld x 5 2
    some (BitVec.ofNat 4 (fld w (44 - 8 * k) 4), BitVec.ofNat 4 (fld w (40 - 8 * k) 4))
  | _ => none

/-- A Pin Map entry that a write may hold (R93). -/
def pinOk (w : Word) : Bool :=
  let src := fld w 11 3
  let b := fld w 5 6
  fld w 16 16 == 0 && fld w 0 4 == 0 && decide (src ≤ 5) &&
    (if src ≤ 1 then decide (b ≤ 23) else if src = 2 then true else b == 0) &&
    !(fld w 14 2 == 2 && (src != 0 || fld w 7 4 != 0))

end Sys2Proof.Machine
end

