-- ==== Sys2Proof/Machine/Vector.lean ====
section
/-! DEFINITION. A vector from its fetch to its start at the ball 10 ECLK later (R13, R35): what it is formed from, the vectors
in flight, and what its start does. -/

namespace Sys2Proof.Machine

/-! ## What is in force when a vector starts (R35) -/

/-- The actions of the committed transactions whose boundaries lie after the current one and at or before ECLK `t`: the device
knows them ahead of time (R35). -/
def Dev.actsBy (d : Dev) (t : Nat) : List Action :=
  if t < d.time.base + d.time.mult then []
  else
    let last := d.time.gci.toNat + (t - d.time.base) / d.time.mult
    (List.range 8).flatMap fun k =>
      let x := d.slot k
      if x.st = .committed && x.target.epoch = d.time.epoch && decide (d.time.gci.toNat < x.target.gci.toNat) &&
          decide (x.target.gci.toNat ≤ last) then x.acts else []

/-- Timing set `ts` of channel `c` as a vector that starts at ECLK `t` uses it. -/
def Dev.setAt (d : Dev) (c ts t : Nat) : QWord :=
  (d.actsBy t).foldl (fun w x => match x with
    | .tsWrite k ch v => if k = ts && ch = c then v else w
    | .tsSwap k ch => if k = ts && ch = c then (d.channel c).shadow ts else w
    | _ => w) ((d.channel c).active ts)

/-- Pin Map entry `m` of channel `c` as a vector that starts at ECLK `t` uses it (R93). -/
def Dev.pinAt (d : Dev) (c m t : Nat) : BitVec 16 :=
  (d.actsBy t).foldl (fun w x => match x with
    | .pinmap ch k v => if ch = c && k = m then v else w
    | _ => w) ((d.engine c).pinEntry m)

/-- The vector period of set `ts` for engine `n` at ECLK `t`: the largest among the channels that it drives (R89). -/
def Dev.period (d : Dev) (n ts t : Nat) : Nat := (d.driven n).foldl (fun p c => max p (tsPeriod (d.setAt c ts t))) 1

/-! ## Forming (R86 to R92, R137 to R142, R175 to R177) -/

/-- A channel's part of a vector: the channel and its symbol pair. -/
structure Part where
  ch : Nat
  s1 : BitVec 4
  s2 : BitVec 4
  deriving DecidableEq, Repr

/-- The parts of a vector that starts at ECLK `t`: its pair on every channel that the engine drives (R86), or what the Pin Map
makes of the generators (R92). -/
def Dev.parts (d : Dev) (n t : Nat) (v : Flight) : List Part :=
  match v.gen with
  | none => (d.driven n).map fun c => ⟨c, v.sa, v.sb⟩
  | some w => (d.driven n).filterMap fun c =>
    (genSymbols v.pre (d.engine c) (d.pinAt c v.pre.map.toNat t) w).map fun s => ⟨c, s.1, s.2⟩

/-- Form a vector of set `ts` that starts at the ball at ECLK `t` on each channel of the list. -/
def Dev.form (d : Dev) (ts t : Nat) (stb : Strobe) (ps : List Part) : Dev × List Cand :=
  ps.foldl (fun (r : Dev × List Cand) p =>
    let x := (r.1.channel p.ch).vector p.ch (r.1.setAt p.ch ts t) p.s1 p.s2 (r.1.corrs p.ch) (64 * t : Nat) stb.cut
      (bit stb.chA p.ch) (bit stb.clA p.ch) (bit stb.chB p.ch) (bit stb.clB p.ch)
    (r.1.setChannel p.ch x.1, r.2 ++ x.2)) (d, [])

/-- The fail bits of a vector: its channels with a failing strobe. -/
def failBits (cs : List Cand) : DWord := cs.foldl (fun w c => if c.fail then setBit w c.ch else w) 0

/-- The ECLK at which the fail bits of octet `k` reach its collector: 8 ECLK after the last strobe there (R15). -/
def failAt (cs : List Cand) (k : Nat) : Nat :=
  ((cs.filter fun c => c.ch / 8 == k).foldl (fun t c => max t c.time) 0 / 64).toNat + 8

/-- The fail bits of a vector go to the collectors of their octets while capture is enabled (R175, R177, R178), and to
the fail mask of the Byith summary (Table 11-9). -/
def Dev.reportFails (d : Dev) (n : Nat) (xa ya : BitVec 24) (cs : List Cand) : Dev :=
  let fails := failBits cs
  let d := if fails = 0 then d else { d with byt := { d.byt with failMask := d.byt.failMask ||| fails } }
  if !(d.source n).enabled then d
  else (List.range 8).foldl (fun d k =>
    let m : BitVec 8 := BitVec.ofNat 8 (fails.toNat / 2 ^ (8 * k))
    if m = 0 then d else d.pushFc k (.fail n (failAt cs k) xa ya m (d.source n).count)) d

/-- A vector starts at the ball (R35, R504): the effects before it commit; it is formed under what is then in force; its fails
are reported; its vector is counted; its decision is due, at its start where it has no unmasked strobe (R109). -/
def Dev.startVector (d : Dev) (n : Nat) (v : Flight) : Dev :=
  let d := v.commits.foldl (Dev.applyEffect n) d
  let r := d.form v.ts v.start v.stb (d.parts n v.start v)
  let d := (r.1.reportFails n v.pre.xa v.pre.ya r.2).countVector n
  d.updEngine n fun e =>
    { e with
      decisions := addDecision ((decisionOf (r.2.filter fun c => !c.masked)).getD { arrives := v.start, fail := false }) e.decisions
      lastVec := .made r.2
      ckpt := v.after
      vecEnd := v.start + v.period }

/-! ## Vectors in flight -/

/-- A vector of engine `n` that starts at ECLK `t` is formed now: `t` lies in the current beat, its OM2 window, where one is
due, has come (R169), and so have the steps of its boundary (R161). -/
def Dev.forms (d : Dev) (n t : Nat) : Bool :=
  decide (t < d.time.base + d.time.mult) && d.cal.stepDue.isNone && !(d.cal.steal && d.cal.winDue.any (bit · n))

/-- The vectors in flight of engine `n` that are formed now, up to `k` of them, start in order. -/
def Dev.flyN (n : Nat) : Nat → Dev → Dev
  | 0, d => d
  | k + 1, d =>
    match (d.engine n).flight with
    | [] => d
    | v :: rest =>
      if d.forms n v.start then
        Dev.flyN n k ((d.updEngine n fun e => { e with flight := rest }).startVector n v)
      else d

/-- What is in flight and due starts; where nothing is left in flight on a waiting engine, what waits for its WAIT or SYNC
commits (R504). -/
def Dev.fly (d : Dev) (n : Nat) : Dev :=
  let d := Dev.flyN n (d.engine n).flight.length d
  if (d.engine n).st = .wait || (d.engine n).st = .sync then d.commitIdle n else d

/-- Engine `n` fetches a vector of set `ts` (R13, R77): it starts 10 ECLK later, in the current beat at once, else at the
boundary that opens its beat. `pre` are the registers as they stood when it was fetched; the engine holds those after it. -/
def Dev.emit (d : Dev) (n ts : Nat) (pre : Arch) (gen : Option DWord) (sa sb : BitVec 4) (stb : Strobe) : Dev :=
  let e := (d.engine n).toSlot
  let t := e.slot
  let start := e.ballAt t
  let p := d.period n ts start
  let e := e.settle t
  let v : Flight :=
    { ts := ts, start := start, period := p, gen := gen, sa := sa, sb := sb, pre := pre, after := e.a, stb := stb, commits := e.uncommitted }
  (d.setEngine n { e with uncommitted := [], issueAt := t + 1, slotAt := t + p, flight := e.flight ++ [v] }).fly n

/-! ## The judgment of a vector in flight (R76) -/

/-- What TIM_DMASK of channel `c` holds when the last vector in flight starts: as the MASK instructions before it leave it. -/
def Dev.dmaskThen (d : Dev) (n c : Nat) : Bool :=
  ((d.engine n).flight.flatMap (·.commits)).foldl (fun b x => match x with
    | .mask half bits => let i := c - n - (if half then 32 else 0)
      if n + (if half then 32 else 0) ≤ c && i < 32 && (d.driven n).contains c then bit bits i else b
    | _ => b) (d.channel c).dmask

/-- The symbols of channel `c` after the vectors in flight, as K resolves (R106). -/
def Dev.symsThen (d : Dev) (n c : Nat) : Option (BitVec 4) × Option (BitVec 4) :=
  let x := d.channel c
  let r := (d.engine n).flight.foldl (fun (r : (Option (BitVec 4) × Option (BitVec 4)) × Bool) v =>
    match (d.parts n v.start v).find? fun p => p.ch == c with
    | some p => ((some (resolveK p.s1 r.1.1 r.2), some (resolveK p.s2 r.1.2 r.2)), false)
    | none => r) ((x.symA, x.symB), x.inSafe)
  r.1

/-- The last vector in flight, `v`, has a strobe that the judgment made now finds unmasked. -/
def Dev.willJudge (d : Dev) (n : Nat) (v : Flight) : Bool :=
  (d.parts n v.start v).any fun p =>
    let w := d.setAt p.ch v.ts v.start
    let s := d.symsThen n p.ch
    !(d.channel p.ch).smask && !d.dmaskThen n p.ch &&
      ((tsStbsel w % 2 == 1 && decide (symCmp (s.1.getD 7) ≠ .none)) || (tsStbsel w / 2 == 1 && decide (symCmp (s.2.getD 7) ≠ .none)))

/-- The channels of engine `n` whose SMASK is set. -/
def Dev.smasks (d : Dev) (n : Nat) : DWord := ofBits 64 ((d.driven n).filter fun c => (d.channel c).smask)

/-- A fail-dependent instruction at the fetch (R76, R108): none where it waits for a vector in flight; else the engine after
the wait and what a test of FAIL sees. -/
def Dev.failTest (d : Dev) (n : Nat) : Option (Engine × Bool) :=
  let e := d.engine n
  match e.flight.getLast? with
  | some v => if d.willJudge n v then none else some ({ (e.settle e.issueAt) with await := none }, false)
  | none =>
    let r := e.decideLast (e.await.getD (d.smasks n))
    some ({ r.1 with await := none }, r.2)

/-- The engine waits with a fail-dependent instruction for a vector in flight: the judgment is made now. -/
def Dev.awaitDecision (d : Dev) (n : Nat) : Dev :=
  d.updEngine n fun e => { e with await := some (e.await.getD (d.smasks n)) }

end Sys2Proof.Machine
end

