-- ==== Sys2Proof/Machine/Yunor.lean ====
section
/-! DEFINITION. The Yunor instructions (05_yunor_isa.md). A command of this family names an engine; the engine issues the
instruction at its PC, which must be of the command's kind, and nothing happens otherwise. A vector command also carries
the comparator returns of the vectors that start. -/

namespace Sys2Proof.Machine

/-! ## Issue -/

/-- Issue the instruction at PC of engine `n` when it satisfies `p`: a running engine without a pending stop that waits for no
decision; a reserved encoding is an ILLEGAL stop (R101, R96); otherwise the decisions that have arrived act and `f` runs
(R76). -/
def Dev.issue (d : Dev) (n : Nat) (p : DWord → Bool) (f : DWord → Dev → Dev) : Dev :=
  let e := (d.engine n).cross (d.engine n).issueAt
  if e.st ≠ .run || !e.stops.isEmpty || e.await.isSome then d
  else
    let w := e.fetch e.a.pc
    if !p w then d
    else if !legal w e.a.pc then d.requestStop n 8 .instr
    else f w (d.setEngine n (e.settle e.issueAt))

/-- The word has opcode `op`. -/
def isOp (op : Nat) (w : DWord) : Bool := opc w == op
/-- The word is an FCTL of operation `m`. -/
def isFctl (m : Nat) (w : DWord) : Bool := opc w == 0x32 && opMod w == m

/-- The engine stands after the last vector of a pass of its match loop. -/
def Arch.passEnds (a : Arch) : Bool :=
  match a.mloop with
  | some m => a.pc == m.after && a.repLeft == 0
  | none => false

/-- The end of a pass of a match loop (R120, R121): the final vector is decided, and the loop exits or runs again; a final
vector in flight is waited for. -/
def Dev.mloopEnd (d : Dev) (n : Nat) : Dev :=
  match (d.engine n).a.mloop with
  | none => d
  | some m =>
    if !(d.engine n).a.passEnds then d
    else match d.failTest n with
      | none => d.awaitDecision n
      | some (e, fail) =>
        let c := e.a.lcr m.lc
        if !fail then d.setEngine n { e with a := { e.a.setFlag 8 true with mloop := none } }
        else if c = 0 then d.setEngine n { e with a := { e.a.setFlag 8 false with mloop := none } }
        else d.setEngine n { e with a := { e.a.setLc m.lc (c - 1) with pc := m.first } }

/-- The registers after a plain instruction: PC steps, one issue ECLK passes (R77, R103). -/
def Engine.plain (f : Engine → Arch) (e : Engine) : Engine :=
  let a := f e
  { e with
    a := { a with pc := a.pc + 1 }
    issueAt := e.issueAt + 1 }
/-- A plain instruction of engine `n`. -/
def Dev.plain (d : Dev) (n : Nat) (f : Engine → Arch) : Dev := (d.updEngine n (Engine.plain f)).mloopEnd n
/-- An instruction whose effect waits for its commit point (R504). -/
def Dev.late (d : Dev) (n : Nat) (x : Effect) : Dev :=
  (d.updEngine n fun e => { e with uncommitted := e.uncommitted ++ [x] }).plain n (·.a)
/-- Continue at `pc` after a taken flow instruction: 1 + 2 issue ECLK (R75). -/
def Engine.jump (e : Engine) (pc : BitVec 12) : Engine :=
  { e with
    a := { e.a with pc := pc }
    issueAt := e.issueAt + 3 }

/-! ## Vector instructions -/

/-- Vectors of a VEC: `left` are to come, one starts for each entry of the list (R77, R86, R98). -/
def Dev.repeatVec (n ts : Nat) (sa sb : BitVec 4) : Nat → List Strobe → Dev → Dev
  | 0, _, d => d
  | _ + 1, [], d => d
  | left + 1, b :: r, d =>
    let pre := (d.engine n).a
    let d := d.updEngine n fun e =>
      { e with a := { e.a with repLeft := left, pc := if left = 0 then e.a.pc + 1 else e.a.pc } }
    Dev.repeatVec n ts sa sb left r (d.emit n ts pre none sa sb b)

/-- What a repeated instruction still has to produce: its count, or what ENG_REPLEFT holds (R98). -/
def Engine.toGo (e : Engine) (w : DWord) : Nat := if e.a.repLeft = 0 then op16 w + 1 else e.a.repLeft

/-- VEC (R86). -/
def Dev.yVec (n : Nat) (dut : List Strobe) (w : DWord) (d : Dev) : Dev :=
  (Dev.repeatVec n (opTs w) (BitVec.ofNat 4 (fld w 44 4)) (BitVec.ofNat 4 (fld w 40 4)) ((d.engine n).toGo w) dut d).mloopEnd n

/-- The generators after a VGEN (R113, R117): XOPC, then YOPC, then DGOPC. -/
def Arch.vgenStep (a : Arch) (w : DWord) : Arch :=
  let b := (a.xop (fld w 12 4) 0 0).yop (fld w 8 4) 0 0
  { b with dg := dgop (fld w 4 4) b.dg 0 0 0 ((bit a.xa 0 != bit a.ya 0) != (bit b.xa 0 != bit b.ya 0)) }

/-- VGEN (R113). -/
def Dev.yVgen (n : Nat) (dut : Strobe) (w : DWord) (d : Dev) : Dev :=
  let pre := (d.engine n).a
  let d := d.updEngine n fun e => { e with a := { e.a.vgenStep w with pc := e.a.pc + 1 } }
  (d.emit n (opTs w) pre (some w) 7 7 dut).mloopEnd n

/-- The symbol of a 2-bit stream code (R87). -/
def strSymbol (m : BitVec 16) (code : Nat) : BitVec 4 := BitVec.ofNat 4 (fld m (4 * code) 4)

/-- Vectors of a VSTR: each takes 4 bits of the stream FIFO; an empty FIFO is UNDERRUN_STREAM (R88). -/
def Dev.repeatStr (n ts : Nat) : Nat → List Strobe → Dev → Dev
  | 0, _, d => d
  | _ + 1, [], d => d
  | left + 1, b :: r, d =>
    let e := d.engine n
    match e.fifo with
    | [] => (d.setEngine n { e with a := { e.a with repLeft := left + 1 } }).requestStop n 6 .data
    | x :: rest =>
      let d := d.updEngine n fun e =>
        { e with
          fifo := rest
          a := { e.a with repLeft := left, pc := if left = 0 then e.a.pc + 1 else e.a.pc } }
      Dev.repeatStr n ts left r (d.emit n ts e.a none (strSymbol e.strmap (fld x 0 2)) (strSymbol e.strmap (fld x 2 2)) b)

/-- VSTR (R88); illegal on the leader of a gang of 2 or more. -/
def Dev.yVstr (n : Nat) (dut : List Strobe) (w : DWord) (d : Dev) : Dev :=
  if (d.engine n).sizeLog2 ≠ 0 then d.requestStop n 8 .instr
  else Dev.repeatStr n (opTs w) ((d.engine n).toGo w) dut d

/-- Hold vectors of a VHOLD: on each ECLK on which one is due, COND XOR INV ends the instruction (R114). -/
def Dev.repeatHold (n : Nat) (w : DWord) : Nat → Nat → Dev → Dev
  | 0, _, d => d
  | _ + 1, 0, d => d
  | left + 1, k + 1, d =>
    let e := (d.engine n).toSlot
    let t := e.slot
    let e := e.settle t
    if condTrue (opMod w) e.flagsNow != bit w 16 then
      d.setEngine n { e with
        a := { e.a with repLeft := 0, pc := e.a.pc + 1 }
        issueAt := t + 3 }
    else
      let d := d.setEngine n
        { e with a := { e.a with repLeft := left, pc := if left = 0 then e.a.pc + 1 else e.a.pc } }
      Dev.repeatHold n w left k (d.emit n (opTs w) e.a none 7 7 {})

/-- VHOLD (R114): at most `k` hold vectors are due in this command. -/
def Dev.yVhold (n k : Nat) (w : DWord) (d : Dev) : Dev := Dev.repeatHold n w ((d.engine n).toGo w) k d

/-- BRZ (R115): idle slots without vectors; a BRZ of 512 ECLK or more is noted for the OM2 interval (R170). -/
def Dev.yBrz (n : Nat) (w : DWord) (d : Dev) : Dev :=
  let e := (d.engine n).toSlot
  let t := e.slot
  let p := d.period n (opTs w) (t + 10)
  let count := op16 w + 1
  let d := if 512 ≤ count * p then
      (d.driven n).foldl (fun d c =>
        { d with cal := { d.cal with om2 := Store.upd (fun _ => {}) d.cal.om2 c fun x => { x with brz := true } } }) d
    else d
  d.setEngine n
    { e with
      a := { e.a with pc := e.a.pc + 1 }
      issueAt := t + (count - 1) * p + 1
      slotAt := t + count * p }

/-! ## Flow instructions -/

/-- JSR (R118). -/
def Dev.yJsr (n : Nat) (w : DWord) (d : Dev) : Dev :=
  let e := d.engine n
  if 16 ≤ e.a.rsp then d.requestStop n 9 .instr
  else
    let ret : BitVec 13 := BitVec.ofNat 13 (flag 12 e.a.active + (e.a.pc + 1).toNat)
    let e := { e with a := { e.a with rstk := Store.put (fun _ => 0) e.a.rstk e.a.rsp ret, rsp := e.a.rsp + 1 } }
    d.setEngine n (e.jump (opAddr w))

/-- RTS (R118). -/
def Dev.yRts (n : Nat) (d : Dev) : Dev :=
  let e := d.engine n
  if e.a.rsp = 0 then d.requestStop n 9 .instr
  else
    let e := { e with a := { e.a with rsp := e.a.rsp - 1 } }
    d.setEngine n (e.jump (BitVec.ofNat 12 (e.a.rs e.a.rsp).toNat))

/-- A branch that is taken or not. -/
def Engine.branch (e : Engine) (taken : Bool) (pc : BitVec 12) : Engine :=
  if taken then e.jump pc
  else { e with a := { e.a with pc := e.a.pc + 1 }, issueAt := e.issueAt + 1 }

/-- BRC (R118); on a fail condition it waits for the decision of the most recent vector (R108, R76). -/
def Dev.yBrc (n : Nat) (w : DWord) (d : Dev) : Dev :=
  let e := d.engine n
  let m := opMod w
  if m = 1 || m = 2 then
    match d.failTest n with
    | none => d.awaitDecision n
    | some (r, fail) =>
      let c := if m = 1 then fail else bit r.a.flags 7
      let b := ({ r with issueAt := e.issueAt }).branch (c != bit w 16) (opAddr w)
      d.setEngine n { b with issueAt := max b.issueAt r.issueAt }
  else d.setEngine n (e.branch (condTrue m e.flagsNow != bit w 16) (opAddr w))

/-- The body from `top` to the LOOP at `pc` runs from the loop buffer after its first pass (R119). -/
def Engine.buffered (e : Engine) (top pc : BitVec 12) : Bool :=
  decide (pc.toNat - top.toNat < 16) &&
    (List.range (pc.toNat - top.toNat)).all fun i => !isFlow (e.fetch (top + BitVec.ofNat 12 i))

/-- LOOP (R119). -/
def Dev.yLoop (n : Nat) (w : DWord) (d : Dev) : Dev :=
  let e := d.engine n
  let pc := e.a.pc
  let k := opLc w
  let c := e.a.lcr k
  let fast := decide (e.a.lbuf = some pc.toNat)
  if c ≠ 0 then
    let lbuf := if e.buffered (opAddr w) pc then some pc.toNat else none
    d.setEngine n { e with
      a := { e.a.setLc k (c - 1) with pc := opAddr w, lbuf := lbuf }
      issueAt := if fast then e.issueAt else e.issueAt + 3 }
  else
    d.setEngine n { e with
      a := { e.a with pc := pc + 1, lbuf := none }
      issueAt := if fast then e.issueAt else e.issueAt + 1 }

/-- The body of an MLOOP at `pc` (R120). -/
def bodyAddrs (pc : BitVec 12) (len : Nat) : List (BitVec 12) :=
  (List.range len).map fun i => pc + 1 + BitVec.ofNat 12 i

/-- MLOOP (R120): the body is checked as a whole before any of it issues. -/
def Dev.yMloop (n : Nat) (w : DWord) (d : Dev) : Dev :=
  let e := d.engine n
  let pc := e.a.pc
  let len := fld w 0 4 + 1
  let body := bodyAddrs pc len
  match body.find? fun a => !legal (e.fetch a) a with
  | some a => (d.setEngine n { e with a := { e.a with pc := a } }).requestStop n 8 .instr
  | none =>
    if body.all (fun a => bodyOk (e.fetch a)) && body.any (fun a => opc (e.fetch a) == 1 || opc (e.fetch a) == 2) then
      d.setEngine n { e with
        a := { e.a with
          pc := pc + 1
          mloop := some { first := pc + 1, after := pc + 1 + BitVec.ofNat 12 len, lc := opLc w }
          lbuf := none }
        issueAt := e.issueAt + 1 }
    else d.requestStop n 8 .instr

/-- The page swap of an engine's registers: the old active page becomes the shadow page, not valid (R83). -/
def Arch.swapPage (a : Arch) (entry : BitVec 12) : Arch :=
  { a with
    active := !a.active
    svalid := false
    pc := entry
    repLeft := 0
    mloop := none
    lbuf := none }

/-- A page swap of engine `n` is staged in an open transaction (SWAP_PEND). -/
def Dev.pageStaged (d : Dev) (n : Nat) : Bool :=
  d.openActs.any fun
    | .pageSwap k _ => k == n
    | _ => false

/-- PAGE (R83). While a swap of the engine is staged the pages are the transaction's (R220, R82), and a PAGE finds no page to
take (DESIGN CHOICE, log 23). -/
def Dev.yPage (n : Nat) (w : DWord) (d : Dev) : Dev :=
  let e := d.engine n
  if !e.a.svalid || d.pageStaged n then d.requestStop n 5 .instr
  else d.setEngine n { e with a := e.a.swapPage (opAddr w), issueAt := e.issueAt + 3 }

/-- HALT (R96): PC holds the next address. -/
def Dev.yHalt (n : Nat) (d : Dev) : Dev :=
  (d.updEngine n fun e => { e with a := { e.a with pc := e.a.pc + 1 } }).requestStop n 10 .instr

/-! ## Register and generator instructions -/

/-- ALU and ALUI with second operand `b` (R122, Table 5-9). -/
def Engine.alu (e : Engine) (w : DWord) (b : Word) : Arch :=
  let m := opMod w
  let r := Machine.alu m (e.a.gr (opRa w)) b
  let a := e.a.setAlu r
  if m = 8 || m = 9 then a else a.setG (opRd w) r.res

/-! ## Waits -/

/-- The target that a WAITG names (R124). -/
def Engine.waitTarget (e : Engine) (w : DWord) : Target :=
  let lo := e.a.gr (opRa w)
  let hi := e.a.gr (opRb w)
  { epoch := if bit w 48 then BitVec.ofNat 8 (fld hi 24 8) else BitVec.ofNat 8 (fld w 40 8)
    gci := BitVec.ofNat 48 (lo.toNat + fld hi 0 16 * 2 ^ 32) }

/-- WAITG (R124). -/
def Dev.yWaitg (n : Nat) (w : DWord) (d : Dev) : Dev :=
  let t := (d.engine n).waitTarget w
  let d := (d.enterWait n .wait).updEngine n fun e =>
    { e with waitg := { target := t, frac := BitVec.ofNat 16 (op16 w), refused := false } }
  match d.targetStatus t with
  | .ok => d
  | st => d.refuseWait n st

/-- SYNC (R125). -/
def Dev.ySync (n : Nat) (w : DWord) (d : Dev) : Dev :=
  let e := d.engine n
  let m := d.syncNorm n (dword (e.a.gr (opRa w)) (e.a.gr (opRb w)))
  let d := (d.enterWait n .sync).updEngine n fun e =>
    { e with syncMask := m, syncTmo := BitVec.ofNat 16 (op16 w), syncAt := e.issueAt }
  if d.syncComplete m then d.syncRelease m (e.issueAt + 4) else d

/-- The timeout of a SYNC (R126). -/
def Dev.ySyncTimeout (n : Nat) (d : Dev) : Dev :=
  let e := d.engine n
  if e.st = .sync && e.syncTmo ≠ 0 && e.stops.isEmpty then
    (d.setEngine n (({ e with a := e.a.setFlag 0 false }).leave (e.syncAt + 1024 * e.syncTmo.toNat))).attention n .timeout
  else d

/-! ## Fail and system instructions -/

/-- FCTL CLRSTK (R127): waits for the decision of the most recent vector and clears FSTK. -/
def Dev.yClrstk (n : Nat) (d : Dev) : Dev :=
  let e := d.engine n
  match d.failTest n with
  | none => d.awaitDecision n
  | some (r, _) =>
    d.setEngine n { r with
      a := { r.a.setFlag 7 false with pc := r.a.pc + 1 }
      issueAt := max (e.issueAt + 1) r.issueAt }

/-- The vector that a fail-dependent instruction of engine `n` waits for has started: the instruction goes on (R76). -/
def Dev.yDecided (d : Dev) (n : Nat) : Dev :=
  let e := d.engine n
  if e.await.isNone || !e.flight.isEmpty || e.st ≠ .run || !e.stops.isEmpty then d
  else if e.a.passEnds then d.mloopEnd n
  else
    let w := e.fetch e.a.pc
    if opc w = 0x14 then Dev.yBrc n w d else Dev.yClrstk n d

/-- The vectors in flight that start in the present beat, engine by engine (R35); a fail-dependent instruction that waited for
one goes on. -/
def Dev.flyBeat (d : Dev) : Dev :=
  ((List.range 64).filter fun n => !(d.engine n).flight.isEmpty).foldl (fun d n => (d.fly n).yDecided n) d

/-- FXFER (R130). -/
def Engine.fxfer (e : Engine) (w : DWord) : Arch :=
  let a := e.a
  let out := dword (a.gr (opRa w)) (a.gr (opRa w + 1))
  let a := if bit w 48 then { a with fxout := out } else a
  if bit w 49 then ((a.setG (opRd w) (lo32 e.fxin)).setG (opRd w + 1) (hi32 e.fxin)).setFlag 10 false else a

/-- A new FXOUT word is presented to the fabric with a valid strobe (R95); one that a region in hold does not take is lost
(R284). -/
def Dev.fxPresent (d : Dev) (n : Nat) (w : DWord) : Dev :=
  if !bit w 48 then d
  else if d.gated (n / 4) then d.updFabRegion (n / 4) fun r => { r with fxDrop := true }
  else d.updEngine n fun e => { e with fxValid := true }

/-- The decision of the oldest undecided vector reaches the fetch unit (R76). -/
def Dev.yDecision (n : Nat) (d : Dev) : Dev :=
  d.updEngine n fun e =>
    match e.decisions with
    | [] => e
    | x :: r => { e.applyDecision x with decisions := r }

/-! ## The meanings -/

/-- VEC: one vector starts for each entry of `dut`, as far as the repeat count reaches. -/
def execVec (n : Fin 64) (dut : List Strobe) (s : State) : Host.Outcome State Fault Refusal :=
  s.onDev fun _ d => d.issue n (isOp 0x01) (Dev.yVec n dut)
/-- VGEN. -/
def execVgen (n : Fin 64) (dut : Strobe) (s : State) : Host.Outcome State Fault Refusal :=
  s.onDev fun _ d => d.issue n (isOp 0x02) (Dev.yVgen n dut)
/-- VSTR. -/
def execVstr (n : Fin 64) (dut : List Strobe) (s : State) : Host.Outcome State Fault Refusal :=
  s.onDev fun _ d => d.issue n (isOp 0x03) (Dev.yVstr n dut)
/-- VHOLD: `k` hold vectors fall due. -/
def execVhold (n : Fin 64) (k : Nat) (s : State) : Host.Outcome State Fault Refusal :=
  s.onDev fun _ d => d.issue n (isOp 0x04) (Dev.yVhold n k)
/-- BRZ. -/
def execBrz (n : Fin 64) (s : State) : Host.Outcome State Fault Refusal :=
  s.onDev fun _ d => d.issue n (isOp 0x05) (Dev.yBrz n)
/-- NOP. -/
def execNop (n : Fin 64) (s : State) : Host.Outcome State Fault Refusal :=
  s.onDev fun _ d => d.issue n (isOp 0x10) fun _ d => d.plain n (·.a)
/-- JMP. -/
def execJmp (n : Fin 64) (s : State) : Host.Outcome State Fault Refusal :=
  s.onDev fun _ d => d.issue n (isOp 0x11) fun w d => d.updEngine n (·.jump (opAddr w))
/-- JSR. -/
def execJsr (n : Fin 64) (s : State) : Host.Outcome State Fault Refusal :=
  s.onDev fun _ d => d.issue n (isOp 0x12) (Dev.yJsr n)
/-- RTS. -/
def execRts (n : Fin 64) (s : State) : Host.Outcome State Fault Refusal :=
  s.onDev fun _ d => d.issue n (isOp 0x13) fun _ d => d.yRts n
/-- BRC. -/
def execBrc (n : Fin 64) (s : State) : Host.Outcome State Fault Refusal :=
  s.onDev fun _ d => d.issue n (isOp 0x14) (Dev.yBrc n)
/-- LOOP. -/
def execLoop (n : Fin 64) (s : State) : Host.Outcome State Fault Refusal :=
  s.onDev fun _ d => d.issue n (isOp 0x15) (Dev.yLoop n)
/-- MLOOP. -/
def execMloop (n : Fin 64) (s : State) : Host.Outcome State Fault Refusal :=
  s.onDev fun _ d => d.issue n (isOp 0x16) (Dev.yMloop n)
/-- PAGE. -/
def execPage (n : Fin 64) (s : State) : Host.Outcome State Fault Refusal :=
  s.onDev fun _ d => d.issue n (isOp 0x17) (Dev.yPage n)
/-- HALT. -/
def execHalt (n : Fin 64) (s : State) : Host.Outcome State Fault Refusal :=
  s.onDev fun _ d => d.issue n (isOp 0x18) fun _ d => d.yHalt n
/-- LDI (R122). -/
def execLdi (n : Fin 64) (s : State) : Host.Outcome State Fault Refusal :=
  s.onDev fun _ d => d.issue n (isOp 0x20) fun w d => d.plain n fun e => e.a.writeSel (fld w 40 5) (opImm w)
/-- ALU (R122). -/
def execAlu (n : Fin 64) (s : State) : Host.Outcome State Fault Refusal :=
  s.onDev fun _ d => d.issue n (isOp 0x21) fun w d => d.plain n fun e => e.alu w (e.a.gr (opRb w))
/-- ALUI (R122). -/
def execAlui (n : Fin 64) (s : State) : Host.Outcome State Fault Refusal :=
  s.onDev fun _ d => d.issue n (isOp 0x22) fun w d => d.plain n fun e => e.alu w (opImm w)
/-- XOP (R116). -/
def execXop (n : Fin 64) (s : State) : Host.Outcome State Fault Refusal :=
  s.onDev fun _ d => d.issue n (isOp 0x23) fun w d =>
    d.plain n fun e => e.a.xop (opMod w) (opImm24 w) (e.a.gr (opRa w))
/-- YOP (R116). -/
def execYop (n : Fin 64) (s : State) : Host.Outcome State Fault Refusal :=
  s.onDev fun _ d => d.issue n (isOp 0x24) fun w d =>
    d.plain n fun e => e.a.yop (opMod w) (opImm24 w) (e.a.gr (opRa w))
/-- DGOP (R117). -/
def execDgop (n : Fin 64) (s : State) : Host.Outcome State Fault Refusal :=
  s.onDev fun _ d => d.issue n (isOp 0x25) fun w d =>
    d.plain n fun e => { e.a with dg := dgop (opMod w) e.a.dg (opImm w) (e.a.gr (opRa w)) (e.a.gr (opRb w)) false }
/-- MAP (R123). -/
def execMap (n : Fin 64) (s : State) : Host.Outcome State Fault Refusal :=
  s.onDev fun _ d => d.issue n (isOp 0x26) fun w d => d.plain n fun e => { e.a with map := BitVec.ofNat 4 (fld w 0 4) }
/-- MOV (R122). -/
def execMov (n : Fin 64) (s : State) : Host.Outcome State Fault Refusal :=
  s.onDev fun _ d => d.issue n (isOp 0x27) fun w d =>
    d.plain n fun e => e.a.writeSel (fld w 40 5) (e.readSel (fld w 32 5))
/-- WAITG. -/
def execWaitg (n : Fin 64) (s : State) : Host.Outcome State Fault Refusal :=
  s.onDev fun _ d => d.issue n (isOp 0x30) (Dev.yWaitg n)
/-- SYNC. -/
def execSync (n : Fin 64) (s : State) : Host.Outcome State Fault Refusal :=
  s.onDev fun _ d => d.issue n (isOp 0x31) (Dev.ySync n)
/-- SYNC_TIMEOUT. -/
def execSyncTimeout (n : Fin 64) (s : State) : Host.Outcome State Fault Refusal :=
  s.onDev fun _ d => d.ySyncTimeout n
/-- FCTL ENABLE. -/
def execFctlEnable (n : Fin 64) (s : State) : Host.Outcome State Fault Refusal :=
  s.onDev fun _ d => d.issue n (isFctl 0) fun _ d => d.late n .enable
/-- FCTL DISABLE. -/
def execFctlDisable (n : Fin 64) (s : State) : Host.Outcome State Fault Refusal :=
  s.onDev fun _ d => d.issue n (isFctl 1) fun _ d => d.late n .disable
/-- FCTL BLOCK_START. -/
def execFctlBlockStart (n : Fin 64) (s : State) : Host.Outcome State Fault Refusal :=
  s.onDev fun _ d => d.issue n (isFctl 2) fun w d => d.late n (.blockStart (fld w 0 12))
/-- FCTL BLOCK_END. -/
def execFctlBlockEnd (n : Fin 64) (s : State) : Host.Outcome State Fault Refusal :=
  s.onDev fun _ d => d.issue n (isFctl 3) fun w d => d.late n (.blockEnd (fld w 0 12))
/-- FCTL MARK. -/
def execFctlMark (n : Fin 64) (s : State) : Host.Outcome State Fault Refusal :=
  s.onDev fun _ d => d.issue n (isFctl 4) fun w d => d.late n (.mark (op16 w))
/-- FCTL FLUSH. -/
def execFctlFlush (n : Fin 64) (s : State) : Host.Outcome State Fault Refusal :=
  s.onDev fun _ d => d.issue n (isFctl 5) fun _ d => d.late n .flush
/-- FCTL CLRSTK. -/
def execFctlClrstk (n : Fin 64) (s : State) : Host.Outcome State Fault Refusal :=
  s.onDev fun _ d => d.issue n (isFctl 6) fun _ d => d.yClrstk n
/-- MASK (R128). -/
def execMask (n : Fin 64) (s : State) : Host.Outcome State Fault Refusal :=
  s.onDev fun _ d => d.issue n (isOp 0x33) fun w d => d.late n (.mask (bit w 48) (opImm w))
/-- ATTN (R129). -/
def execAttn (n : Fin 64) (s : State) : Host.Outcome State Fault Refusal :=
  s.onDev fun _ d => d.issue n (isOp 0x34) fun w d => d.late n (.attn (fld w 0 8))
/-- FXFER (R130). -/
def execFxfer (n : Fin 64) (s : State) : Host.Outcome State Fault Refusal :=
  s.onDev fun _ d => d.issue n (isOp 0x35) fun w d => (d.fxPresent n w).plain n (·.fxfer w)
/-- An unused opcode, or a reserved encoding of any instruction (R101, R104): ILLEGAL. -/
def execUnusedOpcode (n : Fin 64) (s : State) : Host.Outcome State Fault Refusal :=
  s.onDev fun _ d => d.issue n (fun w => !legal w (d.engine n).a.pc) fun _ d => d
/-- FAIL_DECISION. -/
def execFailDecision (n : Fin 64) (s : State) : Host.Outcome State Fault Refusal :=
  s.onDev fun _ d => d.yDecision n
/-- STOP_BOUNDARY; `parity` says that the program memory read at PC had a parity error (MEMERR, Table 4-8). -/
def execStopBoundary (n : Fin 64) (parity : Bool) (s : State) : Host.Outcome State Fault Refusal :=
  s.onDev fun _ d => (if parity && decide ((d.engine n).st = .run) then d.requestStop n 7 .instr else d).stopNow n

end Sys2Proof.Machine
end

