-- ==== Sys2Proof/Machine/EngCtl.lean ====
section
/-! DEFINITION. Control of the engines from outside (04_yunor_engines.md, R332 to R334): program pages and refills, gangs,
start, resume, halt and release, and the writes to the ENG block and the EPM windows. -/

namespace Sys2Proof.Machine

/-! ## What holds an engine (R220, R332) -/

/-- The engines of a gang action: those of the gang to form, or of the gang that its leader leads. -/
def Dev.gangSpan (d : Dev) (dissolve : Bool) (leader size : Nat) : List Nat :=
  if dissolve then d.driven leader else (List.range (2 ^ size)).map (leader + ·)

/-- A staged gang action holds engine `n`. -/
def Dev.gangStaged (d : Dev) (n : Nat) : Bool :=
  d.openActs.any fun
    | .gang x l s _ => (d.gangSpan x l s).contains n
    | _ => false

/-- A start or resume that is accepted and not yet applied names engine `n`. -/
def Dev.startPends (d : Dev) (n : Nat) : Bool := d.eng.starts.any fun s => bit s.mask n

/-- ENG_STAT.WERR is set. -/
def Dev.engWerr (d : Dev) (n : Nat) : Dev := d.updEngine n fun e => { e with werr := true }

/-- Change SVALID of the shadow page: a discarded PAGE gives the pages back as they then stand. -/
def Engine.setSvalid (e : Engine) (v : Bool) : Engine :=
  let p := e.a.active
  e.mapArch fun a => if a.active = p then { a with svalid := v } else a

/-! ## EPM windows (R80, R81) and SVALID (R82) -/

/-- A write of half an instruction: `i` is its index over both pages. It takes a turn of the quad's refill port (R84); a STOPPED
engine whose active page it loads is IDLE from then on (DEDUCED from Table 4-3, log 23). -/
def epmWrite (n i : Nat) (hi : Bool) (v : Word) (d : Dev) : Dev :=
  let e := d.engine n
  let shadow := decide (4096 ≤ i) != e.a.active
  if (!shadow && (e.st.moving || e.st == .follower)) || (shadow && (e.refill.isSome || d.pageStaged n)) then d.engWerr n
  else
    let e := if shadow then e.setSvalid false else e
    let d := { d with eng := { d.eng with served := Store.put (fun _ => 4) d.eng.served (n / 4) 4 } }
    if !hi then d.setEngine n { e with epmLatch := some (i, v) }
    else
      let old := lo32 (Store.get (fun _ => 0) e.mem i)
      let low := match e.epmLatch with
        | some (j, w) => if j = i then w else old
        | none => old
      d.setEngine n { e with
        mem := Store.put (fun _ => 0) e.mem i (dword low v)
        epmLatch := none
        st := if !shadow && e.st == .stopped then .idle else e.st }

/-- A write to ENG_PAGE. -/
def svalidWrite (n : Nat) (v : Word) (d : Dev) : Dev :=
  if (d.engine n).refill.isSome || d.pageStaged n then d.engWerr n
  else d.updEngine n fun e => e.setSvalid (bit v 1)

/-! ## Page swaps (R83) -/

/-- A page swap by transaction or command: in RUN what was fetched without a started vector is abandoned, and the first
vector from the new page starts at the boundary or after it. -/
def Engine.swapTo (e : Engine) (entry : BitVec 12) (base : Nat) : Engine :=
  if e.st = .run then
    let a := e.ckpt.swapPage entry
    { e with a := a, ckpt := a, uncommitted := [], issueAt := base - 10, flight := [], await := none, late := none }
  else
    let a := e.a.swapPage entry
    { e with a := a, ckpt := a, waitNext := entry }

/-- A page swap takes effect. -/
def Dev.pageSwap (d : Dev) (n : Nat) (entry : BitVec 12) : Dev := d.updEngine n fun e => e.swapTo entry d.time.base

/-- ENG_PAGE_SWAP. -/
def engPageSwap (c : Tci) (o : Owner) (d : Dev) : Dev :=
  let n := fld (c.w 1) 0 6
  let e := d.engine n
  if (d.domain (pdEq n)).closed then (d.fencedAnswer (pdEq n)).answer o .fenced
  else if !e.st.halted || d.startPends n || d.pageStaged n || d.gangStaged n then d.answer o .busy
  else if !e.a.svalid || e.refill.isSome then d.answer o .badOperand
  else (d.pageSwap n (BitVec.ofNat 12 (fld (c.w 1) 16 12))).answer o .ok

/-! ## Refills (R84, R85, R334) -/

/-- ENG_REFILL. -/
def engRefill (c : Tci) (o : Owner) (d : Dev) : Dev :=
  let w1 := c.w 1
  let w6 := c.w 6
  let n := fld w1 0 6
  let nv := bit w1 8
  let src := if nv then pdNvs else pdVmi
  let count := fld (c.w 4) 0 13
  let due : Target := { epoch := BitVec.ofNat 8 (fld w6 24 8), gci := BitVec.ofNat 48 ((c.w 5).toNat + fld w6 0 16 * 2 ^ 32) }
  let dueSt := if bit w6 16 then d.targetStatus due else .ok
  if (d.domain (pdEq n)).closed then (d.fencedAnswer (pdEq n)).answer o .fenced
  else if (d.domain src).closed then (d.fencedAnswer src).answer o .fenced
  else if count = 0 || 4096 < count || (c.w64 2).toNat % 8 ≠ 0 then d.answer o .badOperand
  else if !bit w6 16 && (c.w 5 ≠ 0 || w6 ≠ 0) then d.answer o .badOperand
  else if dueSt ≠ .ok then d.answer o dueSt
  else if (d.engine n).refill.isSome || d.pageStaged n then d.answer o .busy
  else d.updEngine n fun e =>
    { e.setSvalid false with refill := some {
        fromNv := nv, page := !e.a.active, addr := c.w64 2, count := count,
        deadline := if bit w6 16 then some due else none, owner := some o } }

/-- A refill has instructions left to move. -/
def Dev.refillWants (d : Dev) (n : Nat) : Bool :=
  match (d.engine n).refill with
  | some r => !r.err && decide (r.moved < r.count)
  | none => false

/-- The bytes of a refill's turn: none while the source cannot answer yet, an error, or the bytes. -/
def Dev.refillBytes (d : Dev) (q : Nat) (nv : Bool) (a n : Nat) : Dev × Option (Option (List Byte)) :=
  if nv then
    if 2 ^ 26 < a + n || (blocksOf a n).any (d.readProtected (24 + q)) then (d, some none)
    else if !d.rangeReadable a n then (d.askRange a n, none)
    else
      let r := d.nvBytes (24 + q) a n
      (r.1, some (if r.2.1.status = .ok then some r.2.2 else none))
  else if d.streamFirst then (d, none)
  else match d.vmiStatus a n with
    | .ok => (d, some (some (rdBytes d.vmi.mem a n)))
    | .fenced => (d, none)
    | st => (d.vmiErr st, some none)

/-- REFILL_TRANSFER: the port of quad `q` moves up to 64 instructions for the engine whose turn it is; the host writes into the
quad's EPM windows, requester 4, take their turns in EPM_WRITE (R84). -/
def refillTransfer (q : Nat) (d : Dev) : Dev :=
  let last := Store.get (fun _ => 4) d.eng.served q
  match ([1, 2, 3, 4, 5].map fun i => (last + i) % 5).find? fun i => decide (i < 4) && d.refillWants (4 * q + i) with
  | none => d
  | some i =>
    let n := 4 * q + i
    let d := { d with eng := { d.eng with served := Store.put (fun _ => 4) d.eng.served q i } }
    match (d.engine n).refill with
    | none => d
    | some r =>
      let k := min 64 (r.count - r.moved)
      let x := d.refillBytes q r.fromNv (r.addr.toNat + 8 * r.moved) (8 * k)
      match x.2 with
      | none => x.1
      | some none => x.1.updEngine n fun e => { e with refill := some { r with err := true } }
      | some (some bs) =>
        let ws := (List.range k).map fun j => BitVec.ofNat 64 (ofLeBytes ((bs.drop (8 * j)).take 8))
        x.1.updEngine n fun e =>
          { e with
            mem := Store.putList (fun _ => 0) e.mem (memIndex r.page r.moved) ws
            refill := some { r with moved := r.moved + k } }

/-- REFILL_DONE of engine `n`. -/
def refillDone (n : Nat) (d : Dev) : Dev :=
  match (d.engine n).refill with
  | none => d
  | some r =>
    if r.err then
      let d := d.updEngine n fun e => { e with refill := none }
      (d.attention n .mediaError).answer? r.owner .mediaError
    else if r.moved < r.count then d
    else
      let d := d.updEngine n fun e =>
        let e := { e with refill := none }
        if e.a.active = r.page then e else e.setSvalid true
      d.answer? r.owner .ok

/-- REFILL_DEADLINE of engine `n`: its deadline boundary has come and the refill is not complete. -/
def refillDeadline (n : Nat) (d : Dev) : Dev :=
  match (d.engine n).refill with
  | none => d
  | some r =>
    if r.late || r.err || decide (r.moved = r.count) || decide (r.deadline ≠ some d.nowTarget) then d
    else
      let d := d.updEngine n fun e => { e with refill := some { r with late := true } }
      d.requestStop (d.leader n) 5 .async

/-! ## Gangs (R89, R90) -/

/-- The engines `a` to `a + 2^m − 1` and `b` to `b + 2^k − 1` share one. -/
def spansMeet (a m b k : Nat) : Bool := decide (a < b + 2 ^ k) && decide (b < a + 2 ^ m)

/-- The gang of `2^m` engines at `l` is misaligned, or overlaps an existing or a staged gang of 2 or more (R90). -/
def Dev.gangOverlap (d : Dev) (acts : List Action) (l m : Nat) : Bool :=
  decide (6 < m) || l % 2 ^ m != 0 ||
    (d.gangSpan false l m).any (fun k =>
      (d.engine k).sizeLog2 != 0 && !((d.engine k).sizeLog2 == m && d.leader k == l)) ||
    acts.any fun
      | .gang false b k _ => k != 0 && !(b == l && k == m) && spansMeet l m b k
      | _ => false

/-- The checks of R90, with the modes against which a formation is judged. That a gang may exist only in OM3 is judged between
the overlap and BUSY: R90 does not place it (DESIGN CHOICE, log 23). -/
def Dev.gangCheck (d : Dev) (acts : List Action) (dissolve : Bool) (l m : Nat) (modes : List Nat) : Status :=
  if dissolve then
    if (d.engine l).sizeLog2 = 0 || (d.engine l).st = .follower then .badOperand
    else if !(d.engine l).st.halted || (d.driven l).any d.startPends then .busy else .ok
  else if d.gangOverlap acts l m then .badOperand
  else if m ≠ 0 && modes.any (· != 3) then .modeDenied
  else if (d.gangSpan false l m).any fun k => (d.engine (d.leader k)).st.moving || d.startPends k then .busy
  else .ok

/-- A gang forms, or takes a new MAP, or is dissolved. -/
def Dev.applyGang (d : Dev) (dissolve : Bool) (l m : Nat) (map : BitVec 4) : Dev :=
  if dissolve then
    let ns := d.driven l
    ns.foldl (fun d k => d.updEngine k fun e => { e with sizeLog2 := 0, st := if k = l then e.st else .idle }) d
  else
    (d.gangSpan false l m).foldl (fun d k => d.updEngine k fun e =>
      if k = l then
        { e with
          sizeLog2 := m
          a := { e.a with map := map }
          ckpt := { e.ckpt with map := map } }
      else { e with sizeLog2 := m, st := .follower }) d

/-- ENG_GANG. -/
def engGang (c : Tci) (o : Owner) (d : Dev) : Dev :=
  let w := c.w 1
  let x := bit w 31
  let l := fld w 0 6
  let m := fld w 8 3
  match d.gangCheck d.openActs x l m [d.mode.mode] with
  | .ok =>
    let ns := d.gangSpan x l m
    match ns.find? fun k => (d.domain (pdEq k)).closed with
    | some k => (d.fencedAnswer (pdEq k)).answer o .fenced
    | none =>
      if ns.any (fun k => d.gangStaged k || d.pageStaged k) then d.answer o .busy
      else (d.applyGang x l m (BitVec.ofNat 4 (fld w 12 4))).answer o .ok
  | st => d.answer o st

/-! ## Start, resume, halt and release (R332, R333) -/

/-- SYS_MODE_STAT.ENG_LOCK (R65, R68). Table 3-6 gives it the reset value 0, and R68 makes it 1 until SETTLED sets: the model
follows R68, and it reads 1 from reset on (DESIGN CHOICE, log 23). -/
def Dev.engLock (d : Dev) : Bool :=
  !d.mode.settled || match d.pendMode with
    | some m => altersTpll d.mode.mode m || m == 5
    | none => false

/-- The mode permits a start of the named engines (Table 3-3). -/
def startMode (m : Nat) (mask : DWord) : Bool := (bitsOf mask).all (modeRuns m)

/-- ENG_START, and ENG_RESUME where `resume`: the checks of R332. -/
def engStart (resume : Bool) (c : Tci) (o : Owner) (d : Dev) : Dev :=
  let mask := c.w64 1
  let ns := bitsOf mask
  let chans := ns.flatMap d.driven
  let stopped (e : Engine) : Bool := e.st == .stopped || (!resume && e.st == .idle)
  if mask = 0 || ns.any fun n => (d.engine n).st == .follower then d.answer o .badOperand
  else if d.txn.oosTxn || d.txn.oosBeat then d.answer o .outOfStep
  else match chans.find? fun k => (d.domain (pdEq k)).closed with
    | some k => (d.fencedAnswer (pdEq k)).answer o .fenced
    | none =>
      if ns.any (fun n => !stopped (d.engine n) || d.startPends n || d.gangStaged n) || d.engLock || !d.cfg.done ||
          chans.any (fun k => decide ((d.loop (tpllOf k)).state ≠ .locked) || d.quadTest k) then d.answer o .busy
      else
        let s : EngPend := { mask := mask, resume := resume, entry := BitVec.ofNat 12 (fld (c.w 3) 0 12),
                             due := d.boundariesFor 1000, owner := o }
        { d with eng := { d.eng with starts := d.eng.starts ++ [s] } }

/-- One engine starts or resumes at the present boundary. -/
def Dev.startOne (s : EngPend) (d : Dev) (n : Nat) : Dev :=
  let d := if s.resume then d
    else (d.driven n).foldl (fun d c => d.updChannel c fun x => { x with dmask := false, symA := none, symB := none })
      (d.sourceStart n)
  let d := d.updEngine n fun e =>
    let e := e.settleAll
    let a := if s.resume then e.a
      else { e.a with pc := s.entry, rsp := 0, repLeft := 0, mloop := none, lbuf := none }
    { e with
      st := .run
      a := a
      ckpt := a
      cause := 0
      also := 0
      tinv := false
      lastVec := if s.resume then e.lastVec else .none
      issueAt := d.time.base
      slotAt := d.time.base
      flight := []
      await := none
      late := none }
  if s.resume then d.mloopEnd n else d

/-- A start applies (R332, step 3 of R34): the mode is checked again. -/
def Dev.applyStart (d : Dev) (s : EngPend) : Dev :=
  if !startMode d.mode.mode s.mask then d.answer s.owner .modeDenied
  else
    let t := d.boundaryStamp
    ((bitsOf s.mask).foldl (Dev.startOne s) d).complete s.owner .ok t.lo t.hi

/-- A beat boundary passes for the starts that wait. -/
def Dev.startsBeat (d : Dev) : Dev :=
  let now := d.eng.starts.filter fun s => decide (s.due ≤ 1)
  let rest := (d.eng.starts.filter fun s => decide (1 < s.due)).map fun (s : EngPend) => { s with due := s.due - 1 }
  now.foldl Dev.applyStart { d with eng := { d.eng with starts := rest } }

/-- ENG_HALT. -/
def engHalt (c : Tci) (o : Owner) (d : Dev) : Dev :=
  let ns := (bitsOf (c.w64 1)).filter fun n => (d.engine n).st.moving
  let m := ofBits 64 ns
  if ns.isEmpty then d.complete o .ok 0 0
  else
    let h : HaltPend := { mask := m, left := m, owner := o }
    let d := { d with eng := { d.eng with halts := d.eng.halts ++ [h] } }
    d.requestStops ns 11 .async

/-- ENG_RELEASE. -/
def engRelease (c : Tci) (o : Owner) (d : Dev) : Dev :=
  { d with eng := { d.eng with releases := d.eng.releases ++ [(c.w64 1, o)] } }

/-- The releases of ENG_RELEASE at a boundary, in step 3 of R34, after the WAITG releases. -/
def Dev.releasesBeat (d : Dev) : Dev :=
  let rs := d.eng.releases
  rs.foldl (fun d r =>
    let ns := (bitsOf r.1).filter fun n => decide ((d.engine n).st = .wait) && (d.engine n).stops.isEmpty
    let m := ofBits 64 ns
    (ns.foldl Dev.releaseWait d).complete r.2 .ok (lo32 m) (hi32 m)) { d with eng := { d.eng with releases := [] } }

/-- A write to ENG_HALT. -/
def engHaltWrite (n : Nat) (v : Word) (d : Dev) : Dev := if bit v 0 then d.requestStop n 11 .async else d

/-! ## Register writes (R93, R94, R100) -/

/-- The state registers of R100: offset in the ENG block, and what a write of `v` makes of the engine; none where no such
register lies. -/
def Engine.stateWrite (e : Engine) (off : Nat) (v : Word) : Option Engine :=
  let v24 := BitVec.ofNat 24 v.toNat
  let k := off / 4 % 16
  let arch (a : Arch) : Option Engine := some { e with a := a }
  if off % 4 ≠ 0 then none
  else if off = 0x008 then arch { e.a with pc := BitVec.ofNat 12 v.toNat, repLeft := 0, mloop := none, lbuf := none }
  else if off = 0x030 then arch { e.a with flags := BitVec.ofNat 16 v.toNat &&& 0x5FF }
  else if off = 0x034 then arch { e.a with rsp := fld v 0 5 }
  else if off = 0x038 then some { e with strmap := BitVec.ofNat 16 v.toNat }
  else if 0x040 ≤ off && off < 0x060 then arch (e.a.setG (k % 8) v)
  else if 0x060 ≤ off && off < 0x070 then arch (e.a.setLc (k % 4) v24)
  else if off = 0x070 then arch { e.a with xa := v24 }
  else if off = 0x074 then arch { e.a with ya := v24 }
  else if off = 0x078 then arch { e.a with xmax := v24 }
  else if off = 0x07C then arch { e.a with ymax := v24 }
  else if off = 0x080 then arch { e.a with dg := dword v (hi32 e.a.dg) }
  else if off = 0x084 then arch { e.a with dg := dword (lo32 e.a.dg) v }
  else if 0x0C0 ≤ off && off < 0x100 then
    arch { e.a with rstk := Store.put (fun _ => 0) e.a.rstk k (BitVec.ofNat 13 v.toNat) }
  else none

/-- A write to a state register of engine `n`. -/
def engStateWrite (n off : Nat) (v : Word) (d : Dev) : Dev :=
  let e := d.engine n
  match e.stateWrite off v with
  | none => d
  | some e' => if !e.st.halted || (off == 0x034 && decide (16 < fld v 0 5)) then d.engWerr n else d.setEngine n e'

/-- A staged action holds Pin Map entry `m` of channel `c`. -/
def Dev.pinStaged (d : Dev) (c m : Nat) : Bool :=
  d.openActs.any fun
    | .pinmap ch k _ => ch == c && k == m
    | _ => false
/-- A staged action holds the scramble masks of channel `c`. -/
def Dev.scrStaged (d : Dev) (c : Nat) : Bool :=
  d.openActs.any fun
    | .scrmask ch _ _ _ => ch == c
    | _ => false

/-- A Pin Map entry changes. -/
def Dev.setPin (d : Dev) (c m : Nat) (x : BitVec 16) : Dev :=
  d.updEngine c fun e => { e with pinmap := Store.put (fun _ => 0xC000) e.pinmap m x }

/-- A write to ENG_PINMAPm (R93). -/
def pinmapWrite (c m : Nat) (v : Word) (d : Dev) : Dev :=
  if !pinOk v || (d.engine (d.driver c)).st.moving || d.pinStaged c m then d.engWerr c
  else d.setPin c m (BitVec.ofNat 16 v.toNat)

/-- A write to ENG_SCRX (0), ENG_SCRY (1), ENG_SCRD_LO (2) or ENG_SCRD_HI (3) (R94). -/
def scrWrite (c k : Nat) (v : Word) (d : Dev) : Dev :=
  if (k < 2 && fld v 24 8 != 0) || (d.engine (d.driver c)).st.moving || d.scrStaged c then d.engWerr c
  else d.updEngine c fun e =>
    match k with
    | 0 => { e with scrx := BitVec.ofNat 24 v.toNat }
    | 1 => { e with scry := BitVec.ofNat 24 v.toNat }
    | 2 => { e with scrd := dword v (hi32 e.scrd) }
    | _ => { e with scrd := dword (lo32 e.scrd) v }

/-! ## Meanings -/

/-- EPM_WRITE: half of instruction `i` of the two pages of engine `n`. -/
def execEpmWrite (n : Fin 64) (i : Fin 8192) (hi : Bool) (v : Word) (s : State) : Host.Outcome State Fault Refusal :=
  s.onDev fun _ d => d.hostWrite (pdEq n) (0x400000 + 0x10000 * n.val + 8 * i.val + 4 * b2n hi) v (epmWrite n i hi v)
/-- SVALID_WRITE: a write to ENG_PAGE. -/
def execSvalidWrite (n : Fin 64) (v : Word) (s : State) : Host.Outcome State Fault Refusal :=
  s.onDev fun _ d => d.hostWrite (pdEq n) (0x200000 + 0x1000 * n.val + 0x20) v (svalidWrite n v)
/-- ENG_HALT_WRITE. -/
def execEngHaltWrite (n : Fin 64) (v : Word) (s : State) : Host.Outcome State Fault Refusal :=
  s.onDev fun _ d => d.hostWrite (pdEq n) (0x200000 + 0x1000 * n.val + 4) v (engHaltWrite n v)
/-- ENG_STATE_WRITE: a write to the state register at an offset of the ENG block. -/
def execEngStateWrite (n : Fin 64) (off : Fin 4096) (v : Word) (s : State) : Host.Outcome State Fault Refusal :=
  s.onDev fun _ d => d.hostWrite (pdEq n) (0x200000 + 0x1000 * n.val + off.val) v (engStateWrite n off v)
/-- PINMAP_WRITE. -/
def execPinmapWrite (c : Fin 64) (m : Fin 16) (v : Word) (s : State) : Host.Outcome State Fault Refusal :=
  s.onDev fun _ d => d.hostWrite (pdEq c) (0x200100 + 0x1000 * c.val + 4 * m.val) v (pinmapWrite c m v)
/-- SCRAMBLE_MASK_WRITE. -/
def execScrambleMaskWrite (c : Fin 64) (k : Fin 4) (v : Word) (s : State) : Host.Outcome State Fault Refusal :=
  s.onDev fun _ d => d.hostWrite (pdEq c) (0x200140 + 0x1000 * c.val + 4 * k.val) v (scrWrite c k v)
/-- ENG_START. -/
def execEngStart (c : Tci) (s : State) : Host.Outcome State Fault Refusal := s.onDev (runTci 0x10 c (engStart false c))
/-- ENG_RESUME. -/
def execEngResume (c : Tci) (s : State) : Host.Outcome State Fault Refusal := s.onDev (runTci 0x11 c (engStart true c))
/-- ENG_HALT. -/
def execEngHalt (c : Tci) (s : State) : Host.Outcome State Fault Refusal := s.onDev (runTci 0x12 c (engHalt c))
/-- ENG_RELEASE. -/
def execEngRelease (c : Tci) (s : State) : Host.Outcome State Fault Refusal := s.onDev (runTci 0x13 c (engRelease c))
/-- ENG_PAGE_SWAP. -/
def execEngPageSwap (c : Tci) (s : State) : Host.Outcome State Fault Refusal := s.onDev (runTci 0x14 c (engPageSwap c))
/-- ENG_REFILL. -/
def execEngRefill (c : Tci) (s : State) : Host.Outcome State Fault Refusal := s.onDev (runTci 0x15 c (engRefill c))
/-- ENG_GANG. -/
def execEngGang (c : Tci) (s : State) : Host.Outcome State Fault Refusal := s.onDev (runTci 0x16 c (engGang c))
/-- REFILL_TRANSFER. -/
def execRefillTransfer (q : Fin 16) (s : State) : Host.Outcome State Fault Refusal := s.onDev fun _ d => refillTransfer q d
/-- REFILL_DONE. -/
def execRefillDone (n : Fin 64) (s : State) : Host.Outcome State Fault Refusal := s.onDev fun _ d => refillDone n d
/-- REFILL_DEADLINE. -/
def execRefillDeadline (n : Fin 64) (s : State) : Host.Outcome State Fault Refusal := s.onDev fun _ d => refillDeadline n d

end Sys2Proof.Machine
end

