-- ==== Sys2Proof/Machine/Bst.lean ====
section
/-! DEFINITION. Built-in self-test and repair (20_self_test.md): accepting, starting, checkpoints, ends, repairs, and the
writes to the BST block. -/

namespace Sys2Proof.Machine

/-! ## Figures (Tables 20-1 to 20-3) -/

/-- What a domain is to the self-test: 0 none, 1 PD_EQ, 2 PD_RG, 3 PD_FAT, 4 PD_NVS, 5 PD_VMI, 6 PD_BY, 7 PD_TIM,
8 PD_AON. -/
def bstKind (n : Nat) : Nat :=
  if n = 0 then 8 else if n = 39 then 7 else if 2 ≤ n && n ≤ 17 then 1 else if 18 ≤ n && n ≤ 33 then 2
  else if n = 34 then 3 else if n = 35 then 4 else if n = 36 then 5 else if n = 38 then 6 else 0

/-- The test mask bits that Tables 20-1 and 20-2 give for a domain and a class. -/
def bstTests (n cls : Nat) : Nat :=
  match cls, bstKind n with
  | 0, 1 => 3 | 0, 7 => 4 | 0, 8 => 8 | 0, 6 => 16
  | 0, _ => 0
  | _, k => if 1 ≤ k && k ≤ 6 then 3 else 0

/-- Power max of a test in 1/100 W; of several analogue tests, which run one after the other, the largest. -/
def bstPower (n cls : Nat) (mask : BitVec 8) : Nat :=
  if cls = 0 then
    (bitsOf mask).foldl (fun p i => max p ([50, 10, 20, 5, 50].getD i 0)) 0
  else match bstKind n with
    | 1 => 450 | 2 => 300 | 3 => 900 | 4 => 150 | 5 => 350 | 6 => 250 | _ => 0

/-- Coverage of a completed logic test in 0.1 %: EXT where it ran. -/
def bstCov (n : Nat) (mask : BitVec 8) : Nat :=
  let x : Nat × Nat := match bstKind n with
    | 1 => (930, 975) | 2 => (910, 960) | 3 => (925, 970) | 4 => (940, 980) | 5 => (905, 955) | 6 => (920, 965) | _ => (0, 0)
  if bit mask 1 then x.2 else x.1

/-- Save bytes of a logic or memory test. -/
def bstSave (n cls : Nat) : Nat :=
  if cls = 0 then 0
  else match bstKind n with
    | 1 => 282624 | 2 => 114688 | 3 => 33685504 | 4 => 16384 | 5 => 32768 | 6 => 16384 | _ => 0

/-- Arrays of a domain. -/
def bstArrays (n : Nat) : Nat :=
  match bstKind n with
  | 1 => 12 | 2 => 24 | 3 => 41 | 4 => 1 | 5 => 4 | 6 => 4 | _ => 0

/-- Save SRAM in bytes. -/
def saveSram : Nat := 524288

/-- Power max of the running tests, in 1/100 W. -/
def Dev.bstUsed (d : Dev) : Nat :=
  ((d.bst.tests.filter (·.running)).map fun t => bstPower t.domain t.cls t.mask).foldl (· + ·) 0

/-- The engines of the quad of domain `n` that drive its channels are IDLE or STOPPED (R432). -/
def Dev.quadHalted (d : Dev) (n : Nat) : Bool :=
  (List.range 4).all fun i => (d.engine (d.driver (4 * (n - 2) + i))).st.halted

/-- Domain `n` meets a refusal condition of Table 17-4. -/
def Dev.wouldRefuse (d : Dev) (n : Nat) : Bool := d.refuses { goal := .off } n

/-! ## Accepting and starting (R434, R435) -/

/-- BST_RUN. -/
def bstRun (c : Tci) (o : Owner) (d : Dev) : Dev :=
  let cls := fld (c.w 1) 8 2
  let n := fld (c.w 1) 0 6
  let mask : BitVec 8 := BitVec.ofNat 8 (c.w 2).toNat
  if 2 < cls || 39 < n || c.w 2 = 0 || (c.w 2).toNat &&& bstTests n cls ≠ (c.w 2).toNat ||
      100 * d.bst.budget < bstPower n cls mask then d.answer o .badOperand
  else if d.bst.tests.any (fun t => t.domain == n) || 16 ≤ d.bst.tests.length then d.answer o .busy
  else if cls ≠ 0 && !d.domOn n then d.answer o .fenced
  else if (cls ≠ 0 && d.wouldRefuse n) || (cls = 0 && bstKind n = 1 && !d.quadHalted n) then d.answer o .busy
  else if saveSram < bstSave n cls && !d.domOn pdVmi then d.answer o .fenced
  else if saveSram < bstSave n cls && d.bst.ovfMib.toNat * 2 ^ 20 < bstSave n cls - saveSram then d.answer o .errLenExceeds
  else
    let t : BstTest := { domain := n, cls := cls, mask := mask, owner := o }
    { d with bst := { d.bst with tests := d.bst.tests ++ [t] } }

/-- Change the test of domain `n`. -/
def Dev.updTest (d : Dev) (n : Nat) (f : BstTest → BstTest) : Dev :=
  { d with bst := { d.bst with tests := d.bst.tests.map fun t => if t.domain = n then f t else t } }

/-- BST_RES0 (Table 20-8). -/
def bstRes0 (verdict : Nat) (yielded : Bool) (cov : Nat) (t : BstTest) : Word :=
  word (at' 30 verdict + at' 28 t.cls + flag 27 yielded + at' 17 cov + t.mask.toNat)

/-- A test ends (R440): its results, its event, and the answers of BST_RUN and of every BST_ABORT that waits. -/
def Dev.endTest (d : Dev) (t : BstTest) (st : Status) (verdict : Nat) (yielded : Bool) (dur : Word) : Dev :=
  let n := t.domain
  let cov := if t.cls = 1 && (verdict = 1 || verdict = 2) then bstCov n t.mask
    else if (t.cls = 0 && verdict = 1) || (t.cls = 2 && (verdict = 1 || verdict = 2)) then 1000 else 0
  let r0 := bstRes0 verdict yielded cov t
  let d := { d with bst := { d.bst with
    tests := d.bst.tests.filter fun x => x.domain != n
    res0 := Store.put (fun _ => 0) d.bst.res0 n r0
    res1 := Store.put (fun _ => 0) d.bst.res1 n dur } }
  let d := if t.running && t.cls = 0 && bit t.mask 0 && bstKind n = 1 then
      d.channelsSafe ((List.range 4).map (4 * (n - 2) + ·)) (64 * d.now : Nat)
    else d
  let det := 64 * t.cls + n
  let d := if verdict = 1 then d.fire 232 (payload .ok 1 det)
    else if verdict = 2 then d.fire 233 (payload .mediaError 1 det)
    else d.fire 234 (payload .aborted (if yielded then 2 else 1) det)
  t.aborters.foldl (fun d o => d.answer o .ok) (d.complete t.owner st r0 dur)

/-- The channels of a quad under PADLB hold E low and leave their safe state (R432). -/
def Dev.padlb (d : Dev) (n : Nat) : Dev :=
  times 4 (fun i d => d.updChannel (4 * (n - 2) + i) fun x => { x with e := false, inSafe := false }) d

/-- A save leaves `n` bytes of the domain in the overflow area, as far as vector memory goes (R435, R436). -/
def Dev.overflowSave (d : Dev) (n : Nat) : Dev :=
  if n = 0 then d
  else
    let a := d.bst.ovfBase.toNat
    let l := (List.range (min n (d.vmi.cap * 2 ^ 30 - a))).map (Config.savedByte d.fresh)
    ({ d with vmi := { d.vmi with mem := wrBytes d.vmi.mem a l } }).bump

/-- A LOOP test in OM7 has every PLL-kind TPLL lock again, gated (R432, R361). -/
def Dev.relockTest (d : Dev) : Dev :=
  if d.mode.mode ≠ 7 then d else times 4 (fun i d => if d.kind i = 1 then d.relock i else d) d

/-- BST_START: the oldest test that does not run test starts when its power and its save fit; `drainFail` says that its drain
failed (R436). A quad under such a test keeps its channels in their safe state. A PADLB or TDCREF also waits for the engines of R432. -/
def bstStart (drainFail : Bool) (d : Dev) : Dev :=
  match d.bst.tests.find? fun t => !t.running with
  | none => d
  | some t =>
    let n := t.domain
    let save := bstSave n t.cls
    let free := saveSram - ((d.bst.tests.filter (·.running)).map (·.sram)).foldl (· + ·) 0
    let rem := save - min save free
    let room := rem == 0 || (d.bst.tests.all (fun t => t.ovf == 0) && decide (rem ≤ d.bst.ovfMib.toNat * 2 ^ 20) &&
      d.domOn pdVmi && !d.tested pdVmi && n != pdVmi)
    if 100 * d.bst.budget < d.bstUsed + bstPower n t.cls t.mask || !room then d
    else if t.cls = 0 then
      if bstKind n = 1 && !d.quadHalted n then d
      else
        let d := d.updTest n fun t => { t with running := true }
        if bstKind n = 1 && bit t.mask 0 then d.padlb n else if bstKind n = 7 then d.relockTest else d
    else if drainFail then ({ d with noc := { d.noc with drainFail := true } }).endTest t .refused 3 false 0
    else if !d.domOn n || (d.domain n).closed || d.wouldRefuse n then d.endTest t .refused 3 false 0
    else
      let d := (d.updTest n fun t => { t with running := true, sram := min save free, ovf := rem }).overflowSave rem
      let d := if t.cls = 2 then { d with bst := { d.bst with mfail := [], movf := false } } else d
      if bstKind n = 1 then d.channelsSafe ((List.range 4).map (4 * (n - 2) + ·)) (64 * d.now : Nat)
      else if bstKind n = 2 && !(d.fabRegion (n - 18)).hold then
        (d.updFabRegion (n - 18) fun r => { r with held := r.rctl }).applyPolicies (n - 18)
      else d

/-! ## Checkpoints, aborts and ends (R438 to R441) -/

/-- BST_CHECKPOINT: the test of domain `n` stops there when an abort or a yield is wanted; the restore follows. -/
def bstCheckpoint (n : Nat) (d : Dev) : Dev :=
  d.updTest n fun t =>
    if t.running && t.stopped.isNone && (t.wantAbort || t.wantYield) then { t with stopped := some (!t.wantAbort) } else t

/-- BST_ABORT. -/
def bstAbort (c : Tci) (o : Owner) (d : Dev) : Dev :=
  let n := fld (c.w 1) 0 6
  match d.bst.tests.find? fun t => t.domain == n with
  | none => d.answer o .ok
  | some t =>
    if t.running then d.updTest n fun t => { t with wantAbort := true, aborters := t.aborters ++ [o] }
    else (d.endTest t .aborted 3 false 0).answer o .ok

/-- The spares in use: those of soft and of fused repairs (R442). -/
def Dev.spareUsed (d : Dev) (otp : Otp) (n : Nat) (w2 w3 : Word) : Bool :=
  (d.bst.soft ++ otp.fuses).any fun r => r.1 == n && fld r.2.1 24 8 == fld w2 24 8 && bit r.2.2 0 == bit w3 0

/-- An entry of BST_MFAIL: the failing bit `b` of a cell, with the repair that the test suggests for it in the layout of
W2 (R441). -/
def Dev.mfailEntry (d : Dev) (otp : Otp) (n : Nat) (w2 : Word) (b : BitVec 9) : Word × Word :=
  let used (k s : Nat) : Bool := d.spareUsed otp n (putBit w2 31 (k == 1)) (word s)
  let k := b2n (bit w2 31)
  let spare := used k 0 && !used k 1
  let unrep := used 0 0 && used 0 1 && used 1 0 && used 1 1
  (w2, word (flag 31 true + flag 30 unrep + at' 10 n + flag 9 spare + b.toNat))

/-- BST_END of the test of domain `n`: `pass` is its verdict, `dur` its duration in µs, and `cells` the failing cells that
a memory test met. A test that stopped at a checkpoint, or a PADLB that SAFE_N cut, ends ABORTED; a LOOP that saw a lock
loss, or whose TPLLs have not locked again in OM7, fails (Tables 20-1 and 20-4). -/
def bstEnd (n : Nat) (pass : Bool) (dur : Word) (cells : List (Word × BitVec 9)) (otp : Otp) (d : Dev) : Dev :=
  match d.bst.tests.find? fun t => t.domain == n && t.running with
  | none => d
  | some t =>
    let found := (cells.take 64).map fun x => d.mfailEntry otp n x.1 x.2
    let d := if t.cls = 2 then { d with bst := { d.bst with mfail := found, movf := decide (64 < cells.length) } } else d
    match t.stopped with
    | some y => d.endTest t .aborted 3 y dur
    | none =>
      if t.cls = 0 && bit t.mask 0 && bstKind n = 1 && t.cut then d.endTest t .aborted 3 false dur
      else if pass && !(t.cls = 0 && bit t.mask 2 && (t.lockLost || (decide (d.mode.mode = 7) && !d.tpllsLocked))) then d.endTest t .ok 1 false dur
      else d.endTest t .mediaError 2 false dur

/-! ## Repair (R442) -/

/-- What a repair leaves of a value: the bits outside the repaired row or column. -/
def repaired (w2 w3 : Word) (i v : Nat) : Nat := (BitVec.ofNat 128 v &&& ~~~(Config.repairMask w2 w3 i)).toNat

/-- The repaired row or column reads zero until it is written. -/
def Dev.applyRepair (d : Dev) (n : Nat) (w2 w3 : Word) : Dev :=
  let a := fld w2 24 7
  let z := repaired w2 w3
  match bstKind n with
  | 1 =>
    let k := 4 * (n - 2) + a % 4
    if a < 4 then
      d.updEngine k fun e =>
        let m := times 8192 (fun i m => Store.upd (fun _ => 0) m i fun v => BitVec.ofNat 64 (z i v.toNat)) e.mem
        { e with mem := m }
    else if a < 8 then
      d.updEngine k fun e =>
        let l := (e.fifo.zip (List.range e.fifo.length)).map fun x => BitVec.ofNat 4 (z x.2 x.1.toNat)
        { e with fifo := l }
    else d.updChannel k fun x =>
      let zero (o : Nat) (m : Store QWord) : Store QWord :=
        times 64 (fun i m => Store.upd tsReset m i fun v => BitVec.ofNat 128 (z (o + i) v.toNat)) m
      { x with act := zero 0 x.act, shd := zero 64 x.shd }
  | 2 =>
    let base := 4096 * (24 * (n - 18) + a)
    let m := times 4096 (fun i m => Store.upd (fun _ => 0) m (base + i) fun v => BitVec.ofNat 9 (z i v.toNat)) d.fab.mem
    { d with fab := { d.fab with mem := m } }
  | 3 =>
    if a < 32 then
      let m := d.fcp.fat.foldl (fun m e =>
        if e.1 / 2 % 32 = a then Store.put (fun _ => 0) m e.1 (BitVec.ofNat 120 (z e.1 e.2.toNat)) else m) d.fcp.fat
      { d with fcp := { d.fcp with fat := m } }
    else if a = 32 then
      let m := d.rae.desc.foldl (fun m e => Store.put (fun _ => 0) m e.1 (BitVec.ofNat 128 (z e.1 e.2.toNat))) d.rae.desc
      { d with rae := { d.rae with desc := m } }
    else d.updCollector (a - 33) fun x =>
      let one (i : Nat) : FcEntry → FcEntry
        | .entry e r v => .entry (BitVec.ofNat 120 (z i e.toNat)) r v
        | .close s r => .close s r
      { x with fifo := (x.fifo.zip (List.range x.fifo.length)).map fun y => one y.2 y.1 }
  | 4 =>
    let one (i : Nat) (b : NvBuf) : NvBuf :=
      { b with words := (b.words.zip (List.range b.words.length)).map fun x => (BitVec.ofNat 128 (z (2 * i + x.2) x.1.1.toNat), x.1.2) }
    let all (o : Nat) (l : List NvBuf) : List NvBuf := (l.zip (List.range l.length)).map fun x => one (o + x.2) x.1
    { d with nvs := { d.nvs with prefetch := all 0 d.nvs.prefetch, branch := all 4 d.nvs.branch } }
  | _ => d

/-- BST_REPAIR; `v` is the verify of a fuse program. -/
def bstRepair (c : Tci) (v : Verify) (o : Owner) (otp : Otp) (d : Dev) : Otp × Dev :=
  let n := fld (c.w 1) 0 6
  let fuse := bit (c.w 1) 31
  let w2 := c.w 2
  let w3 := c.w 3
  let a := fld w2 24 7
  let last := if bit w2 31 then Config.lastCol n a else Config.lastRow n a
  if bstArrays n ≤ a || last < fld w2 0 20 || fld w2 20 4 ≠ 0 || fld w3 1 31 ≠ 0 then (otp, d.answer o .badOperand)
  else if d.bst.tests.any fun t => t.running && t.domain == n then (otp, d.answer o .selfTestActive)
  else if d.spareUsed otp n w2 w3 then (otp, d.answer o .refused)
  else if fuse && decide (256 ≤ otp.fuses.length) then (otp, d.answer o .errLenExceeds)
  else if fuse && decide (v = .failed) then (otp, d.answer o .mediaError)
  else
    let otp := if fuse then { otp with fuses := otp.fuses ++ [(n, w2, w3)] } else otp
    let d := if fuse then d else { d with bst := { d.bst with soft := d.bst.soft ++ [(n, w2, w3)] } }
    let d := d.applyRepair n w2 w3
    (otp, (d.fire 235 (payload .ok (if fuse then 2 else 1) n)).answer o .ok)

/-! ## Register writes (R443) -/

/-- BST_STAT.WERR is set. -/
def Dev.bstWerr (d : Dev) : Dev := { d with bst := { d.bst with werr := true } }
/-- A write to BST_PWR_BUDGET. -/
def bstBudgetWrite (w : Word) (d : Dev) : Dev :=
  let b := fld w 0 8
  if b = 0 || 60 < b then d.bstWerr else { d with bst := { d.bst with budget := b } }
/-- A write to BST_POLICY_LO, or to BST_POLICY_HI where `hi`. -/
def bstPolicyWrite (hi : Bool) (w : Word) (d : Dev) : Dev :=
  let old := d.bst.policy.toNat
  let new : BitVec 40 := BitVec.ofNat 40 (if hi then nfld old 0 32 + at' 32 (fld w 0 8) else at' 32 (nfld old 32 8) + w.toNat)
  if !d.bst.tests.isEmpty || bit new 0 || bit new 1 || bit new 37 || bit new 39 then d.bstWerr
  else { d with bst := { d.bst with policy := new } }
/-- A write to BST_OVF_LO (0), BST_OVF_HI (1) or BST_OVF_SIZE (2). -/
def bstOvfWrite (k : Nat) (w : Word) (d : Dev) : Dev :=
  if !d.bst.tests.isEmpty then d.bstWerr
  else
    let b := d.bst.ovfBase
    match k with
    | 0 => { d with bst := { d.bst with ovfBase := dword (word (w.toNat / 4096 * 4096)) (hi32 b) } }
    | 1 => { d with bst := { d.bst with ovfBase := dword (lo32 b) (word (fld w 0 2)) } }
    | _ => { d with bst := { d.bst with ovfMib := BitVec.ofNat 12 w.toNat } }

/-! ## Meanings -/

/-- BST_RUN. -/
def execBstRun (c : Tci) (s : State) : Host.Outcome State Fault Refusal := s.onDev (runTci 0x90 c (bstRun c))
/-- BST_ABORT. -/
def execBstAbort (c : Tci) (s : State) : Host.Outcome State Fault Refusal := s.onDev (runTci 0x91 c (bstAbort c))
/-- BST_REPAIR; `v`: the verify of a fuse program. -/
def execBstRepair (c : Tci) (v : Verify) (s : State) : Host.Outcome State Fault Refusal :=
  s.onBoth (runTciOtp 0x92 c (bstRepair c v))

end Sys2Proof.Machine
end

