-- ==== Sys2Proof/Machine/Steward.lean ====
section
/-! DEFINITION. The Steward (15_steward_and_noc.md): restarts, the watchdog, bundles and patches. -/

namespace Sys2Proof.Machine

/-! ## Bundles (R340, R341) -/

/-- The bytes of bundle slot `b`: NV store block 512 + b, read by the digest helper (SRC 2). -/
def Dev.bundle (d : Dev) (b : Nat) : List Byte := (d.nvBytes 2 (65536 * (512 + b)) 65536).2.2
/-- A word of a list of bytes. -/
def byteWord (l : List Byte) (i : Nat) : Word := word (ofLeBytes ((l.drop (4 * i)).take 4))
/-- NENT of a bundle. -/
def bundleNent (l : List Byte) : Nat := fld (byteWord l 2) 0 6
/-- LEVEL of a bundle. -/
def bundleLevel (l : List Byte) : BitVec 16 := BitVec.ofNat 16 (fld (byteWord l 2) 16 16)
/-- Word `j` of entry `p` (Table 15-4). -/
def bundleEntry (l : List Byte) (p j : Nat) : Word := byteWord l (16 + 4 * p + j)
/-- The entries with BOOT. -/
def bundleBoot (l : List Byte) : Word :=
  ofBits 32 ((List.range (bundleNent l)).filter fun p => bit (bundleEntry l p 0) 31)
/-- DIGEST matches. -/
def bundleDigestOk (l : List Byte) : Bool :=
  let len := (byteWord l 3).toNat
  (l.drop 16).take 32 == sha256 (l.take 16 ++ (l.drop 48).take 16 ++ (l.take len).drop 64)
/-- No value stands twice in the list. -/
def noRepeat : List Nat → Bool
  | [] => true
  | x :: r => !r.contains x && noRepeat r
/-- Every other rule of R341, on a device with ROM version `rom`. -/
def bundleRules (rom : Word) (l : List Byte) : Bool :=
  let n := bundleNent l
  let len := (byteWord l 3).toNat
  let e (j : Nat) : List Word := (List.range n).map fun p => bundleEntry l p j
  byteWord l 1 == rom && fld (byteWord l 2) 6 10 == 0 && decide (n ≤ 32) &&
    decide (64 + 16 * n ≤ len) && decide (len ≤ 65536) && ([12, 13, 14, 15].all fun i => byteWord l i == 0) &&
    ((e 0).all fun w => fld w 5 26 == 0) && ((e 3).all fun w => w == 0) &&
    ((e 1).all fun w => w.toNat % 4 == 0 && decide (w.toNat < 0x40000)) &&
    noRepeat ((e 0).map fun w => fld w 0 5) && noRepeat ((e 1).map BitVec.toNat)
/-- The checks of STW_INSTALL, in order (R342). -/
def bundleStatus (rom : Word) (l : List Byte) : Status :=
  if byteWord l 0 ≠ 0x53545742#32 then .notPresent
  else if !bundleDigestOk l then .streamError
  else if !bundleRules rom l then .badOperand
  else .ok

/-! ## The boot record (R340, R342, R343) -/

/-- A boot record: its place, a number that rises from record to record, the bundle and its active entries. -/
structure BootRec where
  place : Nat
  seq : Nat
  bundle : Nat
  active : Word
  deriving DecidableEq, Repr

/-- The code word of a boot record. DESIGN CHOICE (log 57): its number, the bundle, the active set and the CRC-32C over the
three words; the spec gives the record no layout. -/
def bootWord (seq bundle : Nat) (active : Word) : QWord :=
  let ws : List Word := [word seq, word bundle, active]
  BitVec.ofNat 128 ((word seq).toNat + at' 32 (word bundle).toNat + at' 64 active.toNat + at' 96 (crcWords ws).toNat)
/-- The record in code word `i` of the store, if it holds one with a valid CRC. -/
def bootRecOf (i : Nat) (x : NvCell) : Option BootRec :=
  match x with
  | .erased => none
  | .unknown => none
  | .data w c =>
    let f (k : Nat) : Word := word (fld w (32 * k) 32)
    if c = 15 || crcWords [f 0, f 1, f 2] ≠ f 3 || 32 ≤ (f 1).toNat then none
    else some { place := i, seq := (f 0).toNat, bundle := (f 1).toNat, active := f 2 }
/-- What blocks 544 and 545 hold that is not erased. -/
def Dev.bootCells (d : Dev) : List (Nat × NvCell) := d.nvs.words.filter fun e => e.1 / blkWords == 544 || e.1 / blkWords == 545
/-- The record in force: the newest one with a valid CRC. -/
def Dev.bootRec (d : Dev) : Option BootRec :=
  (d.bootCells.filterMap fun e => bootRecOf e.1 e.2).foldl (fun b r =>
    match b with
    | none => some r
    | some x => if x.seq < r.seq then some r else b) none
/-- The device appends a boot record to the block of the one in force, where there is room, and else to the other one; it
first erases the other block where the record fills its own. -/
def Dev.appendBoot (d : Dev) (bundle : Nat) (active : Word) : Dev :=
  let old := d.bootRec
  let blk := (old.map fun r => r.place / blkWords).getD 544
  let next := d.bootCells.foldl (fun n e => if e.1 / blkWords = blk then max n (e.1 + 1) else n) (blkWords * blk)
  let i := if next < blkWords * (blk + 1) then next else blkWords * (1089 - blk)
  let d := if i % blkWords = blkWords - 1 then d.nvErase (1089 - i / blkWords) true else d
  (d.nvPut i (bootWord ((old.map (·.seq)).getD 0 + 1) bundle active) (.passed 0)).1

/-! ## The core (R337, R341) -/

/-- The word that the core fetches at an address of its ROM or SRAM; an active patch takes the place of the ROM's word. -/
def Dev.stwFetch (d : Dev) (a : Nat) : Option Word :=
  let b := a / 4 * 4
  if b < 0x40000 then
    some (match d.stw.patch.find? fun e => e.2.1.toNat == b with
      | some e => e.2.2
      | none => Config.stwRom (b / 4))
  else if 0x10000000 ≤ b && b < 0x10040000 then some (rd32 d.stw.sram (b - 0x10000000))
  else none

/-! ## Restarts (R338, R339) -/

/-- A restart begins: the queues pause, SRAM outside the patch area is wiped, the core is reset. `rsn` is its reason code. -/
def Dev.restart (d : Dev) (rsn : Nat) (o : Option Owner) : Dev :=
  let d := times 4 (fun q d => d.updQueue q fun x => { x with state := if x.state = .run then .paused else x.state }) d
  { d with stw := { d.stw with
    restarting := true
    safeRom := d.stw.safeRom || d.stw.safeNext
    safeNext := false
    lastRsn := rsn
    restarts := satAdd 65535 d.stw.restarts 1
    sram := Store.clear d.stw.sram fun k => decide (k < 0x30000)
    core := {}
    owner := o } }

/-- The boot record is read, and the patches of the bundle that it names take their places, or none do (R341, R343): blocks
that hold no valid record but are not erased run without patches. -/
def Dev.stwBoot (d : Dev) : Dev :=
  match d.bootRec with
  | none => { d with stw := { d.stw with
      installed := false, patch := [], safeRom := d.stw.safeRom || !d.bootCells.isEmpty } }
  | some r =>
    let d := { d with stw := { d.stw with installed := true, bundle := r.bundle, active := r.active } }
    let l := d.bundle d.stw.bundle
    if d.stw.safeRom || decide (bundleStatus d.fuse.romVer l ≠ .ok) then
      { d with stw := { d.stw with safeRom := true, patch := [] } }
    else
      let n := bundleNent l
      let body := (l.take (byteWord l 3).toNat).drop (64 + 16 * n)
      let patch := (List.range 32).filterMap fun k =>
        ((List.range n).find? fun p => bit d.stw.active p && fld (bundleEntry l p 0) 0 5 == k).map fun p =>
          (k, bundleEntry l p 1, bundleEntry l p 2)
      { d with stw := { d.stw with
        patch := patch
        level := bundleLevel l
        sram := wrBytes d.stw.sram 0x30000 body } }

/-- LEVEL as STW_LEVEL and STW_VERSION show it. -/
def Dev.stwLevel (d : Dev) : Nat := if d.stw.safeRom then 0 else d.stw.level.toNat

/-- RESTART_DONE. -/
def restartDone (d : Dev) : Dev :=
  if !d.stw.restarting then d
  else
    let o := d.stw.owner
    let d := ({ d with stw := { d.stw with restarting := false, owner := none } }).stwBoot
    let d := times 4 (fun q d => d.updQueue q fun x => { x with state := if x.state = .paused then .run else x.state }) d
    let d := if d.stw.safeRom then
        ({ d with stw := { d.stw with lastRsn := 4 } }).fire 255 (payload .refused 4 0)
      else d.fire 255 (payload .ok 3 0)
    match o with
    | some o => d.complete o .ok d.stw.active (word d.stwLevel)
    | none => d

/-- WATCHDOG: the third restart within one operating second makes the next one run without patches (R338). -/
def watchdog (d : Dev) : Dev :=
  if d.stw.restarting then d
  else
    let n := if d.stw.wdogSec = d.log.opsec then d.stw.wdogIn + 1 else 1
    let d := d.restart 1 d.stw.owner
    ({ d with stw := { d.stw with
      wdogSec := d.log.opsec
      wdogIn := if n = 3 then 0 else n
      wdogCnt := satAdd 65535 d.stw.wdogCnt 1
      safeNext := n == 3 } }).fire 255 (payload .timeout 1 0)

/-- STEWARD_MEMERR. -/
def stewardMemerr (d : Dev) : Dev :=
  if d.stw.restarting then d else (d.restart 2 d.stw.owner).fire 255 (payload .mediaError 2 0)

/-! ## Commands (R331, R342, R343) -/

/-- STW_INSTALL. -/
def stwInstall (c : Tci) (o : Owner) (d : Dev) : Dev :=
  let b := fld (c.w 1) 0 5
  let l := d.bundle b
  if c.w 1 ≠ word b then d.answer o .badOperand
  else match bundleStatus d.fuse.romVer l with
    | .ok =>
      let d := d.appendBoot b (bundleBoot l)
      let d := { d with stw := { d.stw with
        installed := true
        bundle := b
        active := bundleBoot l
        level := bundleLevel l
        safeRom := false
        safeNext := false } }
      d.restart 3 (some o)
    | st => d.answer o st

/-- STW_PATCH. -/
def stwPatch (c : Tci) (o : Owner) (d : Dev) : Dev :=
  let p := fld (c.w 1) 0 5
  if c.w 1 ≠ word p then d.answer o .badOperand
  else if !d.stw.installed || d.stw.safeRom then d.answer o .notPresent
  else if bundleNent (d.bundle d.stw.bundle) ≤ p then d.answer o .badOperand
  else if bit d.stw.active p then d.answer o .ok
  else
    let a := setBit d.stw.active p
    let d := d.appendBoot d.stw.bundle a
    ({ d with stw := { d.stw with active := a } }).restart 3 (some o)

/-- STW_VERSION. -/
def stwVersion (o : Owner) (d : Dev) : Dev := d.complete o .ok d.fuse.romVer (word d.stwLevel)

/-- A write to STW_WDOG (Table 15-12). -/
def stwWdogWrite (w : Word) (d : Dev) : Dev :=
  let v := fld w 0 10
  if v < 10 || 1000 < v then { d with stw := { d.stw with werr := true } }
  else { d with stw := { d.stw with periodMs := v } }

/-! ## The meanings -/

/-- WATCHDOG. -/
def execWatchdog (s : State) : Host.Outcome State Fault Refusal := s.onDev fun _ d => watchdog d
/-- STEWARD_MEMERR. -/
def execStewardMemerr (s : State) : Host.Outcome State Fault Refusal := s.onDev fun _ d => stewardMemerr d
/-- RESTART_DONE. -/
def execRestartDone (s : State) : Host.Outcome State Fault Refusal := s.onDev fun _ d => restartDone d
/-- STW_VERSION. -/
def execStwVersion (c : Tci) (s : State) : Host.Outcome State Fault Refusal := s.onDev (runTci 0xE0 c stwVersion)
/-- STW_PATCH. -/
def execStwPatch (c : Tci) (s : State) : Host.Outcome State Fault Refusal := s.onDev (runTciAt pdNvs 0xE1 c (stwPatch c))
/-- STW_INSTALL. -/
def execStwInstall (c : Tci) (s : State) : Host.Outcome State Fault Refusal :=
  s.onDev (runTciAt pdNvs 0xE2 c (stwInstall c))

end Sys2Proof.Machine
end

