-- ==== Sys2Proof/Machine/Reset.lean ====
section
/-! DEFINITION. What a reset leaves: the state before a power-on or a release of RESET_N, the reset of the domains at the
end of a life-cycle transition, and the power-on sequence (R308, R374, R451, R487). -/

namespace Sys2Proof.Machine

/-- A zone after a release of RESET_N: a configured one is LOCKED with 8 attempts (R406). -/
def Zone.relock (z : Zone) : Zone := { z with st := if z.st = 0 then 0 else 1, attempts := 8 }

/-- The flash and what the NVS block holds after a reset. -/
def NvsState.restarted (n : NvsState) : NvsState :=
  { words := n.words, lost := n.lost, row := n.row, rowLost := n.rowLost, ecnt := n.ecnt,
    zone := Store.mapVals zoneReset Zone.relock n.zone }

/-- The Steward's state after a reset: the bundle that the boot record names. -/
def StwState.restarted (w : StwState) : StwState :=
  { installed := w.installed, bundle := w.bundle, active := w.active, level := w.level }

/-- What a reset leaves of the device; `vin` says that VIN was lost. Every register takes its reset value; the
non-volatile store, what lies outside the device, the pins and the model's own records stay; RESET_N alone also keeps the
operating hours, the token attempts, the vector memory with its wipe bitmap and configuration, and the TAP. -/
def Dev.afterReset (d : Dev) (vin : Bool) : Dev :=
  let d := d.nvCut
  { fuse := d.fuse
    log := { opsec := d.log.opsec, pcc := d.log.pcc, opBlk := d.log.opBlk, opPos := d.log.opPos, retired := d.log.retired,
             calDegraded := d.log.calDegraded, bootVin := vin }
    cmd := { subsystem := d.cmd.subsystem, hostMem := d.cmd.hostMem, messages := d.cmd.messages, gen := d.cmd.gen + 1 }
    byt := { uid := d.byt.uid, sent := d.byt.sent }
    pwr := { vinMv := d.pwr.vinMv }
    nvs := d.nvs.restarted
    cfg := { plane := d.cfg.plane, glob := d.cfg.glob, active := d.cfg.stored, stored := d.cfg.stored }
    lcy := { attempts := if vin then 3 else d.lcy.attempts }
    vmi := if vin then { refreshed := d.vmi.refreshed }
      else { mem := d.vmi.mem, wipe := d.vmi.wipe, ranks2 := d.vmi.ranks2, rate := d.vmi.rate, refreshed := d.vmi.refreshed }
    tap := if vin then {} else d.tap
    stw := d.stw.restarted
    noc := { sent := d.noc.sent }
    pin := { d.pin with safeN := d.pin.safePin || (!vin && d.tap.ir == 0), band := 0 }
    rdata := d.rdata
    fresh := d.fresh }

/-- Step 7 of a life-cycle transition: every domain except PD_AON and PD_HOST is reset as after Off and restore, and the
mode becomes OM0 (R451). The staging ring is zeroed with the other volatile memories. -/
def Dev.resetDomains (d : Dev) (scrap : Bool) : Dev :=
  { d with
    time := {}
    mode := {}
    clk := {}
    evt := {}
    log := if scrap then { opsec := d.log.opsec, pcc := d.log.pcc, opBlk := d.log.opBlk, opPos := d.log.opPos }
      else { d.log with
        degraded := false, dcause := 0, frozen := false, werr := false, annBusy := false, opened := none, ring := []
        ann := none, drops0 := 0, drops1 := 0, drops2 := 0, drops3 := 0, dropsBefore := false, dropEvAt := none, freezePend := none
        freezeSrc := 0, remainMs := 0, dlen := 0, annSev := 0, annPayload := 0, annBuf := [] }
    eng := {}
    tim := {}
    cal := {}
    fcp := {}
    rae := {}
    txn := {}
    byt := { uid := d.byt.uid, sent := d.byt.sent }
    pwr := { d.pwr with dom := Store.mapVals domainReset (fun x => { en := x.en, evt := x.evt }) d.pwr.dom, reqs := [] }
    noc := { d.noc with tags := [], held := [] }
    nvs := { d.nvs.restarted with zone := d.nvs.zone }
    fab := {}
    cfg := { plane := d.cfg.plane, glob := d.cfg.glob }
    bst := { soft := d.bst.soft }
    vmi := { wipe := d.vmi.wipe, ranks2 := d.vmi.ranks2, rate := d.vmi.rate, refreshed := d.vmi.refreshed }
    stw := d.stw.restarted
    pin := { d.pin with band := 0 } }

/-- The sensing of the power-on sequence: the configuration, the Steward's bundle, the calibration row and the partner
data blocks (R308, R343, R460, R465). -/
def Dev.senseAll (d : Dev) (otp : Otp) (globErr : Bool) (planeErr : BitVec 16) : Dev :=
  (d.stwBoot.ptrPowerOn otp).cfgPowerOn globErr planeErr

end Sys2Proof.Machine
end

