-- ==== Sys2Proof/Machine/Lcy.lean ====
section
/-! DEFINITION. The life cycle (21_life_cycle.md): the states, transitions and tokens, the wipe, resumption, and the LCY
commands. -/

namespace Sys2Proof.Machine

/-! ## Registers (Table 21-9) -/

/-- A DIAG state. -/
def isDiag (s : Nat) : Bool := decide (8 ≤ s) && decide (s ≤ 11)
/-- LCY_STAT.ORIGIN. -/
def Otp.origin (o : Otp) : Nat :=
  if isDiag o.state then ((o.recs.filter (·.written)).getLast?.map (·.origin)).getD 0 else o.state
/-- LCY_STAT. -/
def lcyStat (o : Otp) (d : Dev) : Word :=
  let r : TransRec := o.recs.getLast?.getD { origin := 0, target := 0, intent := false }
  word (at' 28 o.state + at' 24 o.origin + at' 20 r.target + flag 19 d.lcy.busy + flag 18 d.lcy.resumed + flag 17 r.intent +
    flag 16 r.wiped + flag 15 r.written + flag 14 r.cleared + at' 12 d.lcy.attempts + d.lcy.lstatus.code)
/-- Use fuses left of DIAG_(k + 1) (R446). -/
def Otp.diagLeft (o : Otp) (k : Nat) : Nat := 16 - Store.get (fun _ => 0) o.diagUsed k
/-- LCY_FUSE. -/
def lcyFuse (o : Otp) : Word :=
  word (at' 24 o.recs.length + at' 15 (o.diagLeft 3) + at' 10 (o.diagLeft 2) + at' 5 (o.diagLeft 1) + o.diagLeft 0)
/-- The digest of token `k`. -/
def Otp.token (o : Otp) (k : Nat) : Option (BitVec 256) := Store.get (fun _ => none) o.digest k
/-- LCY_DIGSET. -/
def lcyDigset (o : Otp) : Word := word ((List.range 9).foldl (fun v k => v + flag k (o.token k).isSome) 0)

/-! ## Checks (R447 to R449) -/

/-- The token of a permitted transition (Table 21-2): none where the pair is refused, `some none` for a DIAG exit. -/
def transToken (o : Otp) (tgt : Nat) : Option (Option Nat) :=
  let s := o.state
  if tgt = 5 then (if s = 5 then none else some (some 8))
  else if s = 0 && tgt = 1 then some (some 0)
  else if s = 1 && tgt = 2 then some (some 1)
  else if s = 2 && tgt = 3 then some (some 2)
  else if s = 3 && tgt = 4 then some (some 3)
  else if (s = 3 || s = 4) && isDiag tgt then some (some (4 + (tgt - 8)))
  else if isDiag s && tgt = o.origin then some none
  else none

/-- The bytes that a digest is made over: the token, the target and the UID (R448). -/
def tokenBytes (token : QWord) (tgt : Nat) (uid : DWord) : List Byte :=
  leBytes 16 token.toNat ++ leBytes 1 tgt ++ leBytes 8 uid.toNat

/-- The device is ready for a transition (check 5). -/
def Dev.lcyReady (d : Dev) : Bool :=
  d.allHalted && d.cfg.load.isNone && !(d.bst.tests.any (·.running)) && !d.nvBusy && d.cal.sweep.isNone && !d.pwr.droop &&
    (List.range 8).all fun t => !(d.slot t).st.holds

/-- The checks before the token. -/
def lcyChecks (o : Otp) (d : Dev) (tgt : Nat) : Status :=
  if !(tgt ≤ 5 || isDiag tgt) then .badOperand
  else match transToken o tgt with
    | none => .lifecycleDenied
    | some tk =>
      if isDiag tgt && o.diagLeft (tgt - 8) == 0 then .lifecycleDenied
      else if d.lcy.attempts = 0 then .lifecycleDenied
      else if (match tk with
        | some k => (o.token k).isNone
        | none => false) then .notPresent
      else if !d.lcyReady then .busy
      else if !d.domOn pdNvs || !d.domOn pdVmi then .fenced
      else .ok

/-- The token opens the transition (check 7). -/
def tokenOk (o : Otp) (d : Dev) (tgt : Nat) (token : QWord) : Bool :=
  match transToken o tgt with
  | none => false
  | some none => token == 0
  | some (some k) => decide (o.token k = some (sha256n (tokenBytes token tgt d.byt.uid)))

/-! ## The steps (R451 to R453) -/

/-- Step 1: the open record is sealed and the staging ring written, unless the recorder is degraded. -/
def Dev.flushLog (d : Dev) : Dev :=
  if d.log.degraded then d
  else times 66 (fun _ d =>
    logRecordWrite (.passed 0) (recordSeal (.passed 0)
      { d with log := { d.log with opened := d.log.opened.map fun (o : OpenRec) => { o with due := true } } })) d

/-- Step 2: the next record with INTENT, and the use fuse of a DIAG entry. -/
def Otp.intent (o : Otp) (tgt : Nat) : Otp :=
  { o with
    recs := o.recs ++ [{ origin := o.state, target := tgt }]
    diagUsed := if isDiag tgt then Store.upd (fun _ => 0) o.diagUsed (tgt - 8) (· + 1) else o.diagUsed }

/-- A block holds a code word that is not erased (R453). -/
def Dev.blockDirty (d : Dev) (b : Nat) : Bool :=
  Store.get (fun _ => false) d.nvs.lost b || d.nvs.words.any fun e => e.1 / blkWords == b
/-- A wipe of one block: a clean one gains no erase count. -/
def Dev.wipeBlock (d : Dev) (b : Nat) : Dev := if d.blockDirty b then d.nvErase b true else d

/-- The NV blocks that a wipe erases (Table 21-4). -/
def wipeBlocks (scrap : Bool) : List Nat :=
  List.range 512 ++ (List.range 224).map (768 + ·) ++ (List.range 64).map (546 + ·) ++
    if scrap then (List.range 34).map (512 + ·) ++ (List.range 32).map (610 + ·) ++ (List.range 32).map (992 + ·) else []

/-- What a wipe does to the key slots. -/
def KeySlot.retire (scrap : Bool) (k : KeySlot) : KeySlot := { key := none, gens := if scrap then 4 else k.gens }

/-- Step 3: the wipe of Table 21-4. -/
def lcyWipe (scrap : Bool) (o : Otp) (d : Dev) : Otp × Dev :=
  let d := (wipeBlocks scrap).foldl Dev.wipeBlock d
  let d := { d with
    cfg := { d.cfg with plane := [], glob := {}, active := 0, stored := 0, nocfg := true, blank := true, done := false }
    nvs := { d.nvs with zone := [], ecnt := if scrap then [] else d.nvs.ecnt }
    vmi := { d.vmi with mem := [] }
    stw := if scrap then {} else d.stw }
  let d := if scrap then
      let d := opsecStore (.passed 0) { d with log := { d.log with opBlk := 992, opPos := 0 } }
      { d with nvs := { d.nvs with ecnt := [] } }
    else d
  let one (k : Nat) (l : Store KeySlot) : Store KeySlot := Store.upd (fun _ => {}) l k (KeySlot.retire scrap)
  ({ o with keys := one 1 (one 0 o.keys), encOnly := false, kill := o.kill || scrap }, d)

/-- Change the newest record. -/
def Otp.mark (o : Otp) (f : TransRec → TransRec) : Otp :=
  match o.recs.getLast? with
  | some r => { o with recs := o.recs.dropLast ++ [f r] }
  | none => o

/-- Step `n` of Table 21-3 for target `tgt`. -/
def lcyStep (tgt n : Nat) (x : Otp × Dev) : Otp × Dev :=
  let (o, d) := x
  match n with
  | 1 => (o, d.flushLog)
  | 2 => (o.intent tgt, d)
  | 3 => lcyWipe (tgt == 5) o d
  | 4 => (o.mark fun r => { r with wiped := true }, d)
  | 5 => (o.mark fun r => { r with written := true }, d)
  | 6 => (o.mark fun r => { r with cleared := true }, d)
  | _ =>
    let d := (d.resetDomains (tgt == 5)).startLoops.trainPorts
    let d := d.fire 244 (payload .ok 1 tgt)
    (o, if isDiag tgt then d.fire 247 (payload .ok 1 (256 * o.diagLeft (tgt - 8) + (tgt - 7))) else d)

/-- The steps from `n` for `k` steps. -/
def lcySteps (tgt : Nat) (ns : List Nat) (x : Otp × Dev) : Otp × Dev := ns.foldl (fun x n => lcyStep tgt n x) x

/-- A transition is asked for: its status, none while its steps are not complete. `upto` is the last step that completes
before power or reset cuts it (7 where nothing does). -/
def lcyRun (tgt : Nat) (token : QWord) (upto : Nat) (o : Otp) (d : Dev) : Otp × Dev × Option Status :=
  let fail (st : Status) (d : Dev) : Otp × Dev × Option Status :=
    (o, { d with lcy := { d.lcy with lstatus := st } }, some st)
  match lcyChecks o d tgt with
  | .ok =>
    if !tokenOk o d tgt token then
      let n := d.lcy.attempts - 1
      fail .tokenInvalid (({ d with lcy := { d.lcy with attempts := n } }).fire 245 (payload .tokenInvalid 1 n))
    else
      let d := { d with lcy := { d.lcy with busy := true } }
      let x := lcySteps tgt ((List.range 7).map (· + 1) |>.filter (· ≤ upto)) (o, d)
      if upto < 7 then (x.1, x.2, none)
      else (x.1, { x.2 with lcy := { x.2.lcy with busy := false, lstatus := .ok } }, some .ok)
  | st => fail st d

/-- LCY_TRANSITION (R449, R451). -/
def lcyTransition (c : Tci) (upto : Nat) (w : Owner) (o : Otp) (d : Dev) : Otp × Dev :=
  let token : QWord := BitVec.ofNat 128 ((c.w64 2).toNat + at' 64 (c.w64 4).toNat)
  let r := lcyRun (fld (c.w 1) 0 4) token upto o d
  match r.2.2 with
  | none => (r.1, r.2.1)
  | some .ok => (r.1, r.2.1.complete w .ok (lcyStat r.1 r.2.1) (lcyFuse r.1))
  | some st => (r.1, r.2.1.answer w st)

/-- LCY_QUERY. -/
def lcyQuery (w : Owner) (o : Otp) (d : Dev) : Otp × Dev := (o, d.complete w .ok (lcyStat o d) (lcyFuse o))

/-! ## Resumption (R454) -/

/-- The steps that a resumption repeats. -/
def TransRec.todo (r : TransRec) : List Nat :=
  if !r.intent || r.cleared then [] else if r.written then [6] else if r.wiped then [5, 6] else [3, 4, 5, 6]

/-- A resumption at the start of the device, where the newest record asks for one; `upto` is the last step that completes
before it is cut itself. The flag says that the start goes on. -/
def lcyResume (upto : Nat) (o : Otp) (d : Dev) : Otp × Dev × Bool :=
  match o.recs.getLast? with
  | none => (o, d, true)
  | some r =>
    if r.todo.isEmpty then (o, d, true)
    else
      let d := { d with lcy := { d.lcy with busy := true } }
      let x := lcySteps r.target (r.todo.filter (· ≤ upto)) (o, d)
      if upto < 6 then (x.1, x.2, false)
      else
        let d := { x.2 with lcy := { x.2.lcy with busy := false, resumed := true } }
        (x.1, d.fire 246 (payload .ok 1 r.target), true)

/-! ## Meanings -/

/-- LCY_QUERY. -/
def execLcyQuery (c : Tci) (s : State) : Host.Outcome State Fault Refusal := s.onBoth (runTciOtp 0xB0 c lcyQuery)
/-- LCY_TRANSITION; `upto`: the last step of Table 21-3 that completes before power or RESET_N cuts it, 7 where nothing
does. -/
def execLcyTransition (c : Tci) (upto : Fin 8) (s : State) : Host.Outcome State Fault Refusal :=
  s.onBoth (runTciOtp 0xB1 c (lcyTransition c upto))

end Sys2Proof.Machine
end

