-- ==== Sys2Proof/Machine/RegRead.lean ====
section
/-! DEFINITION. What every register reads as, by its offset in BAR0 (R6, Table 1-6 and the register maps of the chapters),
and what a read does: captures and counters that clear (R6, R56, R70, R100, R238, R430). -/

namespace Sys2Proof.Machine

/-! ## Codes of states as registers show them -/

/-- SYS_IDCODE (R4). -/
def idcode : Word := 0x16403C9B
/-- CLK_TIME_CTL.ROLE. -/
def Role.code : Role → Nat
  | .undetermined => 0 | .root => 1 | .downstream => 2
/-- CLK_LOOP_STAT.STATE. -/
def LoopSt.code : LoopSt → Nat
  | .off => 0 | .search => 1 | .acquire => 2 | .locked => 3 | .holdover => 4 | .track => 5
/-- ENG_STAT.STATE (Table 4-3). -/
def EngSt.code : EngSt → Nat
  | .idle => 0 | .run => 1 | .wait => 2 | .sync => 3 | .stopped => 4 | .follower => 5
/-- A region's state (Table 9-3). -/
def RegSt.code : RegSt → Nat
  | .idle => 0 | .opened => 1 | .closing => 2 | .closed => 3 | .queued => 4 | .active => 5 | .done => 6
/-- RAE_STAT.STATE. -/
def RaeSt.code : RaeSt → Nat
  | .idle => 0 | .gather => 1 | .must => 2 | .search => 3 | .write => 4 | .ringWait => 5 | .held => 6
/-- TXN_SSTAT.STATE (Table 10-1). -/
def TxnSt.code : TxnSt → Nat
  | .free => 0 | .opened => 1 | .preparing => 2 | .ready => 3 | .voted => 4 | .committed => 5 | .applied => 6
  | .aborted => 7 | .outstep => 8
/-- CMD_CQ_STAT.STATE. -/
def QState.code : QState → Nat
  | .disabled => 0 | .run => 1 | .halted => 2 | .paused => 3
/-- BYT_STAT.JSTATE. -/
def JState.code : JState → Nat
  | .none => 0 | .training => 1 | .joining => 2 | .joined => 3 | .refused => 4 | .root => 5
/-- BYT_PORT_STAT.ROLE. -/
def PortRole.code : PortRole → Nat
  | .down => 0 | .training => 1 | .upstream => 2 | .downstream => 3 | .blocked => 4

/-- An array of `n` registers from `base` with a stride: the index and the offset within the element. -/
def regIdx (o base stride n : Nat) : Option (Nat × Nat) :=
  if base ≤ o && decide ((o - base) / stride < n) then some ((o - base) / stride, (o - base) % stride) else none
/-- The same where every element is one register of 4 bytes. -/
def regArr (o base n : Nat) : Option Nat :=
  match regIdx o base 4 n with
  | some (i, 0) => some i
  | _ => none

/-! ## SYS, CLK -/

/-- SYS (Tables 1-4 and 3-6 to 3-8). -/
def sysRead (d : Dev) (o : Nat) : Option Word :=
  match o with
  | 0x00 => some idcode
  | 0x80 =>
    let p := d.pendMode
    some (word (flag 31 p.isSome + at' 28 (p.getD 0) + flag 27 d.mode.settled + flag 26 d.engLock + at' 8 d.mode.prev + d.mode.mode))
  | 0x84 => some d.mode.stamp.lo
  | 0x88 => some d.mode.capHi
  | _ => none

/-- POSTDIV of a TPLL: 1 at an output of 1.5 GHz or more, else 2 (R356). -/
def Dev.postdiv (d : Dev) : Nat :=
  if d.time.period ≠ 0 && eclkGe d.time.mult d.time.period.toNat 1500000000 then 1 else 2

/-- STATE of loop `i`: a loop that acquires lock is in its band search or past it, in ACQUIRE, and the spec gives the search no
time of its own: which of the two is free (R358, R361). -/
def Dev.loopState (d : Dev) (i : Nat) : Nat :=
  let st := (d.loop i).state
  if st = .search then (if Config.acquires d.fresh then 2 else 1) else st.code

/-- The four registers of loop `i` (Tables 16-6 to 16-9). -/
def loopRead (d : Dev) (i o : Nat) : Option Word :=
  let l := d.loop i
  match o with
  | 0x0 =>
    let p := if i < 4 then d.postdiv else if i = 4 then 1 else 2
    some (word (at' 30 (d.kind i) + at' 8 (if i < 4 then d.time.mult * p else 15) + flag 0 (p == 2)))
  | 0x4 =>
    some (word (at' 29 (d.loopState i) + flag 28 l.loss + flag 27 l.holdExp + flag 26 l.bsFail + flag 25 l.fmaxTrip +
      flag 24 l.werr + l.diff.toNat))
  | 0x8 => some (word (at' 16 l.trips + l.minper))
  | 0xC => some (word (at' 16 l.band.toNat + l.cw.toNat))
  | _ => none

/-- CLK (Tables 2-5 to 2-12, 16-5). -/
def clkRead (d : Dev) (o : Nat) : Option Word :=
  let t := d.time
  match regIdx o 0 16 6 with
  | some (i, r) => loopRead d i r
  | none => match regIdx o 0x200 8 32 with
    | some (k, 0) => some (lo32 (d.seg (k / 16) (k % 16)) &&& 0x1FFFFFFF#32)
    | some (k, 4) => some (hi32 (d.seg (k / 16) (k % 16)) &&& 0xFFFFFF00#32)
    | some _ => none
    | none => match o with
      | 0x060 =>
        some (word (at' 28 d.clk.spreadEff.toNat + at' 24 d.clk.spreadDepth.toNat + d.clk.spreadSeed.toNat))
      | 0x100 => some (word (at' 8 t.mult + flag 2 t.beatoutEn + t.role.code))
      | 0x104 => some d.stamp.lo
      | 0x108 => some t.capHi
      | 0x10C => some t.capFrac
      | 0x110 => some (word t.period.toNat)
      | 0x114 =>
        let rem := if t.rampActive then segDur (d.seg t.rampSlot t.rampSeg) - t.rampBeat else 0
        some (word (flag 31 t.rampActive + flag 30 t.rampDev + flag 29 t.rampWerr + at' 28 t.rampSlot + at' 22 t.rampSeg + rem))
      | 0x180 => some (word t.startHz0.toNat)
      | 0x184 => some (word t.startHz1.toNat)
      | _ => none

/-! ## ENG, TIM, EPM -/

/-- A state register of an engine (R100): in RUN a value that is not coordinated with the vector stream, one of those that the
register can hold. -/
def Dev.stateReg (d : Dev) (e : Engine) (len v : Nat) : Option Word :=
  some (word (if e.st = .run then (Config.runningRead d.fresh).toNat % 2 ^ len else v % 2 ^ len))

/-- ENG_FLAGS: [15:11] read 0 and FABF is the live line (Table 4-2), in RUN too. -/
def Dev.flagsReg (d : Dev) (e : Engine) : Option Word :=
  some (word (putBit (if e.st = .run then BitVec.ofNat 16 (Config.runningRead d.fresh).toNat &&& 0x7FF#16 else e.a.flags) 9 e.fabf).toNat)

/-- ENG_RSP: 0 to 16. -/
def Dev.rspReg (d : Dev) (e : Engine) : Option Word :=
  some (word (if e.st = .run then (Config.runningRead d.fresh).toNat % 17 else e.a.rsp))

/-- ENG_REPLEFT: the repeats of the instruction at PC that have not started (Table 4-13). -/
def Engine.replLeft (e : Engine) : Nat := if e.flight.isEmpty then e.a.repLeft else e.ckpt.repLeft

/-- The engine is in a hole: between its vectors (Table 4-10). -/
def Dev.onPad (d : Dev) (e : Engine) : Bool := e.st.moving && decide (e.vecEnd ≤ d.now)

/-- ENG block of engine `n` (Table 4-9). -/
def engRead (d : Dev) (n o : Nat) : Option Word :=
  let e := d.engine n
  let a := e.a
  let st := d.stateReg e
  match regArr o 0x040 8, regArr o 0x060 4, regArr o 0x0C0 16, regArr o 0x100 16 with
  | some k, _, _, _ => st 32 (a.gr k).toNat
  | _, some k, _, _ => st 24 (a.lcr k).toNat
  | _, _, some j, _ => st 13 (a.rs j).toNat
  | _, _, _, some m => some (word (e.pinEntry m).toNat)
  | none, none, none, none => match o with
    | 0x000 =>
      some (word (at' 28 e.st.code + at' 20 e.cause + at' 9 e.also.toNat + flag 8 e.tinv + flag 7 e.werr + flag 6 (d.onPad e)))
    | 0x004 => some 0
    | 0x008 => st 13 (flag 12 a.active + a.pc.toNat)
    | 0x00C => some (word e.replLeft)
    | 0x010 => some e.stopStamp.lo
    | 0x014 => some e.stopHiCap
    | 0x020 => some (word (flag 3 e.refill.isSome + flag 2 (d.pageStaged n) + flag 1 a.svalid + flag 0 a.active))
    | 0x024 =>
      let l := d.engine (d.leader n)
      some (word (at' 4 l.a.map.toNat + flag 3 (e.st == .follower) + e.sizeLog2))
    | 0x030 => d.flagsReg e
    | 0x034 => d.rspReg e
    | 0x038 => some (word e.strmap.toNat)
    | 0x03C => some (word ((e.fifo.length + 1) / 2))
    | 0x070 => st 24 a.xa.toNat
    | 0x074 => st 24 a.ya.toNat
    | 0x078 => st 24 a.xmax.toNat
    | 0x07C => st 24 a.ymax.toNat
    | 0x080 => st 32 (lo32 a.dg).toNat
    | 0x084 => st 32 (hi32 a.dg).toNat
    | 0x140 => some (word e.scrx.toNat)
    | 0x144 => some (word e.scry.toNat)
    | 0x148 => some (lo32 e.scrd)
    | 0x14C => some (hi32 e.scrd)
    | 0x180 => some (lo32 a.fxout)
    | 0x184 => some e.fxoutCap
    | 0x188 => some (lo32 e.fxin)
    | 0x18C => some e.fxinCap
    | _ => none

/-- TIM block of channel `c` (Table 6-13). -/
def timRead (d : Dev) (c o : Nat) : Option Word :=
  let x := d.channel c
  match regArr o 0x400 256, regArr o 0x800 256 with
  | some i, _ => some (word (fld (x.active (i / 4)) (32 * (i % 4)) 32))
  | _, some i => some (word (fld (x.shadow (i / 4)) (32 * (i % 4)) 32))
  | none, none => match o with
    | 0x000 => some (word (at' 4 x.chSafe.toNat + at' 2 x.slew.toNat + flag 1 x.swing + flag 0 x.smask))
    | 0x004 =>
      some (word (at' 24 x.vstatus.code + at' 18 x.vset + flag 17 x.check.isSome + flag 4 x.inSafe + flag 2 x.werr +
        flag 1 x.coll + flag 0 x.cmpErr))
    | 0x008 => some (word (b2n x.dmask))
    | 0x010 => some 0
    | 0x014 => some 0
    | 0x018 => some 0
    | 0x020 => some (lo32 x.svalid)
    | 0x024 => some (hi32 x.svalid)
    | 0x028 => some (word (at' 16 x.stbDrop + x.edgeDrop))
    | _ => none

/-- EPM window of engine `n`: half `o / 4 % 2` of instruction `o / 8` over both pages (R80). -/
def epmRead (d : Dev) (n o : Nat) : Word :=
  let w := Store.get (fun _ => (0 : DWord)) (d.engine n).mem (o / 8)
  if o / 4 % 2 = 0 then lo32 w else hi32 w

/-! ## CAL, FCP, RAE -/

/-- A 64-bit mask as its LO and HI registers. -/
def half (w : DWord) (hi : Bool) : Word := if hi then hi32 w else lo32 w

/-- CAL (Tables 7-7 to 7-14). -/
def calRead (d : Dev) (o : Nat) : Option Word :=
  let c := d.cal
  match regArr o 0x020 8, regIdx o 0x1000 32 64 with
  | some m, _ =>
    let x := d.modeCfg m
    some (word (flag 5 x.stepEn + flag 4 x.measEn + x.orl))
  | _, some (ch, r) =>
    if r < 20 && r % 4 = 0 then
      let x := d.corr ch (r / 4)
      some (word (flag 31 x.oor + flag 30 x.mvalid + at' 16 (unsgn 12 x.target) + unsgn 12 x.corr))
    else none
  | none, none =>
    let oor := ofBits 64 ((List.range 64).filter d.oorOf)
    match o with
    | 0x000 => some (word (b2n c.freeze))
    | 0x004 =>
      some (word (flag 31 c.sweep.isSome + flag 30 c.holdoff + flag 29 c.werr + at' 16 c.stepcnt.toNat + c.tdcFault.toNat))
    | 0x008 => some (word (flag 31 c.steal + c.intv.toNat))
    | 0x00C => some (word c.refPer.toNat)
    | 0x040 => some (lo32 c.sweepEn)
    | 0x044 => some (hi32 c.sweepEn)
    | 0x048 => some (lo32 c.winz)
    | 0x04C => some (hi32 c.winz)
    | 0x050 => some (lo32 oor)
    | 0x054 => some (hi32 oor)
    | 0x058 => some (lo32 c.miss)
    | 0x05C => some (hi32 c.miss)
    | _ => none

/-- FCP (Tables 8-9 to 8-13). -/
def fcpRead32 (d : Dev) (o : Nat) : Option Word :=
  let f := d.fcp
  match regArr o 0x040 8, regArr o 0x060 8, regArr o 0x080 8, regArr o 0x100 128 with
  | some k, _, _, _ =>
    let x := d.collector k
    some (word (flag 20 x.compact + at' 13 x.rsv + x.level))
  | _, some k, _, _ => some (word (d.collector k).ovf)
  | _, _, some k, _ => some (word (d.collector k).mkDrop)
  | _, _, _, some j => some (word (fld f.rloss (32 * j) 32))
  | none, none, none, none => match o with
    | 0x000 =>
      let comp := ofBits 8 ((List.range 8).filter fun k => (d.collector k).compact)
      some (word (at' 30 f.mode.code + flag 29 f.clearing + flag 28 d.collectorsIdle +
        flag 27 (f.mode == .append && f.ringFull) + flag 26 f.mloss + flag 25 f.ue + flag 24 f.ce + flag 23 f.werr + comp.toNat))
    | 0x004 => some (word f.wptr.toNat)
    | 0x008 => some (word f.rptr.toNat)
    | 0x00C => some (word (at' 16 f.ueCnt + f.ceCnt))
    | 0x010 => some (word f.eccAddr)
    | 0x014 => some (word f.mlossCnt)
    | 0x018 => some (word f.noblkCnt)
    | _ => none

/-- RAE (Tables 9-10 to 9-15). -/
def raeRead32 (d : Dev) (o : Nat) : Option Word :=
  let r := d.rae
  match regArr o 0x1000 512 with
  | some j => some (word ((List.range 8).foldl (fun v i => v + at' (4 * i) (d.region (8 * j + i)).st.code) 0))
  | none => match o with
    | 0x000 => some (word (flag 17 r.ringEn + flag 16 r.autoEn + r.defBudget.toNat))
    | 0x004 =>
      some (word (at' 29 r.st.code + flag 28 (r.st == .ringWait) + flag 27 r.werr + at' 12 r.queue.length + r.region))
    | 0x008 => some (lo32 r.rbase)
    | 0x00C => some (hi32 r.rbase)
    | 0x010 => some (word r.log2u)
    | 0x014 => some (word r.rhead.toNat)
    | 0x018 => some (word r.rtail.toNat)
    | _ => none

/-! ## TXN, BYT -/

/-- A target as the HI register of a stamp pair shows it. -/
def Target.hi (t : Target) : Word := word (at' 24 t.epoch.toNat + fld t.gci 32 16)

/-- TXN (Tables 10-7 to 10-11). -/
def txnRead (d : Dev) (o : Nat) : Option Word :=
  let x := d.txn
  match regIdx o 0x040 0x20 8 with
  | some (t, r) =>
    let s := d.slot t
    match r with
    | 0x00 =>
      let cause := if s.st = .aborted || s.st = .outstep then s.cause.code else 0
      some (word (at' 28 s.st.code + at' 26 s.kind + at' 16 cause + s.acts.length))
    | 0x04 => some s.xid
    | 0x08 => some (word (fld s.target.gci 0 32))
    | 0x0C => some s.tgtHiCap
    | 0x10 => some (word s.detail)
    | 0x14 => some (word s.dNs)
    | _ => none
  | none => match o with
    | 0x000 => some (word x.voteTmo)
    | 0x004 => some (word (flag 31 (x.oosTxn || x.oosBeat) + flag 30 x.oosSrcBeat + at' 27 x.oosSlot))
    | 0x008 => some x.oosXid
    | _ => none

/-- BYT (Tables 11-11 to 11-16). -/
def bytRead (d : Dev) (o : Nat) : Option Word :=
  let b := d.byt
  let root := decide (d.time.role = .root)
  match regIdx o 0x020 0x10 4, regIdx o 0x1000 8 1024, regIdx o 0x3000 4 1024, regIdx o 0x4000 4 8192 with
  | some (p, r), _, _, _ =>
    let x := d.port p
    match r with
    | 0x0 => some (word (at' 29 x.role.code + at' 26 x.stage + x.partner))
    | 0x4 => some (word (flag 31 x.latValid + x.latPs))
    | 0x8 => some (word x.asym.toNat)
    | 0xC => some (word (at' 16 x.retrain + x.frames))
    | _ => none
  | _, some (a, r), _, _ =>
    let x := d.dirEnt a
    match r with
    | 0 => some (word (flag 31 x.present + flag 30 x.eligible + at' 26 x.depth + at' 16 x.parent))
    | 4 => some (word x.latPs)
    | _ => none
  | _, _, some (i, r), _ =>
    if r = 0 then some (if root then word (fld (Store.get (fun _ => (0 : BitVec 256)) b.fwdRing (i / 8)) (32 * (i % 8)) 32) else 0)
    else none
  | _, _, _, some (i, r) =>
    if r = 0 then some (word (fld (Store.get (fun _ => (0 : BitVec 1024)) b.group (i / 32)) (32 * (i % 32)) 32)) else none
  | none, none, none, none => match regIdx o 0xC000 4 4096 with
    | some (i, 0) =>
      some (if root then word (fld (Store.get (fun _ => (0 : QWord)) b.sumTab (i / 4)) (32 * (i % 4)) 32) else 0)
    | some _ => none
    | none => match o with
      | 0x000 => some (word (flag 2 b.upFix + b.upSel))
      | 0x004 =>
        let up := if root then (Config.rootUpPort d.fresh).toNat else b.upPort.getD 0
        some (word (at' 29 b.jstate.code + flag 28 b.aligned + flag 27 b.eligible + flag 26 d.txn.oosBeat + at' 24 up +
          at' 20 b.depth + b.addr))
      | 0x008 => some (lo32 b.uid)
      | 0x00C => some (hi32 b.uid)
      | 0x010 => some (word d.treeLat)
      | 0x014 => some (word b.sumIntv.toNat)
      | 0x018 => some (word (at' 16 b.fwdDrop + at' 8 b.fwdTail.toNat + b.fwdHead.toNat))
      | _ => none

/-! ## CFG and the fabric registers -/

/-- CFG (Tables 12-12 to 12-18, 13-10 to 13-14). -/
def cfgRead (otp : Otp) (d : Dev) (o : Nat) : Option Word :=
  let c := d.cfg
  let f := d.fab
  let holds := (List.range 16).filter d.inHold
  match regArr o 0x040 16, regArr o 0x080 16, regArr o 0x800 32, regArr o 0x900 16, regArr o 0x940 16 with
  | some n, _, _, _, _ => some (d.actPlane n).sid
  | _, some n, _, _, _ => some (d.shdPlane n).sid
  | _, _, some k, _, _ => some (d.gclk k)
  | _, _, _, some n, _ => some (d.fabRegion n).rctl
  | _, _, _, _, some n =>
    let r := d.fabRegion n
    some (word (flag 31 (d.inHold n) + flag 30 r.fxDrop + flag 29 r.rspDrop))
  | none, none, none, none, none => match o with
    | 0x000 =>
      let ls := match c.load with
        | some l => l.pass + 1
        | none => if c.startup then 4 else 0
      some (word (at' 29 ls + flag 28 c.done + flag 27 c.err + flag 26 c.nocfg + at' 23 c.suStep + flag 22 c.lfull +
        at' 18 c.lregion + at' 8 c.lstatus.code))
    | 0x004 =>
      some (word (at' 16 (ofBits 16 ((List.range 16).filter fun n => (d.shdPlane n).valid)).toNat + c.active.toNat))
    | 0x008 => some (word c.errPos.toNat)
    | 0x00C => some (word c.prog)
    | 0x010 => some (lo32 c.su)
    | 0x014 => some (hi32 c.su)
    | 0x018 =>
      let k (i : Nat) : KeySlot := Store.get (fun _ => ({} : KeySlot)) otp.keys i
      some (word (flag 31 otp.encOnly + at' 28 (k 1).gens + flag 27 (k 1).key.isSome + at' 24 (k 0).gens + flag 23 (k 0).key.isSome))
    | 0x01C => some (word (at' 16 (kcv otp 1) + kcv otp 0))
    | 0x020 => some (word c.checked.toNat)
    | 0x880 => some (word (flag 31 f.werr + (ofBits 16 holds).toNat))
    | 0x980 => some f.hookCfg
    | 0x984 => some (word (at' 16 f.hookDrop + f.hook.length))
    | 0x988 => some (word f.portClk.toNat)
    | _ => none

/-! ## CMD -/

/-- A register of queue `q` (Tables 14-11 to 14-13). -/
def queueRead (d : Dev) (q o : Nat) : Option Word :=
  let x := d.queue q
  match o with
  | 0x00 => some (word (flag 31 x.en + flag 30 x.loc + at' 8 x.rqLog2 + x.cqLog2w))
  | 0x04 =>
    some (word (at' 30 x.state.code + flag 29 x.rqFull + flag 28 x.dberr + flag 27 x.werr +
      at' 16 (if x.state = .halted then x.hstatus.code else 0) + x.inflight))
  | 0x08 => some (lo32 x.cqBase)
  | 0x0C => some (hi32 x.cqBase)
  | 0x10 => some (word x.cqTail.toNat)
  | 0x14 => some (word x.cqHead.toNat)
  | 0x18 => some (lo32 x.rqBase)
  | 0x1C => some (hi32 x.rqBase)
  | 0x20 => some (word x.rqHead.toNat)
  | 0x24 => some (word x.rqTail.toNat)
  | 0x28 => some (word (at' 16 x.coalTime.toNat + x.coalCount.toNat))
  | 0x2C => some x.haltTag
  | _ => none

/-- CMD (Table 14-9). -/
def cmdRead (d : Dev) (o : Nat) : Option Word :=
  match regIdx o 0x100 0x40 4, regIdx o 0x1000 16 256, regArr o 0x2000 8, regIdx o 0x8000 0x1000 8 with
  | some (q, r), _, _, _ => queueRead d q r
  | _, some (v, r), _, _ =>
    let x := Store.get msixReset d.cmd.msix v
    match r with
    | 0 => some x.addrLo
    | 4 => some x.addrHi
    | 8 => some x.data
    | 12 => some (word (b2n x.masked))
    | _ => none
  | _, _, some w, _ => some (word (fld d.cmd.pba (32 * w) 32))
  | _, _, _, some (k, r) =>
    if r % 4 = 0 then
      let x := d.queue (k / 2)
      some (Store.get (fun _ => (0 : Word)) (if k % 2 = 0 then x.cqWin else x.rqWin) (r / 4))
    else none
  | none, none, none, none => match o with
    | 0x000 => some (word (at' 4 d.cmd.linkWidth.toNat + d.cmd.linkSpeed.toNat))
    | 0x004 => some d.cmd.lost
    | _ => none

/-! ## STW, NOC, PWR, NVS -/

/-- STW (Table 15-12). -/
def stwRead (d : Dev) (o : Nat) : Option Word :=
  let w := d.stw
  match o with
  | 0x00 =>
    some (word (flag 31 w.restarting + flag 30 w.safeRom + flag 29 w.installed + flag 28 w.werr + at' 23 w.bundle + at' 8 w.lastRsn))
  | 0x04 => some (word w.periodMs)
  | 0x08 => some w.active
  | 0x0C => some d.fuse.romVer
  | 0x10 => some (word d.stwLevel)
  | 0x14 => some (word (at' 16 w.wdogCnt + w.restarts))
  | _ => none

/-- A word of a route table, by its offset from the table's base. -/
def routeWord (t : Store Word) (o : Nat) : Option Word :=
  let r := o / 0x100
  let p := o % 0x100 / 0x20
  let w := o % 0x20 / 4
  if o % 4 = 0 && r < 36 && p < 5 && w < 5 then some (Store.get rtReset t (rtKey r p w)) else none

/-- A register of Lens probe `k` (Table 15-15). -/
def lensRead (d : Dev) (k o : Nat) : Option Word :=
  let x := d.lens k
  match regArr o 0x08 4, regArr o 0x18 4 with
  | some i, _ => some (word (fld x.mtch (32 * i) 32))
  | _, some i => some (word (fld x.mask (32 * i) 32))
  | none, none => match o with
    | 0x00 => some (word (at' 30 x.mode + at' 27 x.st + x.post.toNat))
    | 0x04 => some (word (flag 11 x.dir + at' 8 x.port.toNat + x.router.toNat))
    | 0x28 => some (word x.pkt)
    | 0x2C => some (word x.units)
    | 0x30 => some x.thresh
    | 0x34 => some (word x.wptr.toNat)
    | _ => none

/-- NOC (Tables 15-13 to 15-15). -/
def nocRead (d : Dev) (o : Nat) : Option Word :=
  let n := d.noc
  match regArr o 0x100 64, regIdx o 0x800 0x40 8, regIdx o 0x8000 4 8192 with
  | some i, _, _ => some (word (Store.get (fun _ => 100) n.tmo i))
  | _, some (k, r), _ => lensRead d k r
  | _, _, some (i, r) =>
    if r = 0 then some (word (fld (Store.get (fun _ => (0 : BitVec 256)) (d.lens (i / 1024)).trace (i % 1024 / 8)) (32 * (i % 8)) 32))
    else none
  | none, none, none =>
    if 0x4000 ≤ o && o < 0x8000 then routeWord n.act (o - 0x4000)
    else if 0x1000 ≤ o && o < 0x4000 then routeWord n.shd (o - 0x1000)
    else match o with
      | 0x00 => some (word (flag 31 n.werr + flag 30 n.drainFail))
      | 0x04 => some (word n.unmap)
      | 0x08 => some (word n.postDrop)
      | 0x0C => some (word n.late)
      | 0x10 => some (word n.drainTmo)
      | 0x14 =>
        some (word (at' 24 n.vstatus.code + flag 23 n.check.isSome + at' 17 n.vrouter + at' 14 n.vport + at' 8 n.vdest))
      | 0x20 => some 0
      | 0x24 => some 0
      | 0x28 => some 0
      | 0x2C => some 0
      | 0x30 => some (word (fld n.svalid 0 32))
      | 0x34 => some (word (fld n.svalid 32 4))
      | _ => none

/-- PWR (Tables 17-11 and 17-12). -/
def pwrRead (d : Dev) (o : Nat) : Option Word :=
  let p := d.pwr
  match regArr o 0x010 3, regArr o 0x100 40 with
  | some w, _ => some (d.dstate w)
  | _, some n =>
    let x := d.domain n
    some (word (flag 31 x.latch + at' 8 x.evt.toNat + x.en.toNat))
  | none, none => match o with
    | 0x00 => some (word (flag 31 p.droop + flag 30 p.seen + p.vinMv % 65536))
    | 0x04 => some (word p.droopMv)
    | 0x08 => some (word (flag 31 (!p.reqs.isEmpty) + flag 30 p.werr + at' 16 p.lstatus.code + p.ldomain))
    | 0x0C => some (word p.rail.toNat)
    | 0x20 =>
      let gone := (d.time.ticks - p.timerAt) * (if d.time.period = 0 then 10 ^ 7 else d.time.period.toNat) / 10 ^ 9
      some (word (flag 31 p.timerEn + flag 30 p.expired + (p.countUs.toNat - if p.timerEn then gone else 0)))
    | _ => none

/-- NVS (Tables 18-8 to 18-11). -/
def nvsRead32 (otp : Otp) (d : Dev) (o : Nat) : Option Word :=
  let n := d.nvs
  match regArr o 0x000 7, regArr o 0x040 16, regArr o 0x080 4, regArr o 0x100 64, regArr o 0x1000 1024 with
  | some _, _, _, _, _ => some 0
  | _, some z, _, _, _ =>
    let x := d.zone z
    some (word (at' 30 x.st + flag 29 x.wp + flag 28 x.rp + at' 24 x.attempts + at' 10 x.last + x.first))
  | _, _, some b, _, _ =>
    let x := d.nvBank b
    let e := x.erase
    some (word (at' 29 x.state + at' 27 ((e.map fun e => if e.stopped then e.susp else 0).getD 0) + at' 16 x.lstatus.code + (e.map (·.block)).getD 0))
  | _, _, _, some s, _ =>
    let x := Store.get (fun _ => ({} : RdStat)) n.rdstat s
    some (word (flag 31 x.ue + flag 30 x.susp + flag 29 x.early + at' 22 x.cbits.toNat + x.line))
  | _, _, _, _, some k =>
    let c := Store.get (fun _ => 0) n.ecnt k
    some (word (flag 31 (decide (10000 ≤ c)) + c))
  | none, none, none, none, none =>
    if 0x2000 ≤ o && o < 0x3000 && o % 4 = 0 then some (word (ofLeBytes (d.rowBytes otp (o - 0x2000) 4)))
    else match o with
      | 0x20 =>
        some (word (flag 31 (n.seq.step != 0) + at' 25 n.seq.src + flag 24 n.seqErr + flag 23 n.werr + at' 8 n.lstatus.code))
      | 0x24 => some (word (flag 31 n.autosusp + n.xip.toNat))
      | 0x28 => some (word n.ethr)
      | 0x2C => some (word n.ewarn)
      | _ => none

/-! ## EVT, LOG, BST, LCY, PTR, VMI -/

/-- EVT (Tables 19-8 and 19-9). -/
def evtRead (d : Dev) (o : Nat) : Option Word :=
  match regArr o 0x000 256, regArr o 0x400 8, regIdx o 0x1000 16 256 with
  | some n, _, _ =>
    let c := d.evtCfg n
    some (word (flag 31 c.en + flag 7 c.byt + flag 6 c.alert + flag 5 c.rcd + flag 4 c.stw + flag 3 c.msi + c.sev))
  | _, some w, _ => some (word (fld d.evt.stat (32 * w) 32))
  | _, _, some (n, r) =>
    let c := Store.get evtCapReset d.evt.cap n
    match r with
    | 0 => some (d.evtLast n).payload
    | 4 => some c.lo
    | 8 => some c.hi
    | 12 => some c.fc
    | _ => none
  | none, none, none =>
    if o = 0x420 then some (word (flag 31 d.alert + flag 30 d.evt.logfail + flag 29 d.pin.safeN)) else none

/-- LOG (Tables 19-10 and 19-11). -/
def logRead (d : Dev) (o : Nat) : Option Word :=
  let l := d.log
  match regArr o 0x400 244 with
  | some k => some (Store.get (fun _ => (0 : Word)) l.annBuf k)
  | none => match o with
    | 0x00 =>
      some (word (flag 31 l.degraded + flag 30 l.frozen + flag 29 l.opened.isSome + flag 28 l.werr + flag 27 l.erasing.isSome +
        at' 25 l.dcause + flag 24 l.annBusy + at' 17 l.ring.length + l.curblk))
    | 0x04 => some l.seqOldCap
    | 0x08 => some l.seqNew
    | 0x0C => some l.opsec
    | 0x10 => some (word l.pcc.toNat)
    | 0x20 => some l.drops0
    | 0x24 => some l.drops1
    | 0x28 => some l.drops2
    | 0x2C => some l.drops3
    | 0x30 => some (word l.retired.toNat)
    | 0x34 => some (word l.remainMs)
    | 0x40 => some (word (at' 2 l.dlen + l.annSev))
    | 0x44 => some l.annPayload
    | _ => none

/-- BST (Tables 20-7 and 20-8). -/
def bstRead (otp : Otp) (d : Dev) (o : Nat) : Option Word :=
  let b := d.bst
  match regIdx o 0x100 8 40, regIdx o 0x400 8 64 with
  | some (n, r), _ =>
    if r = 0 then some (Store.get (fun _ => (0 : Word)) b.res0 n)
    else if r = 4 then some (Store.get (fun _ => (0 : Word)) b.res1 n) else none
  | _, some (k, r) =>
    let x := b.mfail.getD k (0, 0)
    if r = 0 then some x.1 else if r = 4 then some x.2 else none
  | none, none => match o with
    | 0x00 =>
      let u := d.bstUsed
      let w := if u % 100 = 0 then u / 100 else (Config.partWatts u).toNat
      some (word (flag 31 b.werr + flag 30 (d.tested pdFat) + at' 16 w + b.tests.length))
    | 0x04 => some (word b.budget)
    | 0x08 => some (word (fld b.policy 0 32))
    | 0x0C => some (word (fld b.policy 32 8))
    | 0x10 => some (lo32 b.ovfBase)
    | 0x14 => some (hi32 b.ovfBase)
    | 0x18 => some (word b.ovfMib.toNat)
    | 0x20 => some (word b.failDrop)
    | 0x24 => some (word (flag 31 b.movf + b.mfail.length))
    | 0x28 => some (word otp.fuses.length)
    | _ => none

/-- LCY (Tables 21-8 and 21-9). -/
def lcyRead (otp : Otp) (d : Dev) (o : Nat) : Option Word :=
  match o with
  | 0x0 => some (lcyStat otp d)
  | 0x4 => some (lcyFuse otp)
  | 0x8 => some (lcyDigset otp)
  | _ => none

/-- PTR_ENT (Table 22-7): the descriptor's fields show while the entry holds a valid one. -/
def PtrEnt.entWord (e : PtrEnt) : Word :=
  let has := !e.desc.isEmpty
  let w1 := descWord e.desc 1
  word (at' 29 e.st + flag 28 e.legacy + flag 27 e.bus + at' 17 e.daddr.toNat +
    if has then flag 26 (bit w1 11) + at' 24 (fld w1 8 2) + at' 11 (fld (descWord e.desc 2) 0 6 + 1) + fld w1 0 6 else 0)

/-- PTR (Tables 22-6 and 22-7). -/
def ptrRead (d : Dev) (o : Nat) : Option Word :=
  let p := d.ptr
  match regArr o 0x004 2, regIdx o 0x400 16 64, regArr o 0x800 144 with
  | some b, _, _ =>
    let n := ((List.range 64).filter fun i =>
      let e := d.ptrEnt i
      e.st != 0 && e.st != 4 && !e.legacy && b2n e.bus == b && e.daddr != 0).length
    some (word (flag 31 (bit p.legacy b) + n))
  | _, some (i, r), _ =>
    let e := d.ptrEnt i
    match r with
    | 0 => some e.entWord
    | 4 => some (word (fld e.pid 0 32))
    | 8 => some (word (fld e.pid 32 16))
    | 12 => some e.digest
    | _ => none
  | _, _, some k => some (word (ofLeBytes (Store.getList (fun _ => (0 : Byte)) p.hdesc (4 * k) 4)))
  | none, none, none => match o with
    | 0x00 => some (word (flag 31 p.werr + flag 30 p.full + flag 29 p.calRowBad))
    | 0x10 => some (word (flag 30 p.hdBusy + at' 8 p.hdStatus.code + p.hdIndex))
    | _ => none

/-- VMI (Tables 1-7, 22-8 and 22-9). -/
def vmiRead (d : Dev) (o : Nat) : Option Word :=
  let v := d.vmi
  match regIdx o 0x400 16 64 with
  | some (n, r) =>
    match r with
    | 0 => some (word (d.streamAddr n))
    | 4 => some (word (nfld (d.streamAddr n) 32 2))
    | 8 => some (word (d.stream n).left)
    | _ => none
  | none => match o with
    | 0x00 => some (word (at' 28 v.chFail.toNat + flag 27 v.training + flag 26 v.wiping + flag 25 v.ready + flag 24 v.werr + at' 19 v.cap))
    | 0x04 => some (word (flag 3 v.ranks2 + v.rate.toNat))
    | 0x10 => some (lo32 v.wipe)
    | 0x14 => some (hi32 v.wipe)
    | 0x18 => some (word (at' 24 v.errStatus.code + v.errCount))
    | 0x40 => some (word v.wpage.toNat)
    | _ => none

/-! ## The map (Table 1-6) -/

/-- The blocks of BAR0; `eng`, `tim` and `epm` name their engine or channel. -/
inductive Block where
  | sys | cmd | evt | pwr | clk | byt | txn | nvs | log | bst | lcy | noc | ptr | vmi | cfg | stw | fcp | rae | cal
  | eng (n : Nat) | tim (c : Nat) | epm (n : Nat)
  | fab (port : Nat)
  deriving DecidableEq, Repr

/-- The block that a BAR0 offset falls into, with the offset in it. -/
def blockOf (off : Nat) : Option (Block × Nat) :=
  let blks : List Block :=
    [.sys, .cmd, .evt, .pwr, .clk, .byt, .txn, .nvs, .log, .bst, .lcy, .noc, .ptr, .vmi, .cfg, .stw, .fcp, .rae, .cal]
  if off < 0x130000 then (blks[off / 0x10000]?).map fun b => (b, off % 0x10000)
  else if 0x200000 ≤ off && off < 0x240000 then some (.eng (off / 0x1000 % 64), off % 0x1000)
  else if 0x300000 ≤ off && off < 0x340000 then some (.tim (off / 0x1000 % 64), off % 0x1000)
  else if 0x400000 ≤ off && off < 0x800000 then some (.epm ((off - 0x400000) / 0x10000), off % 0x10000)
  else if 0x1000000 ≤ off && off < 0x2000000 then some (.fab ((off - 0x1000000) / 0x400000), off % 0x400000)
  else none

/-- The power domain whose closed edge answers for a block; none for the blocks that are always reached. -/
def Block.domain : Block → Option Nat
  | .eng n => some (pdEq n) | .tim c => some (pdEq c) | .epm n => some (pdEq n)
  | .byt => some pdBy | .nvs => some pdNvs | .vmi => some pdVmi | .fcp => some pdFat | .rae => some pdFat
  | .fab p => srcDomain (40 + p)
  | .sys => none | .cmd => none | .evt => none | .pwr => none | .clk => none | .txn => none | .log => none | .bst => none
  | .lcy => none | .noc => none | .ptr => none | .cfg => none | .stw => none | .cal => none

/-- What the register at a block's offset reads as; none where the offset is not decoded (R22). -/
def regVal (otp : Otp) (d : Dev) (b : Block) (o : Nat) : Option Word :=
  match b with
  | .sys => sysRead d o | .cmd => cmdRead d o | .evt => evtRead d o | .pwr => pwrRead d o | .clk => clkRead d o
  | .byt => bytRead d o | .txn => txnRead d o | .nvs => nvsRead32 otp d o | .log => logRead d o
  | .bst => bstRead otp d o | .lcy => lcyRead otp d o | .noc => nocRead d o | .ptr => ptrRead d o | .vmi => vmiRead d o
  | .cfg => cfgRead otp d o | .stw => stwRead d o | .fcp => fcpRead32 d o | .rae => raeRead32 d o | .cal => calRead d o
  | .eng n => engRead d n o | .tim c => timRead d c o
  | .epm n => if o % 4 = 0 then some (epmRead d n o) else none
  | .fab _ => none

/-! ## What a read does -/

/-- Captures and RC counters, by block and offset. -/
def readEffect (b : Block) (o : Nat) (d : Dev) : Dev :=
  match b, o with
  | .sys, 0x84 => { d with mode := { d.mode with capHi := d.mode.stamp.hi } }
  | .clk, 0x104 =>
    { d with time := { d.time with capHi := d.stamp.hi, capFrac := word d.stamp.frac.toNat } }
  | .clk, o =>
    if o < 0x60 && o % 16 = 8 then d.updLoop (o / 16) fun l => { l with trips := 0 }
    else if o < 0x60 && o % 16 = 4 then d.bump
    else d
  | .eng n, 0x010 => d.updEngine n fun e => { e with stopHiCap := e.stopStamp.hi }
  | .eng n, 0x180 => d.updEngine n fun e => { e with fxoutCap := hi32 e.a.fxout }
  | .eng n, 0x188 => d.updEngine n fun e => { e with fxinCap := hi32 e.fxin }
  | .eng n, _ => if (d.engine n).st = .run then d.bump else d
  | .tim c, 0x028 => d.updChannel c fun x => { x with stbDrop := 0, edgeDrop := 0 }
  | .fcp, 0x00C => { d with fcp := { d.fcp with ueCnt := 0, ceCnt := 0 } }
  | .fcp, 0x014 => { d with fcp := { d.fcp with mlossCnt := 0 } }
  | .fcp, 0x018 => { d with fcp := { d.fcp with noblkCnt := 0 } }
  | .fcp, o => match regArr o 0x060 8, regArr o 0x080 8 with
    | some k, _ => d.updCollector k fun x => { x with ovf := 0 }
    | _, some k => d.updCollector k fun x => { x with mkDrop := 0 }
    | none, none => d
  | .txn, o => match regIdx o 0x040 0x20 8 with
    | some (t, 8) => d.updSlot t fun s => { s with tgtHiCap := s.target.hi }
    | _ => d
  | .byt, 0x004 => if d.time.role = .root then d.bump else d
  | .byt, 0x018 => { d with byt := { d.byt with fwdDrop := 0 } }
  | .byt, o => match regIdx o 0x020 0x10 4 with
    | some (p, 0xC) => d.updPort p fun x => { x with retrain := 0, frames := 0 }
    | _ => d
  | .cfg, 0x984 => { d with fab := { d.fab with hookDrop := 0 } }
  | .cmd, 0x004 => { d with cmd := { d.cmd with lost := 0 } }
  | .stw, 0x14 => { d with stw := { d.stw with wdogCnt := 0, restarts := 0 } }
  | .noc, 0x04 => { d with noc := { d.noc with unmap := 0 } }
  | .noc, 0x08 => { d with noc := { d.noc with postDrop := 0 } }
  | .noc, 0x0C => { d with noc := { d.noc with late := 0 } }
  | .nvs, 0x2C => { d with nvs := { d.nvs with ewarn := 0 } }
  | .evt, o => match regIdx o 0x1000 16 256 with
    | some (n, 0) =>
      let l := d.evtLast n
      let c : EvtCap := { lo := l.stamp.lo, hi := l.stamp.hi, fc := word (at' 16 l.stamp.frac.toNat + l.count) }
      { d with evt := { d.evt with cap := Store.put evtCapReset d.evt.cap n c } }
    | _ => d
  | .log, 0x08 => { d with log := { d.log with seqOldCap := d.log.seqOld } }
  | .log, 0x20 => { d with log := { d.log with drops0 := 0 } }
  | .log, 0x24 => { d with log := { d.log with drops1 := 0 } }
  | .log, 0x28 => { d with log := { d.log with drops2 := 0 } }
  | .log, 0x2C => { d with log := { d.log with drops3 := 0 } }
  | .bst, 0x20 => { d with bst := { d.bst with failDrop := 0 } }
  | .vmi, 0x18 => { d with vmi := { d.vmi with errCount := 0 } }
  | _, _ => d

/-- A read of the register at a block's offset: its value, and the device after it; an offset that is not decoded reads
zero and is counted (R22). -/
def Dev.regRead (otp : Otp) (d : Dev) (b : Block) (o : Nat) : Word × Dev :=
  match regVal otp d b o with
  | some v => (v, readEffect b o d)
  | none => (0, d.undecoded)

end Sys2Proof.Machine
end

