-- ==== Sys2Proof/Machine/RegWrite.lean ====
section
/-! DEFINITION. What a write of every register does, by its offset in BAR0 (R6, R7, Table 1-6 and the register maps of the
chapters). Reserved fields and read-only registers ignore a write (R7, Table 0-3); a register whose chapter states that the
whole write is dropped is one of the named writes of the chapters' files. -/

namespace Sys2Proof.Machine

/-- Write 1 to clear: the flag after a write whose bit `i` is set. -/
def w1c (old : Bool) (w : Word) (i : Nat) : Bool := old && !bit w i
/-- Put the 32-bit word `i` of a wide value. -/
def putWord {n : Nat} (x : BitVec n) (i : Nat) (w : Word) : BitVec n :=
  BitVec.ofNat n (x.toNat - nfld x.toNat (32 * i) 32 * 2 ^ (32 * i) + w.toNat * 2 ^ (32 * i))
/-- Clear in the 32-bit word `i` of a wide value the bits that are set in `w`. -/
def clearWord {n : Nat} (x : BitVec n) (i : Nat) (w : Word) : BitVec n := x &&& ~~~(BitVec.ofNat n (w.toNat * 2 ^ (32 * i)))

/-! ## CLK, ENG, TIM, CAL -/

/-- CLK (Tables 2-5 to 2-12, 16-5). -/
def clkWrite (o : Nat) (w : Word) (d : Dev) : Dev :=
  match regIdx o 0 16 6 with
  | some (i, 4) => d.updLoop i fun l =>
      { l with
        loss := w1c l.loss w 28, holdExp := w1c l.holdExp w 27, bsFail := w1c l.bsFail w 26
        fmaxTrip := w1c l.fmaxTrip w 25, werr := w1c l.werr w 24 }
  | some (i, 8) => loopGuardWrite i w d
  | some _ => d
  | none => match regIdx o 0x200 8 32 with
    | some (k, r) => rampSegWrite (k / 16) (k % 16) (r == 4) w d
    | none =>
      let t := d.time
      if o = 0x100 then { d with time := { t with beatoutEn := bit w 2 } }
      else if o = 0x114 then { d with time := { t with rampDev := w1c t.rampDev w 30, rampWerr := w1c t.rampWerr w 29 } }
      else if o = 0x180 then rampStartWrite 0 w d
      else if o = 0x184 then rampStartWrite 1 w d
      else d

/-- ENG block of engine `n` (Table 4-9). -/
def engWrite (n o : Nat) (w : Word) (d : Dev) : Dev :=
  if o = 0x000 then d.updEngine n fun e => { e with werr := w1c e.werr w 7 }
  else if o = 0x004 then engHaltWrite n w d
  else if o = 0x020 then svalidWrite n w d
  else if 0x100 ≤ o && o < 0x140 then pinmapWrite n ((o - 0x100) / 4) w d
  else if 0x140 ≤ o && o < 0x150 then scrWrite n ((o - 0x140) / 4) w d
  else engStateWrite n o w d

/-- TIM block of channel `c` (Table 6-13). -/
def timRegWrite (c o : Nat) (w : Word) (d : Dev) : Dev :=
  if 0x800 ≤ o then timShadowWrite c ((o - 0x800) / 16) ((o - 0x800) / 4 % 4) w d
  else match o with
    | 0x000 => timChcfgWrite c w d
    | 0x004 => d.updChannel c fun x =>
        { x with werr := w1c x.werr w 2, coll := w1c x.coll w 1, cmpErr := w1c x.cmpErr w 0 }
    | 0x010 => timSwapWrite c false w d
    | 0x014 => timSwapWrite c true w d
    | 0x018 => timTschkWrite c w d
    | _ => d

/-- CAL (Tables 7-7 to 7-14). -/
def calWrite (o : Nat) (w : Word) (d : Dev) : Dev :=
  let c := d.cal
  match regArr o 0x020 8, regIdx o 0x1000 32 64 with
  | some m, _ => calModecfgWrite m w d
  | _, some (ch, r) => calCorrWrite ch (r / 4) w d
  | none, none => match o with
    | 0x000 => { d with cal := { c with freeze := bit w 0 } }
    | 0x004 =>
      { d with cal := { c with werr := w1c c.werr w 29, tdcFault := c.tdcFault &&& ~~~(BitVec.ofNat 16 w.toNat) } }
    | 0x008 => calOm2Write w d
    | 0x040 => { d with cal := { c with sweepEn := putWord c.sweepEn 0 w } }
    | 0x044 => { d with cal := { c with sweepEn := putWord c.sweepEn 1 w } }
    | 0x048 => { d with cal := { c with winz := putWord c.winz 0 w } }
    | 0x04C => { d with cal := { c with winz := putWord c.winz 1 w } }
    | 0x058 => { d with cal := { c with miss := clearWord c.miss 0 w } }
    | 0x05C => { d with cal := { c with miss := clearWord c.miss 1 w } }
    | _ => d

/-! ## FCP, RAE, TXN, BYT -/

/-- FCP (Tables 8-9 to 8-13). -/
def fcpWrite (o : Nat) (w : Word) (d : Dev) : Dev :=
  let f := d.fcp
  match regArr o 0x100 128 with
  | some j => { d with fcp := { f with rloss := clearWord f.rloss j w } }
  | none =>
    if o = 0x000 then
      { d with fcp := { f with
          mloss := w1c f.mloss w 26, ue := w1c f.ue w 25, ce := w1c f.ce w 24, werr := w1c f.werr w 23 } }
    else if o = 0x008 then fcpRptrWrite w d
    else d

/-- RAE (Tables 9-10 to 9-15). -/
def raeWrite (o : Nat) (w : Word) (d : Dev) : Dev :=
  match o with
  | 0x000 => raeCtlWrite w d
  | 0x004 => { d with rae := { d.rae with werr := w1c d.rae.werr w 27 } }
  | 0x008 => raeRingWrite 0 w d
  | 0x00C => raeRingWrite 1 w d
  | 0x010 => raeRingWrite 2 w d
  | 0x018 => raeRtailWrite w d
  | _ => d

/-- TXN: TXN_CFG (R238). -/
def txnWrite (o : Nat) (w : Word) (d : Dev) : Dev :=
  let v := fld w 0 10
  if o ≠ 0 || v = 0 || 1000 < v then d else { d with txn := { d.txn with voteTmo := v } }

/-- A write to word `k` of BYT_GROUP(g) (R259). -/
def bytGroupWrite (g k : Nat) (w : Word) (d : Dev) : Dev :=
  { d with byt := { d.byt with group := Store.upd (fun _ => (0 : BitVec 1024)) d.byt.group g fun x => putWord x k w } }

/-- BYT (Tables 11-11 to 11-16). -/
def bytWrite (o : Nat) (w : Word) (d : Dev) : Dev :=
  let b := d.byt
  match regIdx o 0x020 0x10 4, regArr o 0x4000 8192 with
  | some (p, 8), _ => d.updPort p fun x => { x with asym := BitVec.ofNat 16 w.toNat }
  | some _, _ => d
  | none, some i => bytGroupWrite (i / 32) (i % 32) w d
  | none, none => match o with
    | 0x000 => { d with byt := { b with upFix := bit w 2, upSel := fld w 0 2 } }
    | 0x014 => { d with byt := { b with sumIntv := BitVec.ofNat 16 w.toNat } }
    | 0x018 => { d with byt := { b with fwdTail := BitVec.ofNat 8 (fld w 8 8) } }
    | _ => d

/-! ## CFG, CMD -/

/-- CFG and the fabric registers (Tables 12-12 to 12-18, 13-10). -/
def cfgWrite (o : Nat) (w : Word) (d : Dev) : Dev :=
  let f := d.fab
  match regArr o 0x800 32, regArr o 0x900 16, regArr o 0x940 16 with
  | some k, _, _ => fabGclkWrite k w d
  | _, some n, _ => fabRctlWrite n w d
  | _, _, some n =>
    d.updFabRegion n fun r => { r with fxDrop := w1c r.fxDrop w 30, rspDrop := w1c r.rspDrop w 29 }
  | none, none, none => match o with
    | 0x880 => { d with fab := { f with werr := w1c f.werr w 31 } }
    | 0x980 => { d with fab := { f with hookCfg := w &&& 0x80FFFFFF } }
    | 0x988 => { d with fab := { f with portClk := BitVec.ofNat 25 w.toNat } }
    | _ => d

/-- A register of queue `q` (Tables 14-11 to 14-13). -/
def queueWrite (q o : Nat) (w : Word) (d : Dev) : Dev :=
  match o with
  | 0x00 => cqCtlWrite q w d
  | 0x04 => d.updQueue q fun x => { x with dberr := w1c x.dberr w 28, werr := w1c x.werr w 27 }
  | 0x08 => cqBaseWrite q false false w d
  | 0x0C => cqBaseWrite q false true w d
  | 0x10 => doorbellWrite q w d
  | 0x18 => cqBaseWrite q true false w d
  | 0x1C => cqBaseWrite q true true w d
  | 0x20 => rqHeadWrite q w d
  | 0x28 => d.updQueue q fun x => { x with coalTime := BitVec.ofNat 16 (fld w 16 16), coalCount := BitVec.ofNat 8 w.toNat }
  | _ => d

/-- A write to word `r` of entry `v` of the MSI-X table (R317): an unmasked pending vector is sent. -/
def msixWrite (v r : Nat) (w : Word) (d : Dev) : Dev :=
  let f (x : MsixVec) : MsixVec :=
    match r with
    | 0 => { x with addrLo := w }
    | 1 => { x with addrHi := w }
    | 2 => { x with data := w }
    | _ => { x with masked := bit w 0 }
  ({ d with cmd := { d.cmd with msix := Store.upd msixReset d.cmd.msix v f } }).flushVectors

/-- CMD (Table 14-9); the response windows are read only (R319), and a write to one is dropped and counted (R22). -/
def cmdWrite (o : Nat) (w : Word) (d : Dev) : Dev :=
  match regIdx o 0x100 0x40 4, regIdx o 0x1000 16 256, regIdx o 0x8000 0x1000 8 with
  | some (q, r), _, _ => queueWrite q r w d
  | _, some (v, r), _ => msixWrite v (r / 4) w d
  | _, _, some (k, r) =>
    if k % 2 = 0 then d.updQueue (k / 2) fun x => { x with cqWin := Store.put (fun _ => 0) x.cqWin (r / 4) w } else d.undecoded
  | none, none, none => d

/-! ## STW, NOC, PWR, NVS -/

/-- STW (Table 15-12). -/
def stwWrite (o : Nat) (w : Word) (d : Dev) : Dev :=
  match o with
  | 0x00 => { d with stw := { d.stw with werr := w1c d.stw.werr w 28 } }
  | 0x04 => stwWdogWrite w d
  | _ => d

/-- A register of Lens probe `k` (Table 15-15). -/
def lensWrite (k o : Nat) (w : Word) (d : Dev) : Dev :=
  let x := d.lens k
  let held (f : Lens) : Dev := if x.live then d.nocWerr else d.setLens k f
  match regArr o 0x08 4, regArr o 0x18 4 with
  | some i, _ => held { x with mtch := putWord x.mtch i w }
  | _, some i => held { x with mask := putWord x.mask i w }
  | none, none => match o with
    | 0x00 => lensCtlWrite k w d
    | 0x04 => held { x with dir := bit w 11, port := BitVec.ofNat 3 (fld w 8 3), router := BitVec.ofNat 6 w.toNat }
    | 0x30 => d.setLens k { x with thresh := w }
    | _ => d

/-- NOC (Tables 15-13 to 15-15). -/
def nocWrite (o : Nat) (w : Word) (d : Dev) : Dev :=
  let n := d.noc
  match regArr o 0x100 64, regIdx o 0x800 0x40 8 with
  | some i, _ =>
    let v := fld w 0 20
    if v = 0 || 1000000 < v then d.nocWerr else { d with noc := { n with tmo := Store.put (fun _ => 100) n.tmo i v } }
  | _, some (k, r) => lensWrite k r w d
  | none, none =>
    if 0x1000 ≤ o && o < 0x4000 then nocShadowWrite ((o - 0x1000) / 0x100) (o % 0x100 / 0x20) (o % 0x20 / 4) w d
    else match o with
      | 0x00 => { d with noc := { n with werr := w1c n.werr w 31, drainFail := w1c n.drainFail w 30 } }
      | 0x10 =>
        let v := fld w 0 10
        if v = 0 || 1000 < v then d.nocWerr else { d with noc := { n with drainTmo := v } }
      | 0x20 => { d with noc := { n with checkLo := w } }
      | 0x24 => nocRtCheck w d
      | 0x28 => { d with noc := { n with swapLo := w } }
      | 0x2C => nocRtSwap w d
      | _ => d

/-- PWR (Tables 17-11 and 17-12). -/
def pwrWrite (o : Nat) (w : Word) (d : Dev) : Dev :=
  let p := d.pwr
  match regArr o 0x100 40 with
  | some n => pwrWakeWrite n w d
  | none => match o with
    | 0x00 => { d with pwr := { p with seen := w1c p.seen w 30 } }
    | 0x04 => vinCfgWrite w d
    | 0x08 => { d with pwr := { p with werr := w1c p.werr w 30 } }
    | 0x0C => { d with pwr := { p with rail := p.rail &&& ~~~(BitVec.ofNat 8 w.toNat) } }
    | 0x20 => pwrTimerWrite w d
    | _ => d

/-- NVS (Tables 18-8 to 18-11). -/
def nvsWrite (src o : Nat) (w : Word) (otp : Otp) (d : Dev) : Dev :=
  let n := d.nvs
  match regArr o 0x000 7 with
  | some r => nvsSequence src r w otp d
  | none => match o with
    | 0x20 => { d with nvs := { n with seqErr := w1c n.seqErr w 24, werr := w1c n.werr w 23 } }
    | 0x24 => nvsCtlWrite w d
    | 0x28 => nvsEthrWrite w d
    | _ => d

/-! ## EVT, LOG, BST, LCY, PTR, VMI -/

/-- EVT (Tables 19-8 and 19-9). -/
def evtWrite (o : Nat) (w : Word) (d : Dev) : Dev :=
  match regArr o 0x000 256, regArr o 0x400 8 with
  | some n, _ => evtCfgWrite n w d
  | _, some k => evtStatClear k w d
  | none, none => d

/-- LOG (Tables 19-10 and 19-11). -/
def logWrite (src o : Nat) (w : Word) (d : Dev) : Dev :=
  let l := d.log
  match regArr o 0x400 244 with
  | some k => { d with log := { l with annBuf := Store.put (fun _ => 0) l.annBuf k w } }
  | none => match o with
    | 0x00 => { d with log := { l with werr := w1c l.werr w 28 } }
    | 0x34 => frzctlWrite src (bit w 31) (bit w 30) d
    | 0x40 => annCtlWrite w d
    | 0x44 => { d with log := { l with annPayload := w } }
    | _ => d

/-- BST (Tables 20-7 and 20-8). -/
def bstWrite (o : Nat) (w : Word) (d : Dev) : Dev :=
  match o with
  | 0x00 => { d with bst := { d.bst with werr := w1c d.bst.werr w 31 } }
  | 0x04 => bstBudgetWrite w d
  | 0x08 => bstPolicyWrite false w d
  | 0x0C => bstPolicyWrite true w d
  | 0x10 => bstOvfWrite 0 w d
  | 0x14 => bstOvfWrite 1 w d
  | 0x18 => bstOvfWrite 2 w d
  | _ => d

/-- PTR (Tables 22-6 and 22-7). -/
def ptrWrite (o : Nat) (w : Word) (d : Dev) : Dev :=
  let p := d.ptr
  match regArr o 0x004 2, regArr o 0x800 144 with
  | some b, _ => { d with ptr := { p with legacy := putBit p.legacy b (bit w 31) } }
  | _, some k => { d with ptr := { p with hdesc := Store.putList (fun _ => 0) p.hdesc (4 * k) (leBytes 4 w.toNat) } }
  | none, none => match o with
    | 0x00 => { d with ptr := { p with werr := w1c p.werr w 31, full := w1c p.full w 30 } }
    | 0x10 => hdctlWrite w d
    | _ => d

/-- VMI (Tables 1-7, 22-8 and 22-9). -/
def vmiWrite (o : Nat) (w : Word) (d : Dev) : Dev :=
  let v := d.vmi
  match o with
  | 0x00 => { d with vmi := { v with werr := w1c v.werr w 24 } }
  | 0x04 => vmiCfgWrite w d
  | 0x10 => { d with vmi := { v with wipe := putWord v.wipe 0 w } }
  | 0x14 => { d with vmi := { v with wipe := putWord v.wipe 1 w } }
  | 0x40 => vmiWpageWrite w d
  | _ => d

/-! ## All blocks -/

/-- A write by initiator `src` of the register at a block's offset; a write to an offset that is not decoded is dropped and
counted (R22). -/
def regWrite (src : Nat) (b : Block) (o : Nat) (w : Word) (otp : Otp) (d : Dev) : Dev :=
  if (regVal otp d b o).isNone then d.undecoded
  else match b with
    | .sys => d
    | .cmd => cmdWrite o w d
    | .evt => evtWrite o w d
    | .pwr => pwrWrite o w d
    | .clk => clkWrite o w d
    | .byt => bytWrite o w d
    | .txn => txnWrite o w d
    | .nvs => nvsWrite src o w otp d
    | .log => logWrite src o w d
    | .bst => bstWrite o w d
    | .lcy => if o = 0 then { d with lcy := { d.lcy with resumed := w1c d.lcy.resumed w 18 } } else d
    | .noc => nocWrite o w d
    | .ptr => ptrWrite o w d
    | .vmi => vmiWrite o w d
    | .cfg => cfgWrite o w d
    | .stw => stwWrite o w d
    | .fcp => fcpWrite o w d
    | .rae => raeWrite o w d
    | .cal => calWrite o w d
    | .eng n => engWrite n o w d
    | .tim c => timRegWrite c o w d
    | .epm n => epmWrite n (o / 8) (o / 4 % 2 == 1) w d
    | .fab _ => d

end Sys2Proof.Machine
end

