-- ==== Sys2Proof/Machine/Packets.lean ====
section
/-! DEFINITION. Requests on the network on chip (15_steward_and_noc.md): their way, the targets of Table 15-8, the error
answers of Table 15-9, and the requests that wait at an edge; and the accesses of host software, which are requests of SRC 0
(R24). -/

namespace Sys2Proof.Machine

/-! ## Targets (Tables 1-5 and 15-8) -/

/-- Where a request is served. -/
inductive Place where
  /-- The registers in the 16-byte unit at a BAR0 offset. -/
  | unit (off : Nat)
  | epm (off : Nat)
  | fat (off : Nat)
  | nv
  | hostMem (a : Nat)
  | vector (a : Nat)
  | sram (a : Nat)
  | staging (a : Nat)
  | fabric (port : Nat)
  | nowhere
  deriving DecidableEq, Repr

/-- The router of quad `q`. -/
def eqRouter (q : Nat) : Nat × Nat := if q < 8 then (q % 2, 1 + q / 2) else (4 + q % 2, 1 + (q - 8) / 2)
/-- The router of a fabric NoC port. -/
def portRouter (p : Nat) : Nat × Nat := (2 + p % 2, 3 + p / 2)
/-- The router of a FAT window offset: banks 8 i to 8 i + 7 (R180). -/
def fatRouter (off : Nat) : Nat × Nat := (2 + off / 32 % 32 / 8 % 2, 1 + off / 32 % 32 / 16)
/-- The router at which a register block is reached. -/
def Block.router : Block → Nat × Nat
  | .cmd => (0, 0)
  | .stw => (1, 0) | .txn => (1, 0) | .evt => (1, 0) | .log => (1, 0) | .bst => (1, 0)
  | .nvs => (2, 0)
  | .sys => (3, 0) | .clk => (3, 0) | .pwr => (3, 0) | .lcy => (3, 0) | .noc => (3, 0) | .cfg => (3, 0)
  | .byt => (4, 0) | .ptr => (5, 0) | .cal => (0, 5) | .vmi => (1, 5) | .fcp => (5, 5) | .rae => (5, 5)
  | .eng n => eqRouter (n / 4) | .tim c => eqRouter (c / 4) | .epm n => eqRouter (n / 4)
  | .fab p => portRouter p

/-- ADDR of the VMI registers at router (1, 5), above every vector address. -/
def vmiRegs : Nat := 2 ^ 47

/-- The target of an address at a router. DESIGN CHOICE (log 16): registers, EPM and FAB windows lie at their BAR0 offset, the
FAT at its BAR2 offset, the NV store at 2^32, the VMI registers at 2^47 plus their BAR0 offset. -/
def targetOf (x y a : Nat) : Place :=
  if y = 5 && 1 ≤ x && x ≤ 4 then
    if vmiRegs ≤ a then (if (blockOf (a - vmiRegs)).map (·.1) = some .vmi && x = 1 then .unit (a - vmiRegs) else .nowhere)
    else if a < 2 ^ 34 && a / 256 % 4 = x - 1 then .vector a else .nowhere
  else if x = 0 && y = 0 then (if (blockOf a).map (·.1) = some .cmd then .unit a else .hostMem a)
  else if x = 2 && y = 0 && nvBase ≤ a then .nv
  else if (y = 1 || y = 2) && (x = 2 || x = 3) then (if a < 0x2000000 && fatRouter a = (x, y) then .fat a else .nowhere)
  else match blockOf a with
    | some (b, _) =>
      if b.router = (x, y) then
        match b with
        | .epm _ => .epm a
        | .fab p => .fabric p
        | _ => .unit a
      else .nowhere
    | none =>
      if x = 1 && y = 0 then
        if 0x10000000 ≤ a && a < 0x10040000 then .sram (a - 0x10000000)
        else if Config.stagingBase.toNat ≤ a && a < Config.stagingBase.toNat + 0x100000 then .staging (a - Config.stagingBase.toNat)
        else .nowhere
      else .nowhere

/-- The largest LEN that the target accepts (Table 15-8). -/
def Place.maxLen : Place → Nat
  | .unit _ => 1 | .fat _ => 2 | .nv => 2 | .epm _ => 4 | .hostMem _ => 32
  | .vector _ => 63 | .sram _ => 63 | .staging _ => 63 | .fabric _ => 63 | .nowhere => 63

/-- The power domain at whose edge the target answers. -/
def Place.domain : Place → Option Nat
  | .unit off => (blockOf off).bind (·.1.domain)
  | .epm off => (blockOf off).bind (·.1.domain)
  | .fat _ => some pdFat
  | .nv => some pdNvs
  | .vector _ => some pdVmi
  | .fabric p => srcDomain (40 + p)
  | .hostMem _ => none | .sram _ => none | .staging _ => none | .nowhere => none

/-! ## Registers in units of 16 bytes -/

/-- Read the word at a BAR0 offset. -/
def Dev.bar0Read (otp : Otp) (off : Nat) (d : Dev) : Word × Dev :=
  match blockOf off with
  | some (b, o) => d.regRead otp b o
  | none => (0, d.undecoded)
/-- Write the word at a BAR0 offset. -/
def Dev.bar0Write (src off : Nat) (w : Word) (otp : Otp) (d : Dev) : Dev :=
  match blockOf off with
  | some (b, o) => regWrite src b o w otp d
  | none => d.undecoded
/-- The TIM registers that PADLB and TDCREF make busy (R432). -/
def Dev.timBusy (d : Dev) (off : Nat) : Bool :=
  match blockOf off with
  | some (.tim c, _) => d.quadTest c
  | _ => false

/-- Read the words of a unit whose bytes are all enabled; a word enabled in part is no access (R23). -/
def Dev.unitRead (otp : Otp) (off : Nat) (be : BitVec 16) (d : Dev) : QWord × Dev :=
  (List.range 4).foldl (fun (x : QWord × Dev) i =>
    let e := fld be (4 * i) 4
    if e = 0 then x
    else if e = 15 then
      let r := x.2.bar0Read otp (off / 16 * 16 + 4 * i)
      (x.1 ||| BitVec.ofNat 128 (at' (32 * i) r.1.toNat), r.2)
    else (x.1, x.2.undecoded)) (0, d)
/-- Write the words of a unit. -/
def Dev.unitWrite (src off : Nat) (be : BitVec 16) (v : QWord) (otp : Otp) (d : Dev) : Dev :=
  (List.range 4).foldl (fun (d : Dev) i =>
    let e := fld be (4 * i) 4
    if e = 0 then d
    else if e = 15 then d.bar0Write src (off / 16 * 16 + 4 * i) (word (fld v (32 * i) 32)) otp
    else d.undecoded) d

/-- Byte enables of unit `i` of a packet: every unit but the first is whole. -/
def beOf (p : Packet) (i : Nat) : BitVec 16 := if i = 0 then p.be else 0xFFFF
/-- Read consecutive units. -/
def Dev.unitsRead (otp : Otp) (off : Nat) (p : Packet) (d : Dev) : List QWord × Dev :=
  (List.range p.len.toNat).foldl (fun (x : List QWord × Dev) i =>
    let r := x.2.unitRead otp (off + 16 * i) (beOf p i)
    (x.1 ++ [r.1], r.2)) ([], d)
/-- Write consecutive units. -/
def Dev.unitsWrite (off : Nat) (p : Packet) (otp : Otp) (d : Dev) : Dev :=
  (List.range p.len.toNat).foldl (fun (d : Dev) i =>
    d.unitWrite p.src.toNat (off + 16 * i) (beOf p i) (p.data.getD i 0) otp) d

/-! ## Memories -/

/-- Write the enabled bytes of a unit. -/
def wrMasked (m : List Host.Cell) (a : Nat) (be : BitVec 16) (v : QWord) : List Host.Cell :=
  (List.range 16).foldl (fun m i => if bit be i then wr8 m (a + i) (BitVec.ofNat 8 (fld v (8 * i) 8)) else m) m

/-- The memory of a target and the address in it. -/
def Dev.space (d : Dev) : Place → List Host.Cell × Nat
  | .hostMem a => (d.cmd.hostMem, a)
  | .vector a => (d.vmi.mem, a)
  | .sram a => (d.stw.sram, a)
  | .staging a => (d.txn.staging, a)
  | .unit _ => ([], 0) | .epm _ => ([], 0) | .fat _ => ([], 0) | .nv => ([], 0) | .fabric _ => ([], 0) | .nowhere => ([], 0)
/-- Put the memory of a target back. -/
def Dev.setSpace (d : Dev) (m : List Host.Cell) : Place → Dev
  | .hostMem _ => d.setHost m
  | .vector _ => { d with vmi := { d.vmi with mem := m } }
  | .sram _ => { d with stw := { d.stw with sram := m } }
  | .staging _ => { d with txn := { d.txn with staging := m } }
  | .unit _ => d | .epm _ => d | .fat _ => d | .nv => d | .fabric _ => d | .nowhere => d

/-- What an atomic makes of the old value (Table 15-6). -/
def atomicNew (cmd bits old : Nat) (x : QWord) : Nat :=
  let v := fld x 0 bits
  match cmd with
  | 5 => old ||| v
  | 6 => (old + v) % 2 ^ bits
  | 7 => v
  | _ => if old = fld x 64 bits then v else old
/-- Width in bytes of an atomic by its byte enables, where they are allowed. -/
def atomicWidth (be : BitVec 16) : Option Nat := if be = 0x000F then some 4 else if be = 0x00FF then some 8 else none

/-! ## Answers -/

/-- A memory answers a request. -/
def Dev.serveMem (d : Dev) (cmd : Nat) (p : Packet) (t : Place) : Dev :=
  let (m, a) := d.space t
  let base := a / 16 * 16
  let n := p.len.toNat
  if cmd = 0 then d.reply cmd p .ok ((List.range n).map fun i => rd128 m (base + 16 * i))
  else if cmd = 1 || cmd = 2 then
    let m := (List.range n).foldl (fun m i => wrMasked m (base + 16 * i) (beOf p i) (p.data.getD i 0)) m
    (d.setSpace m t).reply cmd p .ok []
  else match atomicWidth p.be with
    | some w =>
      if a % w ≠ 0 || n ≠ 1 then d.reply cmd p .badOperand []
      else
        let old := ofLeBytes (rdBytes m a w)
        let m := wrBytes m a (leBytes w (atomicNew cmd (8 * w) old (p.data.headD 0)))
        (d.setSpace m t).reply cmd p .ok [BitVec.ofNat 128 old]
    | none => d.reply cmd p .badOperand []

/-- The vector memory answers a request (R26, R468). -/
def Dev.serveVector (d : Dev) (cmd : Nat) (p : Packet) (a : Nat) : Dev :=
  match d.vmiStatus (a / 16 * 16) (16 * max 1 p.len.toNat) with
  | .ok => d.serveMem cmd p (.vector a)
  | .fenced => (d.fencedAnswer pdVmi).reply cmd p .fenced []
  | st => (d.vmiErr st).reply cmd p st []

/-- The region of a fabric port takes no deliveries (R284), or the start-up steps have not opened it (Table 13-5). -/
def Dev.portShut (d : Dev) (port : Nat) : Bool := d.inHold (6 + port) || d.gated (6 + port) || !d.fab.outRel
/-- A request lies in the buffer of a fabric port: its header unit and its data units wait for the user logic. -/
def Dev.deliverTo (d : Dev) (port cmd : Nat) (p : Packet) : Dev :=
  { d with fab := { d.fab with inbox := d.fab.inbox ++ [(1 + p.data.length, port, cmd, p)] } }

/-- The CMD is an atomic. -/
def isAtomic (cmd : Nat) : Bool := decide (5 ≤ cmd) && decide (cmd ≤ 8)

/-- The request writes: its completion is what a FLUSH waits for (Table 15-6). -/
def isWrite (cmd : Nat) : Bool := cmd == 1 || cmd == 2 || isAtomic cmd

/-- An earlier write of the FLUSH's initiator to the same router is not complete: it waits at an edge, or user logic has not
answered it (Table 15-6). A posted write is complete for a fabric port when it is handed over. -/
def Dev.flushWaits (d : Dev) (p : Packet) : Bool :=
  let same (q : Packet) : Bool := q.src == p.src && q.dx == p.dx && q.dy == p.dy
  (d.noc.held.any fun x => isWrite x.2.1 && same x.2.2) ||
    (d.fab.inbox.any fun x => isWrite x.2.2.1 && same x.2.2.2) ||
    d.fab.delivered.any fun x => x.2.1 != 2 && isWrite x.2.1 && same x.2.2

/-- The region of the fabric port that the request names takes nothing (R284). -/
def Dev.shutPlace (d : Dev) : Place → Bool
  | .fabric port => d.portShut port
  | .unit _ => false | .epm _ => false | .fat _ => false | .nv => false | .hostMem _ => false | .vector _ => false
  | .sram _ => false | .staging _ => false | .nowhere => false

/-- The target answers a request that its edge lets in (Tables 15-6, 15-8 and 15-9). A FLUSH that waits is held under the
number 41, which is no domain's edge. -/
def Dev.serve (d : Dev) (cmd : Nat) (p : Packet) (otp : Otp) (t : Place) : Dev :=
  let no (st : Status) : Dev := d.reply cmd p st []
  if d.shutPlace t then no .busy
  else if cmd = 9 then
    if d.flushWaits p then { d with noc := { d.noc with held := d.noc.held ++ [(41, cmd, p)] } } else no .ok
  else if t.maxLen < p.len.toNat then (d.fire 195 (payload .errLenExceeds 1 p.src.toNat)).reply cmd p .errLenExceeds []
  else if cmd = 0 && p.len = 0 then no .badOperand
  else match t with
    | .unit off =>
      if cmd = 0 then
        let r := d.unitsRead otp off p
        r.2.reply cmd p .ok r.1
      else if isAtomic cmd then no .badOpcode
      else if d.timBusy off then no .busy
      else (d.unitsWrite off p otp).reply cmd p .ok []
    | .epm off =>
      if cmd = 0 then
        let r := d.unitsRead otp off p
        r.2.reply cmd p .ok r.1
      else if isAtomic cmd then no .badOpcode
      else (d.unitsWrite off p otp).reply cmd p .ok []
    | .fat off =>
      if cmd = 0 then
        let ks := (List.range p.len.toNat).map (off / 16 + ·)
        (ks.foldl Dev.fatReadEffect d).reply cmd p .ok (ks.map d.fatRead128)
      else no .badOpcode
    | .nv => if cmd = 0 then d.nvsRead p else no .badOpcode
    | .hostMem a =>
      if isAtomic cmd then no .badOpcode
      else if !d.cmd.bme then { d with noc := { d.noc with held := d.noc.held ++ [(40, cmd, p)] } }
      else d.serveMem cmd p (.hostMem a)
    | .vector a => d.serveVector cmd p a
    | .sram a => d.serveMem cmd p (.sram a)
    | .staging a => d.serveMem cmd p (.staging a)
    | .fabric port =>
      if isAtomic cmd then no .badOpcode else d.deliverTo port cmd p
    | .nowhere => d.undecoded.reply cmd p .ok (if cmd = 0 then List.replicate p.len.toNat 0 else [])

/-- The request is for vector memory while streams come first: it waits (R61). -/
def Dev.streamHolds (d : Dev) : Place → Bool
  | .vector _ => d.streamFirst
  | .unit _ => false | .epm _ => false | .fat _ => false | .nv => false | .hostMem _ => false | .fabric _ => false
  | .sram _ => false | .staging _ => false | .nowhere => false

/-- A request reaches the edge of its target (R19, R351, R436). One that waits for streams is held under the number 42. -/
def Dev.arrive (d : Dev) (cmd : Nat) (p : Packet) (otp : Otp) : Dev :=
  let t := targetOf p.dx.toNat p.dy.toNat p.addr.toNat
  match t.domain with
  | none => d.serve cmd p otp t
  | some n =>
    if d.tested n then d.holdRequest n cmd p
    else if (d.domain n).closed then (d.fencedAnswer n).reply cmd p .fenced []
    else if d.streamHolds t then { d with noc := { d.noc with held := d.noc.held ++ [(42, cmd, p)] } }
    else d.serve cmd p otp t

/-! ## The way (R20, R346 to R350) -/

/-- An initiator injects a request. An unused SRC answers before a DX or DY of 6 or 7, of which Table 15-9 gives no order
(DEDUCED, log 17). -/
def Dev.launch (d : Dev) (cmd : Nat) (p : Packet) (otp : Otp) : Dev :=
  let src := p.src.toNat
  let o := srcRouter src
  let r := 6 * o.2 + o.1
  let d := if cmd = 2 then d else d.setTag (tagKey p) .outstanding
  let units := if cmd = 0 || cmd = 9 then 0 else p.len.toNat
  let first : List Hop := [⟨r, 0, 7⟩]
  let noRoute (d : Dev) (r : Nat) : Dev := (d.fire 194 (payload .noRoute 1 r)).reply cmd p .noRoute []
  if src = 7 || 44 ≤ src then (d.observe first cmd units p).reply cmd p .badOpcode []
  else if 5 < p.dx.toNat || 5 < p.dy.toNat then noRoute (d.observe first cmd units p) r
  else
    let w := d.way (6 * p.dy.toNat + p.dx.toNat) 12 r 0
    let d := d.observe w.1 cmd units p
    match w.2 with
    | some k => noRoute d k
    | none => d.arrive cmd p otp

/-- An initiator has a request ready: one inside a domain that is being fenced waits in its port (R353), and a fabric port in
hold sends none (R284). One inside a domain under test waits as well (R436). -/
def request (cmd : Nat) (p : Packet) (otp : Otp) (d : Dev) : Dev :=
  let src := p.src.toNat
  if cmd ≠ 2 && decide (d.tagSt (tagKey p) ≠ .free) then d
  else if 40 ≤ src && src ≤ 43 && d.portShut (src - 40) then d
  else match srcDomain src with
    | none => d.launch cmd p otp
    | some n =>
      if (d.domain n).st ≠ .on then d
      else if (d.domain n).closed || d.tested n then { d with noc := { d.noc with held := d.noc.held ++ [(n, cmd, p)] } }
      else d.launch cmd p otp

/-- A packet with a reserved CMD or an unused SRC reaches its first router (Table 15-9). -/
def badPacket (r cmd : Nat) (p : Packet) (_ : Otp) (d : Dev) : Dev :=
  let src := p.src.toNat
  if cmd ≤ 9 && src ≠ 7 && src < 44 then d
  else if cmd ≠ 2 && decide (d.tagSt (tagKey p) ≠ .free) then d
  else
    let d := if cmd = 2 then d else d.setTag (tagKey p) .outstanding
    (d.observe [⟨r, 0, 7⟩] cmd p.len.toNat p).reply cmd p .badOpcode []

/-! ## Accesses of host software, unit by unit (R24 to R26) -/

/-- The words of a unit of which some byte is enabled, with the other bytes zero. -/
def laneWords (be : BitVec 16) (v : QWord) : List Word :=
  ((List.range 4).filter fun i => fld be (4 * i) 4 != 0).map fun i =>
    word ((List.range 4).foldl (fun n j => n + if bit be (4 * i + j) then at' (8 * j) (fld v (32 * i + 8 * j) 8) else 0) 0)

/-- The lowest free tag of the host interface. -/
def Dev.hostTag (d : Dev) : Option Nat := (List.range 1024).find? fun t => decide (d.tagSt t = .free)

/-- Where an access of host software goes, told in the packet's STATUS, which no request carries: 0xFF BAR0, 0xFE vector
memory, 0xFD the FAT. Its router (Table 1-5, R180, R467); a BAR0 offset without a block is the host interface's own. -/
def hostRouter (p : Packet) : Nat × Nat :=
  let a := p.addr.toNat
  if p.status = 0xFE then (1 + a / 256 % 4, 5)
  else if p.status = 0xFD then fatRouter a
  else match blockOf a with
    | some (b, _) => b.router
    | none => (0, 0)

/-- The packet of a host access as the mesh carries it (Table 15-5). -/
def hostHeader (p : Packet) : Packet :=
  let r := hostRouter p
  { p with dx := BitVec.ofNat 3 r.1, dy := BitVec.ofNat 3 r.2, status := 0 }

/-- The answer to a host read crosses the mesh back (R346): RESP with its unit, or ERR_RESP. -/
def Dev.hostBack (d : Dev) (p : Packet) (st : Status) (data : List QWord) : Dev :=
  let r := hostRouter p
  let q : Packet := { tag := p.tag, len := BitVec.ofNat 6 data.length, be := 0, addr := p.addr, status := BitVec.ofNat 8 st.code,
                      data := data, cycle := p.cycle }
  d.observe (d.way 0 12 (6 * r.2 + r.1) 0).1 (if st = .ok then 3 else 4) data.length q

/-- A host access that its target answers with a status other than OK and FENCED, or that meets NONE (R24, R350, R351). -/
def Dev.hostFailed (d : Dev) (cmd : Nat) (p : Packet) (st : Status) : Dev :=
  if cmd = 0 then (d.hostBack p st []).bump.returned (laneFill p.be (Config.errRead d.fresh)) else d.postFailed st p.src.toNat

/-- A host access that the edge of domain `n` answers with FENCED (R24). -/
def Dev.hostFenced (d : Dev) (cmd : Nat) (p : Packet) (n : Nat) : Dev :=
  if cmd = 0 then ((d.hostBack p .fenced []).hostReadFenced n).returned (laneFill p.be 0xFFFFFFFF) else d.hostWriteFenced n

/-- A host read is answered with the unit that holds its word or words. -/
def Dev.hostAnswer (d : Dev) (p : Packet) (v : QWord) : Dev := (d.hostBack p .ok [v]).returned (laneWords p.be v)

/-- A host access of one unit is served at its target. -/
def Dev.hostServe (d : Dev) (cmd : Nat) (p : Packet) (otp : Otp) : Dev :=
  let a := p.addr.toNat
  let read := decide (cmd = 0)
  let data := p.data.headD 0
  if p.status = 0xFE then
    match d.vmiStatus (a / 16 * 16) 16 with
    | .ok =>
      if read then d.hostAnswer p (rd128 d.vmi.mem (a / 16 * 16))
      else { d with vmi := { d.vmi with mem := wrMasked d.vmi.mem (a / 16 * 16) p.be data } }
    | .fenced => d.hostFenced cmd p pdVmi
    | .noRoute => if read then (d.vmiErr .noRoute).hostAnswer p (BitVec.allOnes 128) else d.vmiErr .noRoute
    | st => (d.vmiErr st).hostFailed cmd p st
  else if p.status = 0xFD then
    if read then (d.fatReadEffect (a / 16)).hostAnswer p (d.fatRead128 (a / 16)) else d.undecoded
  else match blockOf a with
    | some (.fab port, _) =>
      if d.portShut port then d.hostFailed cmd p .busy
      else if !read then d.deliverTo port 2 (hostHeader p)
      else match d.hostTag with
        | some t => (d.setTag t .outstanding).deliverTo port 0 { hostHeader p with tag := BitVec.ofNat 10 t }
        | none => { d with noc := { d.noc with held := d.noc.held ++ [(0, cmd, p)] } }
    | _ =>
      if read then
        let r := d.unitRead otp a p.be
        r.2.hostAnswer p r.1
      else if d.timBusy a then d.hostFailed cmd p .busy
      else d.unitWrite p.src.toNat a p.be data otp

/-- The domain at whose edge a host access is let in. -/
def hostDomain (p : Packet) : Option Nat :=
  if p.status = 0xFE then some pdVmi
  else if p.status = 0xFD then some pdFat
  else (blockOf p.addr.toNat).bind (·.1.domain)

/-- A host access waits for a domain under test; a READ holds a tag meanwhile (R348, R436). -/
def Dev.hostHold (d : Dev) (n cmd : Nat) (p : Packet) : Dev :=
  match (if cmd = 0 then d.hostTag else none) with
  | some t => (d.setTag t .outstanding).holdRequest n cmd { p with tag := BitVec.ofNat 10 t }
  | none => d.holdRequest n cmd p

/-- A host access crosses the mesh as a packet of SRC 0 (R24, R354): every probe on its way sees it, and a NONE entry that
it meets answers it (R350); `fail` and `act` go on from there. -/
def Dev.hostCross (d : Dev) (cmd : Nat) (p : Packet) (fail act : Dev → Dev) : Dev :=
  let r := hostRouter p
  let w := d.way (6 * r.2 + r.1) 12 0 0
  let d := d.observe w.1 cmd (if cmd = 0 then 0 else 1) (hostHeader p)
  match w.2 with
  | some k => fail (d.fire 194 (payload .noRoute 1 k))
  | none => act d

/-- A host access of one unit goes to its target's edge. -/
def Dev.hostSend (d : Dev) (cmd : Nat) (p : Packet) (otp : Otp) : Dev :=
  d.hostCross cmd p (fun d => d.hostFailed cmd p .noRoute) fun d => match hostDomain p with
    | none => d.hostServe cmd p otp
    | some n =>
      if d.tested n then d.hostHold n cmd p
      else if p.status = 0xFE && d.streamFirst then d.hostHold 42 cmd p
      else if (d.domain n).closed then d.hostFenced cmd p n
      else d.hostServe cmd p otp

/-- A host access that has waited is served; a READ whose tag has timed out meanwhile is answered too late (R352). -/
def Dev.hostLate (d : Dev) (cmd : Nat) (p : Packet) (otp : Otp) : Dev :=
  let k := tagKey p
  if cmd ≠ 0 || decide (d.tagSt k = .free) then d.hostServe cmd p otp
  else
    let late := decide (d.tagSt k = .timedOut)
    let d := d.setTag k .free
    let x := d.hostServe cmd p otp
    if late then ({ x with rdata := d.rdata }).lateCount.fire 197 (payload .timeout 1 0) else x

/-! ## Requests that wait -/

/-- A waiting request goes on, or waits further. -/
def Dev.injectOne (otp : Otp) (d : Dev) (x : Nat × Nat × Packet) : Dev :=
  let p := x.2.2
  let waits :=
    if x.1 = 40 then !d.cmd.bme else if x.1 = 41 then d.flushWaits p else if x.1 = 42 then d.streamFirst else d.tested x.1 || (d.domain x.1).closed
  if waits then { d with noc := { d.noc with held := d.noc.held ++ [x] } }
  else if p.status ≠ 0 then d.hostLate x.2.1 p otp
  else if srcDomain p.src.toNat = some x.1 && decide (d.tagSt (tagKey p) = .free) then request x.2.1 p otp d
  else d.serve x.2.1 p otp (targetOf p.dx.toNat p.dy.toNat p.addr.toNat)

/-- The requests that wait at an edge that is open again are injected, in order (R353, R438). -/
def Dev.inject (otp : Otp) (d : Dev) : Dev :=
  d.noc.held.foldl (Dev.injectOne otp) { d with noc := { d.noc with held := [] } }

/-! ## The meanings -/

/-- READ. -/
def execRead (p : Packet) (s : State) : Host.Outcome State Fault Refusal := s.onDev (request 0 p)
/-- WRITE. -/
def execWrite (p : Packet) (s : State) : Host.Outcome State Fault Refusal := s.onDev (request 1 p)
/-- WRITE_POSTED. -/
def execWritePosted (p : Packet) (s : State) : Host.Outcome State Fault Refusal := s.onDev (request 2 p)
/-- ATOMIC_OR. -/
def execAtomicOr (p : Packet) (s : State) : Host.Outcome State Fault Refusal := s.onDev (request 5 p)
/-- ATOMIC_ADD. -/
def execAtomicAdd (p : Packet) (s : State) : Host.Outcome State Fault Refusal := s.onDev (request 6 p)
/-- ATOMIC_SWAP. -/
def execAtomicSwap (p : Packet) (s : State) : Host.Outcome State Fault Refusal := s.onDev (request 7 p)
/-- ATOMIC_CAS. -/
def execAtomicCas (p : Packet) (s : State) : Host.Outcome State Fault Refusal := s.onDev (request 8 p)
/-- FLUSH. -/
def execFlush (p : Packet) (s : State) : Host.Outcome State Fault Refusal := s.onDev (request 9 p)
/-- NOC_RESERVED_CMD: a packet with the given CMD reaches its first router, `r`. -/
def execNocReservedCmd (r : Fin 36) (cmd : Fin 16) (p : Packet) (s : State) : Host.Outcome State Fault Refusal :=
  s.onDev (badPacket r cmd p)

end Sys2Proof.Machine
end

