-- ==== Sys2Proof/Machine/Host.lean ====
section
/-! DEFINITION. What host software does: accesses of BAR0 and BAR2 (R21 to R27), the queue registers, fetching commands and
posting responses (14_host_commands.md), the PCI Express function, and the SYS commands. -/

namespace Sys2Proof.Machine

/-! ## Accesses -/

/-- The 16-byte units that an access touches: the unit's address, and which of its bytes the access covers. -/
def accUnits (a : Access) : List (Nat × BitVec 16) :=
  let lo := a.off.toNat
  let hi := lo + a.size
  (List.range (ceilDiv hi 16 - lo / 16)).map fun i =>
    let u := (lo / 16 + i) * 16
    (u, ofBits 16 ((List.range 16).filter fun j => decide (lo ≤ u + j) && decide (u + j < hi)))
/-- Byte `i` of the data of a write. -/
def accByte (a : Access) (i : Nat) : Nat := fld (a.data.getD (i / 4) 0) (8 * (i % 4)) 8
/-- Data and byte enables of the unit at `u` in a write. -/
def accUnitData (a : Access) (u : Nat) (cover : BitVec 16) : QWord × BitVec 16 :=
  let lo := a.off.toNat
  let js := bitsOf cover
  (BitVec.ofNat 128 (js.foldl (fun n j => n + at' (8 * j) (accByte a (u + j - lo))) 0),
   ofBits 16 (js.filter fun j => a.be / 2 ^ (u + j - lo) % 2 == 1))

/-- The shape of an access of BAR0 (R23). -/
def accBar0Ok (a : Access) : Bool :=
  (a.size == 4 || a.size == 8) && a.off.toNat % a.size == 0 && a.be == 2 ^ a.size - 1 && decide (a.off.toNat < 2 ^ 26)
/-- An access of BAR0 that enables some bytes of one aligned word, and no byte outside it (R23). -/
def accPart (a : Access) : Bool :=
  decide (1 ≤ a.size) && decide (a.off.toNat % 4 + a.size ≤ 4) && a.be % 2 ^ a.size != 0 && decide (a.off.toNat < 2 ^ 26)
/-- The shape of an access of BAR2 (R25). -/
def accBar2Ok (a : Access) : Bool :=
  decide (4 ≤ a.size) && decide (a.size ≤ 256) && decide (a.off.toNat % 256 + a.size ≤ 256)
/-- The words of a read that returns one value throughout. -/
def accFill (a : Access) (w : Word) : List Word := List.replicate (ceilDiv a.size 4) w

/-- A unit of an access of host software as a request of SRC 0; `space` as `hostRouter` reads it. -/
def hostPacket (space : BitVec 8) (addr : Nat) (be : BitVec 16) (data : QWord) : Packet :=
  { len := 1, status := space, addr := BitVec.ofNat 48 addr, be := be, data := [data] }

/-- A read of the word at a BAR0 offset (R22 to R24, R436). -/
def hostRead32 (off : Nat) (otp : Otp) (d : Dev) : Dev :=
  d.hostSend 0 (hostPacket 0xFF off (BitVec.ofNat 16 (15 * 2 ^ (off % 16))) 0) otp
/-- A write of the word at a BAR0 offset. -/
def hostWrite32 (off : Nat) (w : Word) (otp : Otp) (d : Dev) : Dev := d.hostSend 2 (writePacket 0 off w) otp

/-- Where an access of BAR2 goes: the window as `hostRouter` reads it, the address in its target's space, and the domain. -/
def Dev.bar2Place (d : Dev) (off : Nat) : Option (BitVec 8 × Nat × Nat) :=
  if off < 0x2000000 then some (0xFD, off, pdFat)
  else if off < 0x22000000 then some (0xFE, d.vmi.wpage.toNat * 0x20000000 + (off - 0x2000000), pdVmi)
  else none

/-- The units of an access of BAR2 go out one after another. -/
def Dev.bar2Units (a : Access) (cmd : Nat) (otp : Otp) (d : Dev) : Dev :=
  (accUnits a).foldl (fun d u =>
    match d.bar2Place u.1 with
    | some (sp, addr, _) =>
      let v := if cmd = 0 then (0, u.2) else accUnitData a u.1 u.2
      d.hostSend cmd (hostPacket sp addr v.2 v.1) otp
    | none => d) d
/-- A read of BAR2 (R25, R26). One that is refused as a whole crosses the mesh as one packet. -/
def Dev.bar2Read (a : Access) (otp : Otp) (d : Dev) : Dev :=
  match d.bar2Place a.off.toNat with
  | none => d.undecoded.returned (accFill a 0)
  | some (sp, addr, n) =>
    let p := hostPacket sp addr 0xFFFF 0
    let free (d : Dev) : Dev := d.bump.returned (accFill a (Config.errRead d.fresh))
    let whole (st : Status) (f : Dev → Dev) : Dev := d.hostCross 0 p free fun d => f (d.hostBack p st [])
    let fenced : Dev := whole .fenced fun d => (d.hostReadFenced n).returned (accFill a 0xFFFFFFFF)
    if d.tested n then d.bar2Units a 0 otp
    else if (d.domain n).closed then fenced
    else if n = pdVmi then
      match d.vmiStatus addr a.size with
      | .ok => d.bar2Units a 0 otp
      | .fenced => fenced
      | .noRoute => whole .noRoute fun d => (d.vmiErr .noRoute).returned (accFill a 0xFFFFFFFF)
      | st => whole st fun d => free (d.vmiErr st)
    else d.bar2Units a 0 otp

/-- A write of BAR2: the FAT window is read only (R25), and an access of it counts once. -/
def Dev.bar2Write (a : Access) (otp : Otp) (d : Dev) : Dev :=
  match d.bar2Place a.off.toNat with
  | none => d.undecoded
  | some (sp, addr, n) =>
    let p := hostPacket sp addr 0xFFFF 0
    let whole (f : Dev → Dev) : Dev := d.hostCross 2 p (fun d => d.postFailed .noRoute 0) f
    if n = pdFat then d.hostSend 2 p otp
    else if d.tested n then d.bar2Units a 2 otp
    else if (d.domain n).closed then whole fun d => d.hostWriteFenced n
    else match d.vmiStatus addr a.size with
      | .ok => d.bar2Units a 2 otp
      | .fenced => whole fun d => d.hostWriteFenced n
      | .noRoute => whole fun d => d.vmiErr .noRoute
      | st => whole fun d => (d.vmiErr st).postFailed st 0

/-- A read by host software: what it returns joins `rdata`. A read of some bytes of one word returns the whole word (R23). -/
def hostRead (a : Access) (otp : Otp) (d : Dev) : Dev :=
  if a.bar2 then (if accBar2Ok a then d.bar2Read a otp else d.undecoded.returned (accFill a 0))
  else if !accBar0Ok a then
    if accPart a then hostRead32 (a.off.toNat / 4 * 4) otp d else d.undecoded.returned (accFill a 0)
  else if a.size = 4 then hostRead32 a.off.toNat otp d
  else hostRead32 (a.off.toNat + 4) otp (hostRead32 a.off.toNat otp d)

/-- A write by host software: a 64-bit access of BAR0 acts as two of 32 bits, lower address first (R23). -/
def hostWriteAcc (a : Access) (otp : Otp) (d : Dev) : Dev :=
  if a.bar2 then (if accBar2Ok a then d.bar2Write a otp else d.undecoded)
  else if !accBar0Ok a then d.undecoded
  else if a.size = 4 then hostWrite32 a.off.toNat (a.data.headD 0) otp d
  else hostWrite32 (a.off.toNat + 4) (a.data.getD 1 0) otp (hostWrite32 a.off.toNat (a.data.headD 0) otp d)

/-! ## The PCI Express function (R317, R318) -/

/-- What the identity part of the function's configuration space holds at DWORD `i`: Device ID and Vendor ID, Class Code and
Revision ID, BAR4 and BAR5, the subsystem (R314, R315); PRESUMED (log 10): the places, those of every
PCI Express function. -/
def Dev.pciIdentity (d : Dev) (i : Nat) : Option Word :=
  match i with
  | 0 => some 0x64031CA9
  | 2 => some (word (0x11800000 + fld idcode 28 4))
  | 8 => some 0
  | 9 => some 0
  | 11 => some d.cmd.subsystem
  | _ => none

/-- Bus Master Enable and the function mask change: messages and requests that waited for them go out. -/
def busMaster (bme mask : Bool) (otp : Otp) (d : Dev) : Dev :=
  ((({ d with cmd := { d.cmd with bme := bme, funcMask := mask } }).flushVectors).inject otp).nvPump

/-! ## SYS commands (Table 14-5) -/

/-- SYS_INFO. -/
def sysInfo (o : Owner) (otp : Otp) (d : Dev) : Otp × Dev :=
  (otp, d.complete o .ok idcode (word (at' 8 otp.state + d.mode.mode)))
/-- SYS_GCI. -/
def sysGci (o : Owner) (d : Dev) : Dev := d.complete o .ok d.stamp.lo d.stamp.hi

/-! ## Meanings -/

/-- READ_CLEAR: a read by host software; of an RC register it clears the register (R6), and of any other it does what the
register's chapter says. -/
def execReadClear (a : Access) (s : State) : Host.Outcome State Fault Refusal := s.onDev (hostRead a)
/-- REGISTER_WRITE. -/
def execRegisterWrite (a : Access) (s : State) : Host.Outcome State Fault Refusal := s.onDev (hostWriteAcc a)
/-- CLK_GCI_LO_READ (R56). -/
def execClkGciLoRead (s : State) : Host.Outcome State Fault Refusal := s.onDev (hostRead32 0x40104)
/-- SYS_MODE_GCI_LO_READ (R70). -/
def execSysModeGciLoRead (s : State) : Host.Outcome State Fault Refusal := s.onDev (hostRead32 0x84)
/-- ENG_STOP_LO_READ. -/
def execEngStopLoRead (n : Fin 64) (s : State) : Host.Outcome State Fault Refusal := s.onDev (hostRead32 (0x200010 + 0x1000 * n.val))
/-- TXN_TGT_LO_READ (R238). -/
def execTxnTgtLoRead (t : Fin 8) (s : State) : Host.Outcome State Fault Refusal := s.onDev (hostRead32 (0x60048 + 0x20 * t.val))
/-- BYT_GROUP_WRITE: word `k` of table `g` (R259). -/
def execBytGroupWrite (g : Fin 256) (k : Fin 32) (w : Word) (s : State) : Host.Outcome State Fault Refusal :=
  s.onDev fun _ d => d.hostWrite pdBy (0x54000 + 128 * g.val + 4 * k.val) w (bytGroupWrite g k w)
/-- DOORBELL: a write to CMD_CQ_TAIL(q). -/
def execDoorbell (q : Fin 4) (w : Word) (s : State) : Host.Outcome State Fault Refusal := s.onDev fun _ d => doorbellWrite q w d
/-- RQ_HEAD_WRITE. -/
def execRqHeadWrite (q : Fin 4) (w : Word) (s : State) : Host.Outcome State Fault Refusal := s.onDev fun _ d => rqHeadWrite q w d
/-- CQ_CTL_WRITE. -/
def execCqCtlWrite (q : Fin 4) (w : Word) (s : State) : Host.Outcome State Fault Refusal := s.onDev fun _ d => cqCtlWrite q w d
/-- CQ_RESET: a write to CMD_CQ_CTL(q) with RESET = 1; its other fields stay. -/
def execCqReset (q : Fin 4) (s : State) : Host.Outcome State Fault Refusal :=
  s.onDev fun _ d =>
    let x := d.queue q
    cqCtlWrite q (word (flag 31 x.en + flag 30 x.loc + flag 29 true + at' 8 x.rqLog2 + x.cqLog2w)) d
/-- COMMAND_FETCH; `x`: how the host answers the fetch's DMA. -/
def execCommandFetch (q : Fin 4) (x : Dma) (s : State) : Host.Outcome State Fault Refusal := s.onDev fun _ d => fetchCommand q x d
/-- RESPONSE_POST. -/
def execResponsePost (q : Fin 4) (s : State) : Host.Outcome State Fault Refusal := s.onDev fun _ d => postResponse q d
/-- NOTIFY_TIMER (R326). -/
def execNotifyTimer (q : Fin 4) (s : State) : Host.Outcome State Fault Refusal :=
  s.onDev fun _ d => if (d.queue q).unnotified = 0 then d else d.notify q
/-- MSIX_TABLE_WRITE: word `r` of the entry of vector `v`. -/
def execMsixTableWrite (v : Fin 256) (r : Fin 4) (w : Word) (s : State) : Host.Outcome State Fault Refusal :=
  s.onDev fun _ d => msixWrite v r w d
/-- BUS_MASTER_ENABLE; `mask`: the MSI-X function mask. -/
def execBusMasterEnable (bme mask : Bool) (s : State) : Host.Outcome State Fault Refusal := s.onDev (busMaster bme mask)
/-- STREAM_FETCH; the accesses that waited for streams in OM4 go on once no stream wants data (R61). -/
def execStreamFetch (n : Fin 64) (s : State) : Host.Outcome State Fault Refusal :=
  s.onDev fun otp d => (streamFetch n d).inject otp
/-- PCIE_RESET. -/
def execPcieReset (link : Option (Fin 3 × Fin 4)) (s : State) : Host.Outcome State Fault Refusal :=
  s.onDev fun _ d => pcieReset link d
/-- SYS_NOP. -/
def execSysNop (c : Tci) (s : State) : Host.Outcome State Fault Refusal := s.onDev (runTci 0x00 c fun o d => d.answer o .ok)
/-- SYS_INFO. -/
def execSysInfo (c : Tci) (s : State) : Host.Outcome State Fault Refusal := s.onBoth (runTciOtp 0x01 c sysInfo)
/-- SYS_GCI. -/
def execSysGci (c : Tci) (s : State) : Host.Outcome State Fault Refusal := s.onDev (runTci 0x02 c sysGci)
/-- SYS_ECHO. -/
def execSysEcho (c : Tci) (s : State) : Host.Outcome State Fault Refusal :=
  s.onDev (runTci 0x03 c fun o d => d.complete o .ok (c.w 1) (c.w 2))

end Sys2Proof.Machine
end

