-- ==== Sys2Proof/Machine/Txn.lean ====
section
/-! DEFINITION. Transactions on one device (10_transactions.md): action records, staging, the effects of a transaction at
its boundary, the end of a slot and the local commit. -/

namespace Sys2Proof.Machine

/-! ## Action records (R218, Table 10-2) -/

/-- The bits that Table 10-2 names in the operand words of a kind; none for an unlisted kind. -/
def recMask (kind : Nat) : List Word :=
  match kind with
  | 0x01 => [0x3F00003F, 0xFFFFFFFF, 0xFFFFFFFF, 0xFFFFFFFF, 0xFFFFFFFF]
  | 0x02 => [0x3F00003F]
  | 0x03 => [0x00000E3F]
  | 0x04 => [0x0FFF003F]
  | 0x05 => [0xFFFF0F3F]
  | 0x06 => [0x0000003F, 0x00FFFFFF, 0x00FFFFFF, 0xFFFFFFFF, 0xFFFFFFFF]
  | 0x07 => [0x8000F73F]
  | 0x08 => [0x0000000F]
  | 0x09 => [0xFFFFFFFF, 0xFFFFFFFF]
  | 0x0A => [0x00000007]
  | 0x0B => [0x00000003, 0xFFFFFFFF, 0x000000FF]
  | 0x0C => [0xFFFFFFFF, 0x0000000F]
  | 0x0D => [0x00000001]
  | _ => []

/-- The action that well-formed operand words of a kind spell. -/
def recFields (kind : Nat) (w : Nat → Word) : Action :=
  let c := fld (w 0) 0 6
  match kind with
  | 0x01 => .tsWrite (fld (w 0) 24 6) c
      (BitVec.ofNat 128 ((w 1).toNat + at' 32 (w 2).toNat + at' 64 (w 3).toNat + at' 96 (w 4).toNat))
  | 0x02 => .tsSwap (fld (w 0) 24 6) c
  | 0x03 => .chCfg c (BitVec.ofNat 2 (fld (w 0) 10 2)) (bit (w 0) 9)
  | 0x04 => .pageSwap c (BitVec.ofNat 12 (fld (w 0) 16 12))
  | 0x05 => .pinmap c (fld (w 0) 8 4) (BitVec.ofNat 16 (fld (w 0) 16 16))
  | 0x06 => .scrmask c (BitVec.ofNat 24 (w 1).toNat) (BitVec.ofNat 24 (w 2).toNat) (dword (w 3) (w 4))
  | 0x07 => .gang (bit (w 0) 31) c (fld (w 0) 8 3) (BitVec.ofNat 4 (fld (w 0) 12 4))
  | 0x08 => .fabSwap (fld (w 0) 0 4)
  | 0x09 => .calBulk (dword (w 0) (w 1))
  | 0x0A => .mode (fld (w 0) 0 3)
  | 0x0B => .pwrGroup (fld (w 0) 0 2) (BitVec.ofNat 40 ((w 1).toNat + at' 32 (fld (w 2) 0 8)))
  | 0x0C => .routeSwap (BitVec.ofNat 36 ((w 0).toNat + at' 32 (fld (w 1) 0 4)))
  | _ => .rampStart (fld (w 0) 0 1)

/-- The action of a record: W0 and its operand words; none where its form is not that of R218. -/
def recAction : List Word → Option Action
  | [] => none
  | w0 :: ws =>
    let m := recMask (fld w0 24 8)
    if m.isEmpty || ws.length ≠ m.length || fld w0 0 16 ≠ 0 || (ws.zip m).any (fun p => p.1 &&& ~~~p.2 != 0) then none
    else some (recFields (fld w0 24 8) fun i => ws.getD i 0)

/-- Cut operand words into records by their LEN; the index of the first record that runs past the end (R219). The first
argument bounds the number of records. -/
def splitRecs : Nat → List Word → Except Nat (List (List Word))
  | 0, _ => .ok []
  | _ + 1, [] => .ok []
  | n + 1, w :: r =>
    if r.length < fld w 16 8 then .error 0
    else match splitRecs n (r.drop (fld w 16 8)) with
      | .ok l => .ok ((w :: r.take (fld w 16 8)) :: l)
      | .error i => .error (i + 1)

/-! ## Objects and domains (R220, R221) -/

/-- The objects that staged actions hold (Table 10-2). -/
inductive Obj where
  | ts (ch set : Nat)
  | chCfg (ch : Nat)
  | page (eng : Nat)
  | pin (ch map : Nat)
  | scr (ch : Nat)
  | gangEng (eng : Nat)
  | region (n : Nat)
  | corr (ch : Nat)
  | mode
  | dom (n : Nat)
  | router (r : Nat)
  | ramp
  deriving DecidableEq, Repr

/-- The engines of a gang action; a leader and size that form no aligned gang stand for the leader alone. -/
def Dev.gangNames (d : Dev) (dissolve : Bool) (l m : Nat) : List Nat :=
  if dissolve || (m ≤ 6 && l % 2 ^ m = 0) then d.gangSpan dissolve l m else [l]

/-- The objects of an action. -/
def Dev.actObjs (d : Dev) (a : Action) : List Obj :=
  match a with
  | .tsWrite k c _ => [.ts c k]
  | .tsSwap k c => [.ts c k]
  | .chCfg c _ _ => [.chCfg c]
  | .pageSwap n _ => [.page n]
  | .pinmap c m _ => [.pin c m]
  | .scrmask c _ _ _ => [.scr c]
  | .gang x l m _ => (d.gangNames x l m).map .gangEng
  | .fabSwap n => [.region n]
  | .calBulk m => (bitsOf m).map .corr
  | .mode _ => .mode :: (bitsOf (actDomains d.mode.mode a)).map .dom
  | .pwrGroup _ s => (bitsOf s).map .dom
  | .routeSwap m => (bitsOf m).map .router
  | .rampStart _ => [.ramp]

/-- The domains of the engines, channels and regions that an action names; the routers lie in PD_AON, which is always On. -/
def Dev.actNeeds (d : Dev) (a : Action) : List Nat :=
  match a with
  | .tsWrite _ c _ => [pdEq c]
  | .tsSwap _ c => [pdEq c]
  | .chCfg c _ _ => [pdEq c]
  | .pageSwap n _ => [pdEq n]
  | .pinmap c _ _ => [pdEq c]
  | .scrmask c _ _ _ => [pdEq c]
  | .gang x l m _ => (d.gangNames x l m).map pdEq
  | .fabSwap n => [pdRg n]
  | .calBulk m => (bitsOf m).map pdEq
  | .mode _ => [] | .pwrGroup _ _ => [] | .routeSwap _ => [] | .rampStart _ => []

/-- The domains that an action takes out of On (R221). -/
def Dev.actTakes (d : Dev) (a : Action) : List Nat :=
  match a with
  | .pwrGroup s m => if s = 0 then [] else bitsOf m
  | .mode t => if t = 6 then bitsOf (actDomains d.mode.mode a) else []
  | .tsWrite _ _ _ => [] | .tsSwap _ _ => [] | .chCfg _ _ _ => [] | .pageSwap _ _ => [] | .pinmap _ _ _ => []
  | .scrmask _ _ _ _ => [] | .gang _ _ _ _ => [] | .fabSwap _ => [] | .calBulk _ => [] | .routeSwap _ => []
  | .rampStart _ => []

/-- An object of an action is held (R220): by a staged action, by an accepted start (R332), or, for the pages and the
gang of one engine, by another slot (R83). -/
def Dev.actHeld (d : Dev) (t : Nat) (a : Action) : Bool :=
  let held := d.openActs.flatMap d.actObjs
  let other := (d.openActsBut t).flatMap d.actObjs
  (d.actObjs a).any fun o => held.contains o || match o with
    | .page n => d.startPends n || other.contains (.gangEng n)
    | .gangEng n => d.startPends n || other.contains (.page n)
    | .ts _ _ => false | .chCfg _ => false | .pin _ _ => false | .scr _ => false | .region _ => false | .corr _ => false
    | .mode => false | .dom _ => false | .router _ => false | .ramp => false

/-- A domain of an action is not On, or leaves On with the same transaction (R221). -/
def Dev.actFenced (d : Dev) (t : Nat) (a : Action) : Bool :=
  let own := (d.slot t).acts
  let takes := own.flatMap d.actTakes
  let needs := own.flatMap d.actNeeds
  (d.actNeeds a).any (fun n => !d.domOn n || takes.contains n) || (d.actTakes a).any needs.contains

/-- The modes that an action of slot `t` is validated against (R222). -/
def Dev.modesFor (d : Dev) (t : Nat) : List Nat :=
  (match modeOf (d.slot t).acts with
    | some m => m
    | none => d.mode.mode) ::
  (match modeOf (d.openActsBut t) with
    | some m => [m]
    | none => [])

/-! ## Validation by kind (Table 10-2, R49, R64) -/

/-- Segments of slot `s` up to its END, with their numbers (R48). -/
def Dev.rampSegs (d : Dev) (s : Nat) : List (Nat × DWord) :=
  ((List.range 16).map fun n => (n, d.seg s n)).takeWhile fun x => segKind x.2 != 2

/-- Every beat frequency of slot `s` times N lies in the ECLK range of mode `m`. -/
def Dev.rampIn (d : Dev) (s m : Nat) : Bool :=
  ((d.rampSegs s).map fun x => segTgt x.2).all fun hz =>
    decide (eclkMin m ≤ hz * d.time.mult) && decide (hz * d.time.mult ≤ eclkMax d.fuse.grade3 m)

/-- The checks of a ramp start, in the order of R49. -/
def Dev.rampCheck (d : Dev) (s : Nat) (modes : List Nat) : Status :=
  let segs := d.rampSegs s
  let per := d.time.period.toNat
  let hz := d.startHz s
  let badEnd := (List.range 16).any fun n => n == segs.length && (n == 0 || fld (d.seg s n) 0 62 != 0)
  let badSeg := segs.any fun x => segKind x.2 == 3 || fld x.2 29 11 != 0 || (segKind x.2 == 1 && segTgt x.2 != d.segF s x.1)
  let tgts := segs.map fun x => segTgt x.2
  if badEnd || badSeg then .badOperand
  else if tgts.any (fun f => f < 100000000 || (if d.fuse.grade3 then 375000000 else 300000000) < f) || !d.rampIn s 0 then .badOperand
  else if !modes.all (d.rampIn s) then .modeDenied
  else if segs.any fun x =>
      let f := d.segF s x.1
      let g := segTgt x.2
      segKind x.2 == 0 && decide ((segDur x.2 + 1) * min f g < (max f g - min f g) * 65536) then .badOperand
  else if 10 ^ 15 < 1000 * (max (hz * per) (10 ^ 15) - min (hz * per) (10 ^ 15)) then .badOperand
  else if d.time.rampActive then .busy
  else .ok

/-- A set selects DNRZ: an active copy of any channel, or what a staged action makes active (check 6 of Table 3-4). -/
def Dev.dnrzInUse (d : Dev) : Bool :=
  (List.range 64).any (fun c => (d.channel c).act.any fun e => tsDnrz e.2) || d.openActs.any fun a => match a with
    | .tsWrite _ _ w => tsDnrz w
    | .tsSwap k c => tsDnrz ((d.channel c).shadow k)
    | .chCfg _ _ _ => false | .pageSwap _ _ => false | .pinmap _ _ _ => false | .scrmask _ _ _ _ => false
    | .gang _ _ _ _ => false | .fabSwap _ => false | .calBulk _ => false | .mode _ => false | .pwrGroup _ _ => false
    | .routeSwap _ => false | .rampStart _ => false

/-- A gang of 2 or more exists or is staged, and no dissolution staged in slot `t` ends it (check 7 of Table 3-4). -/
def Dev.gangLeft (d : Dev) (t : Nat) : Bool :=
  let ended (l : Nat) : Bool := (d.slot t).acts.any fun a => match a with
    | .gang x k _ _ => x && k == l
    | .tsWrite _ _ _ => false | .tsSwap _ _ => false | .chCfg _ _ _ => false | .pageSwap _ _ => false
    | .pinmap _ _ _ => false | .scrmask _ _ _ _ => false | .fabSwap _ => false | .calBulk _ => false
    | .mode _ => false | .pwrGroup _ _ => false | .routeSwap _ => false | .rampStart _ => false
  (List.range 64).any (fun n => (d.engine n).sizeLog2 != 0 && (d.engine n).st != .follower && !ended n) ||
    d.openActs.any fun a => match a with
      | .gang x _ m _ => !x && m != 0
      | .tsWrite _ _ _ => false | .tsSwap _ _ => false | .chCfg _ _ _ => false | .pageSwap _ _ => false
      | .pinmap _ _ _ => false | .scrmask _ _ _ _ => false | .fabSwap _ => false | .calBulk _ => false
      | .mode _ => false | .pwrGroup _ _ => false | .routeSwap _ => false | .rampStart _ => false

/-- The ramps that the ECLK check of a mode change looks at: the active one and those staged. -/
def Dev.rampSlots (d : Dev) : List Nat :=
  (if d.time.rampActive then [d.time.rampSlot] else []) ++ d.openActs.filterMap fun a => match a with
    | .rampStart s => some s
    | .tsWrite _ _ _ => none | .tsSwap _ _ => none | .chCfg _ _ _ => none | .pageSwap _ _ => none
    | .pinmap _ _ _ => none | .scrmask _ _ _ _ => none | .gang _ _ _ _ => none | .fabSwap _ => none
    | .calBulk _ => none | .mode _ => none | .pwrGroup _ _ => none | .routeSwap _ => none

/-- The ECLK now and at every point of an active or staged ramp is within the grade's maximum (R2). -/
def Dev.gradeAllows (d : Dev) : Bool :=
  let top := eclkMax d.fuse.grade3 0
  eclkLe d.time.mult d.time.period.toNat top && d.rampSlots.all fun s =>
    decide (d.startHz s * d.time.mult ≤ top) && ((d.rampSegs s).all fun x => decide (segTgt x.2 * d.time.mult ≤ top))

/-- The checks of a mode change to `m` staged in slot `t` (Table 3-4). -/
def Dev.modeCheck (d : Dev) (t m : Nat) : Status :=
  let old := d.mode.mode
  let startIn (s : Nat) : Bool := decide (eclkMin m ≤ d.startHz s * d.time.mult) &&
    decide (d.startHz s * d.time.mult ≤ eclkMax d.fuse.grade3 m)
  if m = old then .badOperand
  else if (modeOf (d.openActsBut t)).isSome then .busy
  else if old = 7 && d.bst.tests.any (·.running) then .busy
  else if (altersTpll old m || m = 5) && !d.allHalted then .modeDenied
  else if !d.gradeAllows then .badOperand
  else if !d.eclkIn d.time.mult m || d.rampSlots.any (fun s => !startIn s || !d.rampIn s m) then .modeDenied
  else if noDnrz m && d.dnrzInUse then .modeDenied
  else if m ≠ 3 && d.gangLeft t then .modeDenied
  else if (m = 1 || m = 2 || m = 4 || m = 5 || m = 6) && decide (d.fcp.mode = .mergeMode) then .modeDenied
  else if m = 5 && (List.range 32).any (fun k => d.gclkFast (d.gclk k)) then .modeDenied
  else if m = 6 then d.pwrCheck 2 halfGroup false [6]
  else .ok

/-- The validation of an action's kind for slot `t`. -/
def Dev.actValid (d : Dev) (t : Nat) (a : Action) : Status :=
  let modes := d.modesFor t
  match a with
  | .tsWrite _ _ w => match tsCheck w with
    | .ok => if tsDnrz w && modes.any noDnrz then .modeDenied else .ok
    | st => st
  | .tsSwap k c =>
    let x := d.channel c
    if !bit x.svalid k then .badOperand
    else if tsDnrz (x.shadow k) && modes.any noDnrz then .modeDenied else .ok
  | .chCfg _ _ _ => .ok
  | .pageSwap n _ => if !(d.engine n).a.svalid || (d.engine n).refill.isSome then .badOperand else .ok
  | .pinmap _ _ x => if pinOk (x.setWidth 32) then .ok else .badOperand
  | .scrmask _ _ _ _ => .ok
  | .gang x l m _ => d.gangCheck d.openActs x l m modes
  | .fabSwap n => d.swapStatus n (d.regionHeld n)
  | .calBulk m => if m = 0 || !modes.all (fun k => (bitsOf m).all (modeRuns k)) then .badOperand else .ok
  | .mode m => d.modeCheck t m
  | .pwrGroup s m => d.pwrCheck s m false modes
  | .routeSwap m => if (bitsOf m).any (fun r => !bit d.noc.svalid r) then .badOperand else .ok
  | .rampStart s => d.rampCheck s modes

/-! ## Slots (R216, R217, R223, R237) -/

/-- Delivery time of `n` actions in ns (R223). -/
def delivNs (n : Nat) : Nat := 500 + 4 * n

/-- EV160 + t with a reason, a status and a detail. -/
def Dev.slotEvent (d : Dev) (t : Nat) (st : Status) (reason detail : Nat) : Dev := d.fire (160 + t) (payload st reason detail)

/-- At least `ps` picoseconds are left to the boundary of a target in the current epoch. -/
def Dev.timeLeft (d : Dev) (t : Target) (ps : Nat) : Bool :=
  let per := if d.time.period = 0 then 10000000 else d.time.period.toNat
  decide (ps * 1000 * d.time.mult ≤ (d.beatsTo t * d.time.mult - d.time.eclk) * per)

/-- An abort gives the shadow copies back that a delivery has overwritten (R135). -/
def Dev.restoreShadows (d : Dev) (l : List (Nat × Nat × QWord × Bool)) : Dev :=
  l.foldl (fun d x => d.updChannel x.1 fun c =>
    { (c.touch x.2.1) with
      shd := Store.put tsReset c.shd x.2.1 x.2.2.1
      svalid := putBit c.svalid x.2.1 x.2.2.2 }) d

/-- The slot ends in ABORTED with a cause and a detail: its domains are unfenced, its event fires and a command that waits
for the decision is answered (R225, R237). -/
def Dev.abortSlot (d : Dev) (t : Nat) (cause : Status) (detail : Nat) : Dev :=
  let x := d.slot t
  let d := (d.dropSlot t).restoreShadows x.saved
  let d := d.setSlot t { x with st := .aborted, cause := cause, detail := detail, owner := none, saved := [] }
  let d := d.slotEvent t cause 2 detail
  match x.owner with
  | some o => d.complete o .txnAborted (word cause.code) (word detail)
  | none => d

/-- The slot becomes COMMITTED (R223, R227): delivery starts now, or later for a local AT_GCI commit; a command that waits
for the decision is answered. -/
def Dev.commitSlot (d : Dev) (t : Nat) : Dev :=
  let x := d.slot t
  let now := x.kind ≠ 1 || decide (d.beatsTo x.target ≤ d.beatsOf (x.dNs + 1000))
  let d := d.setSlot t { x with st := .committed, owner := none, delivering := now, order := d.txn.decided }
  let d := { d with txn := { d.txn with decided := d.txn.decided + 1 } }
  d.answer? x.owner .ok

/-- Every power action of slot `t` is requested (R225, R231). -/
def Dev.fenceSlot (d : Dev) (t : Nat) : Dev :=
  let old := d.mode.mode
  (d.slot t).acts.foldl (fun d a => match a with
    | .pwrGroup s m => match domGoal s with
      | some g => d.startReq { slot := some t, goal := g, set := m }
      | none => d
    | .mode m =>
      if actDomains old a = 0 then d
      else d.startReq { slot := some t, goal := if m = 6 then .off else .on, set := halfGroup }
    | .tsWrite _ _ _ => d | .tsSwap _ _ => d | .chCfg _ _ _ => d | .pageSwap _ _ => d | .pinmap _ _ _ => d
    | .scrmask _ _ _ _ => d | .gang _ _ _ _ => d | .fabSwap _ => d | .calBulk _ => d | .routeSwap _ => d
    | .rampStart _ => d) d

/-- Every domain of slot `t`'s power actions has agreed. -/
def Dev.slotAgreed (d : Dev) (t : Nat) : Bool := d.pwr.reqs.all fun r => decide (r.slot ≠ some t) || r.draining == 0
/-- Slot `t` has power actions. -/
def Dev.slotFences (d : Dev) (t : Nat) : Bool := (d.slot t).acts.any fun a => actDomains d.mode.mode a != 0

/-- A local commit is decided (R225): an IMMEDIATE one whose boundary has passed while it fenced takes the first boundary
that follows the decision by D or more (DESIGN CHOICE), an AT_GCI one aborts with LATE. -/
def Dev.decideLocal (d : Dev) (t : Nat) : Dev :=
  let x := d.slot t
  if x.kind = 0 then
    let g := if d.time.gci.toNat < x.target.gci.toNat then x.target.gci
      else d.time.gci + BitVec.ofNat 48 (d.boundariesFor x.dNs)
    (d.setSlot t { x with target := { epoch := d.time.epoch, gci := g } }).commitSlot t
  else if d.time.gci.toNat < x.target.gci.toNat then d.commitSlot t
  else d.abortSlot t .late 0

/-- An IMMEDIATE or AT_GCI commit is accepted. -/
def Dev.acceptLocal (d : Dev) (t : Nat) : Dev :=
  if d.slotFences t then
    let d := (d.updSlot t fun x => { x with st := .preparing }).fenceSlot t
    if d.slotAgreed t then d.decideLocal t else d
  else d.decideLocal t

/-! ## Effects at the boundary (R227, R228) -/

/-- The effects of a mode change (Table 3-5, R66, R67, R136): a sweep of OM0 or OM7 is cut short (R172), and steps are cancelled
where the TPLL arrangement changes (Table 7-3). -/
def Dev.applyMode (d : Dev) (m : Nat) : Dev :=
  let old := d.mode.mode
  let d := { d with mode := { d.mode with mode := m, prev := old, stamp := d.boundaryStamp } }
  let d := if (old == 0 || old == 7) && m != old then d.abortSweep else d
  let d := (d.modeLoops old).forceSlew old m
  let stops := (List.range 64).filter fun n => (d.engine n).st.moving && !modeRuns m n
  let d := (d.requestStops stops 4 .async).raeModeChange m
  let d := if noDnrz m then
      times 64 (fun c d => d.updChannel c fun x =>
        { x with
          svalid := (bitsOf x.svalid).foldl (fun v k => if tsDnrz (x.shadow k) then clrBit v k else v) x.svalid
          check := x.check.map fun v => if tsDnrz (x.shadow v.set) then { v with dirty := true } else v }) d
    else d
  let moved := ofBits 64 ((List.range 64).filter fun c => loopKind old (tpllOf c) != loopKind m (tpllOf c))
  let d := { d with cal := { d.cal with cancel := d.cal.cancel ||| moved } }
  if m = 2 then { d with cal := { d.cal with intvFull := false, om2 := [], winDue := none } } else d

/-- A timing set write becomes active: its words have gone through the shadow copy, which then holds the old active copy
(R135). -/
def Channel.setActive (x : Channel) (k : Nat) (w : QWord) : Channel :=
  { (x.touch k) with
    act := Store.put tsReset x.act k w
    shd := Store.put tsReset x.shd k (x.active k)
    svalid := clrBit x.svalid k }

/-- A committed action takes effect; power actions apply together, by `Dev.applySlot`. -/
def Dev.applyAction (d : Dev) (a : Action) : Dev :=
  match a with
  | .mode m => d.applyMode m
  | .pwrGroup _ _ => d
  | .rampStart s => d.startRamp s
  | .routeSwap m => d.routeSwap m
  | .fabSwap n => d.swapPlanes n
  | .gang x l m map => d.applyGang x l m map
  | .pinmap c m x => d.setPin c m x
  | .scrmask c x y v => d.updEngine c fun e => { e with scrx := x, scry := y, scrd := v }
  | .pageSwap n entry => d.pageSwap n entry
  | .tsWrite k c w => d.updChannel c fun x => x.setActive k w
  | .tsSwap k c => d.updChannel c fun x => x.swap k
  | .chCfg c slew swing => d.setSlew c slew swing
  | .calBulk m => d.bulkApply m

/-- The place of a kind in the order of R227. -/
def actRank : Action → Nat
  | .mode _ => 0
  | .pwrGroup _ _ => 1
  | .rampStart _ => 2
  | .routeSwap _ => 3
  | .fabSwap _ => 4
  | .gang _ _ _ _ => 5
  | .pinmap _ _ _ => 6
  | .scrmask _ _ _ _ => 6
  | .pageSwap _ _ => 7
  | .tsWrite _ _ _ => 8
  | .tsSwap _ _ => 8
  | .chCfg _ _ _ => 8
  | .calBulk _ => 9

/-- The actions of rank `r`, in staging order. -/
def ofRank (r : Nat) (l : List Action) : List Action := l.filter fun a => actRank a == r

/-- The transaction of slot `t` takes effect, and the slot becomes APPLIED (R227, R228, R237). -/
def Dev.applyTxn (d : Dev) (t : Nat) : Dev :=
  let acts := (d.slot t).acts
  let d := ((ofRank 0 acts).foldl Dev.applyAction d).applySlot t
  let d := times 10 (fun r d => if r < 2 then d else (ofRank r acts).foldl Dev.applyAction d) d
  let d := d.updSlot t fun x => { x with st := .applied, cause := .ok, saved := [] }
  d.slotEvent t .ok 1 acts.length

/-- The slots COMMITTED for the present boundary, in the order of R227. -/
def Dev.dueSlots (d : Dev) : List Nat :=
  let due := (List.range 8).filter fun t => decide ((d.slot t).st = .committed) && decide ((d.slot t).target = d.nowTarget)
  let isMode (t : Nat) : Bool := (modeOf (d.slot t).acts).isSome
  let rest := (due.filter fun t => !isMode t).mergeSort fun a b => decide ((d.slot a).order ≤ (d.slot b).order)
  due.filter isMode ++ rest

/-- A slot that VOTED and has no decision ends in OUTSTEP, and the device enters OUT_OF_STEP (R233). -/
def Dev.outstep (d : Dev) (t : Nat) : Dev :=
  let x := d.slot t
  let d := d.dropSlot t
  let d := d.setSlot t { x with st := .outstep, cause := .outOfStep }
  let d := { d with txn := { d.txn with oosTxn := true, oosSrcBeat := false, oosSlot := t, oosXid := x.xid } }
  let d := d.requestStops ((List.range 64).filter fun n => (d.engine n).st.moving) 3 .async
  (d.slotEvent t .outOfStep 3 (fld x.xid 0 10)).fire 159 (payload .outOfStep 2 t)

/-- Step 1 of R34 for the transactions: those that are due apply, and a VOTED slot whose target is here ends. -/
def Dev.txnBeat (d : Dev) : Dev :=
  let d := d.dueSlots.foldl Dev.applyTxn d
  ((List.range 8).filter fun t => decide ((d.slot t).st = .voted) && decide ((d.slot t).target = d.nowTarget)).foldl
    Dev.outstep d

/-! ## Staging and the plain commands (R217, R219, R226, R234) -/

/-- TXN_OPEN. -/
def txnOpen (o : Owner) (d : Dev) : Dev :=
  match (List.range 8).find? fun t => decide ((d.slot t).st = .free) with
  | some t => (d.setSlot t { st := .opened, dNs := delivNs 0 }).complete o .ok (word t) 0
  | none => d.answer o .busy

/-- The bytes of staging memory that an action occupies (R215). -/
def Action.bytes : Action → Nat
  | .tsWrite _ _ _ => 32 | .scrmask _ _ _ _ => 32
  | .tsSwap _ _ => 16 | .chCfg _ _ _ => 16 | .pageSwap _ _ => 16 | .pinmap _ _ _ => 16 | .gang _ _ _ _ => 16
  | .fabSwap _ => 16 | .calBulk _ => 16 | .mode _ => 16 | .pwrGroup _ _ => 16 | .routeSwap _ => 16 | .rampStart _ => 16

/-- The bytes of staging memory that a slot's actions occupy. -/
def TxnSlot.staged (x : TxnSlot) : Nat := (x.acts.map Action.bytes).foldl (· + ·) 0

/-- A record goes to staging memory, padded with zero words to its 16 or 32 bytes (R215). Slot `t` has the eighth part `t`
of the memory and holds its actions there in order (DESIGN CHOICE, log 54). -/
def Dev.stageBytes (d : Dev) (t : Nat) (r : List Word) : Dev :=
  let ws := r ++ List.replicate ((4 - r.length % 4) % 4) 0
  { d with txn := { d.txn with staging := wrWords d.txn.staging (0x20000 * t + (d.slot t).staged) ws } }

/-- Stage one record in slot `t`: the device with the action, or the status of the first check that fails (R219). -/
def Dev.stageOne (d : Dev) (t : Nat) (r : List Word) : Except Status Dev :=
  match recAction r with
  | none => .error .badOperand
  | some a =>
    if d.actHeld t a then .error .busy
    else if d.actFenced t a then .error .fenced
    else match d.actValid t a with
      | .ok => .ok ((d.stageBytes t r).updSlot t fun x => { x with acts := x.acts ++ [a], dNs := delivNs (x.acts.length + 1) })
      | st => .error st

/-- Stage records in order; the index and status of the first that fails. -/
def Dev.stageAll (t : Nat) : Nat → List (List Word) → Dev → Except (Nat × Status) Dev
  | _, [], d => .ok d
  | i, r :: rs, d => match d.stageOne t r with
    | .error st => .error (i, st)
    | .ok d => Dev.stageAll t (i + 1) rs d

/-- TXN_STAGE (R219). -/
def txnStage (c : Tci) (o : Owner) (d : Dev) : Dev :=
  let t := fld (c.w 1) 0 3
  let held := (d.slot t).acts.length
  let fail (st : Status) (i : Nat) : Dev := d.complete o st (word i) (word held)
  if (d.slot t).st = .free then fail .badOperand 0
  else if (d.slot t).st ≠ .opened then fail .busy 0
  else match splitRecs c.words.length (c.words.drop 1) with
    | .error i => fail .badOperand i
    | .ok rs =>
      if rs.isEmpty then fail .badOperand 0
      else if 4096 < held + rs.length then fail .errLenExceeds 0
      else match Dev.stageAll t 0 rs d with
        | .error (i, st) => fail st i
        | .ok d => d.complete o .ok 0 (word (held + rs.length))

/-- TXN_ABORT (R226). -/
def txnAbort (c : Tci) (o : Owner) (d : Dev) : Dev :=
  let t := fld (c.w 1) 0 3
  let x := d.slot t
  let may := match x.st with
    | .opened => true | .ready => true
    | .committed => x.kind == 1 && !x.delivering
    | .free => false | .preparing => false | .voted => false | .applied => false | .aborted => false | .outstep => false
  if may then (d.abortSlot t .aborted 0).answer o .ok else d.answer o .busy

/-- TXN_RELEASE. -/
def txnRelease (c : Tci) (o : Owner) (d : Dev) : Dev :=
  let t := fld (c.w 1) 0 3
  match (d.slot t).st with
  | .applied => (d.setSlot t {}).answer o .ok
  | .aborted => (d.setSlot t {}).answer o .ok
  | .outstep => (d.setSlot t {}).answer o .ok
  | .free => d.answer o .busy | .opened => d.answer o .busy | .preparing => d.answer o .busy | .ready => d.answer o .busy
  | .voted => d.answer o .busy | .committed => d.answer o .busy

/-- TXN_CLEAR_OOS (R234): a device that is not OUT_OF_STEP answers OK (DESIGN CHOICE). -/
def txnClearOos (o : Owner) (d : Dev) : Dev :=
  if d.txn.oosTxn then
    if d.allHalted then ({ d with txn := { d.txn with oosTxn := false } }).answer o .ok else d.answer o .busy
  else if d.txn.oosBeat then d.answer o .refused
  else d.answer o .ok

/-- DELIVERY_START of a local AT_GCI commit, at the latest boundary that lies D + 1 µs before the target (R223). -/
def deliveryStart (t : Nat) (d : Dev) : Dev :=
  let x := d.slot t
  if x.st = .committed && x.kind = 1 && !x.delivering && decide (d.beatsTo x.target ≤ d.beatsOf (x.dNs + 1000)) then
    d.setSlot t { x with delivering := true }
  else d

/-- DELIVERY_DONE (R135, R223): the words of timing set writes lie in the shadow copies. -/
def deliveryDone (t : Nat) (d : Dev) : Dev :=
  let x := d.slot t
  if x.st ≠ .committed || !x.delivering || x.delivered then d
  else
    let load (d : Dev) (a : Action) : Dev := match a with
      | .tsWrite k c w =>
        let ch := d.channel c
        let y := { (ch.touch k) with shd := Store.put tsReset ch.shd k w, svalid := clrBit ch.svalid k }
        (d.setChannel c y).updSlot t fun x => { x with saved := x.saved ++ [(c, k, ch.shadow k, bit ch.svalid k)] }
      | .tsSwap _ _ => d | .chCfg _ _ _ => d | .pageSwap _ _ => d | .pinmap _ _ _ => d | .scrmask _ _ _ _ => d
      | .gang _ _ _ _ => d | .fabSwap _ => d | .calBulk _ => d | .mode _ => d | .pwrGroup _ _ => d | .routeSwap _ => d
      | .rampStart _ => d
    x.acts.foldl load (d.setSlot t { x with delivered := true })

end Sys2Proof.Machine
end

