-- ==== Sys2Proof/Machine/Dist.lean ====
section
/-! DEFINITION. Distributed commits (R229 to R235), the outcome of a fence for the slot that it belongs to, and the TXN
commands. -/

namespace Sys2Proof.Machine

/-! ## Scope and latency (R230) -/

/-- The devices of a scope, the coordinator first. -/
def Dev.resolve (d : Dev) (s : Scope) : List Nat :=
  let own := d.ownAddr
  let l : List Nat := match s with
    | .all => d.eligibles
    | .subtree a => d.eligibles.filter fun x => (d.chain x).contains a.toNat
    | .list l => l.map (·.toNat)
    | .group g => d.eligibles.filter fun x => bit (Store.get (fun _ => (0 : BitVec 1024)) d.byt.group g.toNat) x
  own :: l.filter (· ≠ own)

/-- L: the largest one-way latency from this device to a participant, in ps. -/
def Dev.scopeLat (d : Dev) (l : List Nat) : Nat := l.foldl (fun m a => max m (d.pathLat d.ownAddr a)) 0

/-- A LIST or a SUBTREE may name the device: the directory holds it present and eligible (R230). -/
def Dev.takesPart (d : Dev) (a : Nat) : Bool := (d.dirEnt a).present && (d.dirEnt a).eligible

/-- The refusals of a scope (R230). -/
def Dev.scopeStatus (d : Dev) (s : Scope) : Status :=
  match s with
  | .all => .ok
  | .group _ => .ok
  | .subtree a => if d.takesPart a.toNat then .ok else .notPresent
  | .list l => if !decide l.Nodup then .badOperand else if l.all fun a => d.takesPart a.toNat then .ok else .notPresent

/-- This device belongs to the scope of a frame that has reached it. -/
def Dev.inScope (d : Dev) (s : Scope) : Bool :=
  match s with
  | .all => d.byt.eligible
  | .group _ => d.byt.eligible
  | .subtree a => d.byt.eligible && (d.chain d.ownAddr).contains a.toNat
  | .list l => l.any fun a => a.toNat == d.ownAddr

/-! ## The coordinator (R232) -/

/-- The largest D received so far, in ps, or 0.5 µs. -/
def TxnSlot.dMax (x : TxnSlot) : Nat :=
  if x.votes.isEmpty then 500000 else 1000 * x.votes.foldl (fun m v => max m v.dNs) 0

/-- The time left to the target allows a decision (R232). -/
def Dev.inTime (d : Dev) (t : Nat) : Bool :=
  let x := d.slot t
  d.timeLeft x.target (d.scopeLat x.participants + x.dMax)

/-- The coordinator decides ABORT: what the participants are told, then what its own slot shows. -/
def Dev.abortDist (d : Dev) (t : Nat) (cause : Status) (told detail : Nat) : Dev :=
  let x := d.slot t
  let d := d.sayScope x.scope (.decision x.xid false cause (BitVec.ofNat 16 told) x.scope)
  d.abortSlot t cause detail

/-- The coordinator decides when it can. -/
def Dev.tryDecide (d : Dev) (t : Nat) : Dev :=
  let x := d.slot t
  if !d.inTime t then d.abortDist t .late 0 0
  else if x.participants.all fun a => x.votes.any fun v => v.addr == a then
    (d.sayScope x.scope (.decision x.xid true .ok 0 x.scope)).commitSlot t
  else d

/-- A vote is counted. -/
def Dev.countVote (d : Dev) (t a dNs : Nat) : Dev :=
  (d.updSlot t fun x => { x with votes := x.votes ++ [{ addr := a, yes := true, dNs := dNs }] }).tryDecide t

/-- The coordinator's own YES. -/
def Dev.ownYes (d : Dev) (t : Nat) : Dev := d.countVote t d.ownAddr (d.slot t).dNs

/-- A DISTRIBUTED commit is accepted: the scope is resolved, PREPARE goes out, and the coordinator votes for itself once
its own domains have agreed. -/
def Dev.startDist (d : Dev) (t : Nat) (s : Scope) : Dev :=
  let d := d.updSlot t fun x =>
    { x with st := .preparing, scope := s, participants := d.resolve s, votes := [], prepared := true }
  let x := d.slot t
  let d := d.sayScope s (.prepare x.xid x.target.epoch x.target.gci s)
  if d.txn.oosTxn || d.txn.oosBeat then d.abortDist t .outOfStep d.ownAddr d.ownAddr
  else
    let d := d.fenceSlot t
    if d.slotAgreed t then d.ownYes t else d

/-- A VOTE reaches the coordinator: the first vote of a participant counts; a YES that meets an abort gets the decision
again (Table 10-4). -/
def Dev.voteArrives (d : Dev) (src : Nat) (xid : Word) (yes : Bool) (st : Status) (dNs : Nat) : Dev :=
  match (List.range 8).find? fun t => (d.slot t).kind == 2 && (d.slot t).xid == xid && decide ((d.slot t).st ≠ .opened) with
  | none => d
  | some t =>
    let x := d.slot t
    match x.st with
    | .preparing =>
      if !x.participants.contains src || x.votes.any (fun v => v.addr == src) then d
      else if yes then d.countVote t src dNs else d.abortDist t st src src
    | .aborted =>
      if yes && x.participants.contains src then
        d.sayTo src (.decision xid false x.cause (BitVec.ofNat 16 x.detail) (.list [BitVec.ofNat 10 src]))
      else d
    | .free => d | .opened => d | .ready => d | .voted => d | .committed => d | .applied => d | .outstep => d

/-- VOTE_TIMEOUT: VOTE_TMO elapses without every vote. -/
def voteTimeout (t : Nat) (d : Dev) : Dev :=
  let x := d.slot t
  let silent := x.participants.filter fun a => !x.votes.any fun v => v.addr == a
  match silent with
  | [] => d
  | a :: r =>
    if x.st = .preparing && x.kind = 2 then
      let low := r.foldl min a
      d.abortDist t .timeout low low
    else d

/-- COORDINATOR_LATE: the time left to the target falls below L + Dmax. -/
def coordinatorLate (t : Nat) (d : Dev) : Dev :=
  if (d.slot t).st = .preparing && (d.slot t).kind = 2 && !d.inTime t then d.abortDist t .late 0 0 else d

/-- Devices leave the tree: a distributed commit that one of them takes part in aborts (R232, R255). -/
def Dev.departed (d : Dev) (l : List Nat) : Dev :=
  (List.range 8).foldl (fun d t =>
    let x := d.slot t
    match x.participants.filter fun a => a != d.ownAddr && l.contains a with
    | [] => d
    | a :: r =>
      let low := r.foldl min a
      if x.st = .preparing && x.kind = 2 then d.abortDist t .notPresent low low else d) d

/-! ## A participant (R231, R233) -/

/-- Send a vote to the coordinator that the XID names. -/
def Dev.sendVote (d : Dev) (xid : Word) (yes : Bool) (st : Status) (dNs : Nat) : Dev :=
  d.sayTo (fld xid 22 10) (.vote xid yes st (BitVec.ofNat 15 dNs))

/-- A NO vote: the slot ends in ABORTED. -/
def Dev.voteNo (d : Dev) (t : Nat) (st : Status) (detail : Nat) : Dev :=
  let x := d.slot t
  (d.abortSlot t st detail).sendVote x.xid false st x.dNs

/-- The domains of a participant have agreed: it votes YES if its target still lies ahead. -/
def Dev.voteYes (d : Dev) (t : Nat) : Dev :=
  let x := d.slot t
  if d.targetStatus x.target ≠ .ok then d.voteNo t .late d.ownAddr
  else (d.setSlot t { x with st := .voted }).sendVote x.xid true .ok x.dNs

/-- PREPARE reaches a device of its scope; a second copy of a PREPARE changes nothing (DESIGN CHOICE). -/
def Dev.prepareArrives (d : Dev) (xid : Word) (tgt : Target) (s : Scope) : Dev :=
  let mine (t : Nat) : Bool := (d.slot t).kind == 3 && (d.slot t).xid == xid
  if !d.inScope s || (List.range 8).any (fun t => mine t && match (d.slot t).st with
      | .voted => true | .committed => true | .applied => true | .outstep => true
      | .ready => (d.slot t).prepared
      | .free => false | .opened => false | .preparing => false | .aborted => false) then d
  else match (List.range 8).find? fun t => mine t && decide ((d.slot t).st = .ready) with
    | none => d.sendVote xid false .notPresent 0
    | some t =>
      let d := d.updSlot t fun x => { x with prepared := true, scope := s }
      if (d.slot t).target ≠ tgt then d.voteNo t .badOperand d.ownAddr
      else if d.txn.oosTxn || d.txn.oosBeat then d.voteNo t .outOfStep d.ownAddr
      else
        let d := d.fenceSlot t
        if d.slotAgreed t then d.voteYes t else d

/-- A decision reaches a participant (R233); one that comes too late is ignored and raises EV168. -/
def Dev.decisionArrives (d : Dev) (xid : Word) (commit : Bool) (cause : Status) (detail : Nat) : Dev :=
  match (List.range 8).find? fun t => (d.slot t).kind == 3 && (d.slot t).xid == xid &&
      (decide ((d.slot t).st = .voted) || decide ((d.slot t).st = .outstep)) with
  | none => d
  | some t =>
    let x := d.slot t
    if x.st = .outstep || !d.timeLeft x.target (1000 * x.dNs) then d.fire 168 (payload .late (if commit then 1 else 2) t)
    else if commit then d.commitSlot t
    else d.abortSlot t cause detail

/-! ## Fences of slots -/

/-- The outcome of a fence for the slot that it belongs to (R225, R231, R232). -/
def Dev.fenced (x : Dev × FenceRes) : Dev :=
  let d := x.1
  match x.2 with
  | .none => d
  | .agreed none => d
  | .refused none _ _ => d
  | .agreed (some t) =>
    if (d.slot t).kind = 2 then d.ownYes t else if (d.slot t).kind = 3 then d.voteYes t else d.decideLocal t
  | .refused (some t) cause n =>
    if (d.slot t).kind = 2 then d.abortDist t cause d.ownAddr n
    else if (d.slot t).kind = 3 then d.voteNo t cause n
    else d.abortSlot t cause n

/-- FENCE_COMPLETE: nothing that the fence of domain `n` waits for is left (R382). -/
def fenceComplete (n : Nat) (d : Dev) : Dev := Dev.fenced (d.fenceStep n)
/-- DRAIN_TIMEOUT (R353). -/
def drainTimeout (n : Nat) (d : Dev) : Dev := Dev.fenced (d.drainLate n)

/-! ## TXN_COMMIT (R224, R229, R230, Table 10-5) -/

/-- The addresses of a LIST: word 6 and on hold two each. -/
def listAddrs (c : Tci) : List (BitVec 10) :=
  (List.range (fld (c.w 5) 0 7)).map fun j => BitVec.ofNat 10 (fld (c.w (6 + j / 2)) (16 * (j % 2)) 10)

/-- Fields that the kind and scope do not use are zero, and a LIST is well formed. -/
def commitForm (c : Tci) : Bool :=
  let w1 := c.w 1
  let kind := fld w1 4 2
  let scope := fld w1 8 2
  let n := fld (c.w 5) 0 7
  let pairs := (List.range ((n + 1) / 2)).map fun j => c.w (6 + j)
  w1 &&& ~~~(0xFF3FF337 : Word) == 0 &&
    (if kind = 2 then (scope == 3 || fld w1 24 8 == 0) && (scope == 1 || fld w1 12 10 == 0) else fld w1 8 24 == 0) &&
    (kind == 0 || fld (c.w 3) 16 8 == 0) &&
    (kind != 2 || scope != 2 ||
      (decide (1 ≤ n) && decide (n ≤ 64) && fld (c.w 5) 7 25 == 0 && pairs.all (fun w => w &&& ~~~(0x03FF03FF : Word) == 0) &&
        (n % 2 == 0 || fld (c.w (6 + n / 2)) 16 16 == 0)))

/-- The scope that a DISTRIBUTED commit names. -/
def commitScope (c : Tci) : Scope :=
  match fld (c.w 1) 8 2 with
  | 0 => .all
  | 1 => .subtree (BitVec.ofNat 10 (fld (c.w 1) 12 10))
  | 2 => .list (listAddrs c)
  | _ => .group (BitVec.ofNat 8 (fld (c.w 1) 24 8))

/-- Another slot holds the XID (R229). -/
def Dev.xidHeld (d : Dev) (t : Nat) (xid : Word) : Bool :=
  (List.range 8).any fun u => u != t && decide (2 ≤ (d.slot u).kind) && (d.slot u).xid == xid && match (d.slot u).st with
    | .preparing => true | .ready => true | .voted => true | .committed => true
    | .free => false | .opened => false | .applied => false | .aborted => false | .outstep => false

/-- TXN_COMMIT. -/
def txnCommit (c : Tci) (o : Owner) (d : Dev) : Dev :=
  let w1 := c.w 1
  let kind := fld w1 4 2
  let t := fld w1 0 3
  let x := d.slot t
  let dNs := delivNs x.acts.length
  let tgt : Target := { epoch := BitVec.ofNat 8 (fld (c.w 3) 24 8), gci := BitVec.ofNat 48 ((c.w 2).toNat + at' 32 (fld (c.w 3) 0 16)) }
  let st := d.targetStatus tgt
  let s := commitScope c
  let xid := c.w 4
  let y := { x with kind := kind, target := tgt, dNs := dNs, owner := some o }
  if !commitForm c then d.answer o .badOperand
  else if x.st ≠ .opened then d.answer o .busy
  else if kind = 0 then
    let g := d.time.gci + BitVec.ofNat 48 (d.boundariesFor dNs)
    (d.setSlot t { y with target := { epoch := d.time.epoch, gci := g } }).acceptLocal t
  else if st ≠ .ok then d.answer o st
  else if kind = 1 then
    if d.beatsTo tgt < d.beatsOf dNs then d.answer o .late else (d.setSlot t y).acceptLocal t
  else if kind = 2 && decide (d.beatsTo tgt < d.beatsOfPs (2 * d.scopeLat (d.resolve s) + 1000000)) then d.answer o .late
  else if d.xidHeld t xid then d.answer o .busy
  else if kind = 3 then (d.setSlot t { y with st := .ready, xid := xid, owner := none }).answer o .ok
  else match d.scopeStatus s with
    | .ok => (d.setSlot t { y with xid := xid }).startDist t s
    | st => d.answer o st

/-- TXN_QUERY. -/
def txnQuery (c : Tci) (o : Owner) (d : Dev) : Dev :=
  let t := fld (c.w 1) 0 3
  d.complete o .ok ((txnRead d (0x040 + 0x20 * t)).getD 0) (word (d.slot t).detail)

/-! ## Meanings -/

/-- TXN_OPEN. -/
def execTxnOpen (c : Tci) (s : State) : Host.Outcome State Fault Refusal := s.onDev (runTci 0x60 c txnOpen)
/-- TXN_STAGE. -/
def execTxnStage (c : Tci) (s : State) : Host.Outcome State Fault Refusal := s.onDev (runTci 0x61 c (txnStage c))
/-- TXN_COMMIT. -/
def execTxnCommit (c : Tci) (s : State) : Host.Outcome State Fault Refusal :=
  s.onDev fun otp d => (runTci 0x62 c (txnCommit c) otp d).inject otp
/-- TXN_ABORT. -/
def execTxnAbort (c : Tci) (s : State) : Host.Outcome State Fault Refusal :=
  s.onDev fun otp d => (runTci 0x63 c (txnAbort c) otp d).inject otp
/-- TXN_RELEASE. -/
def execTxnRelease (c : Tci) (s : State) : Host.Outcome State Fault Refusal := s.onDev (runTci 0x64 c (txnRelease c))
/-- TXN_QUERY. -/
def execTxnQuery (c : Tci) (s : State) : Host.Outcome State Fault Refusal := s.onDev (runTci 0x65 c (txnQuery c))
/-- TXN_CLEAR_OOS. -/
def execTxnClearOos (c : Tci) (s : State) : Host.Outcome State Fault Refusal := s.onDev (runTci 0x66 c txnClearOos)
/-- DELIVERY_START: slot `t`. -/
def execDeliveryStart (t : Fin 8) (s : State) : Host.Outcome State Fault Refusal := s.onDev fun _ d => deliveryStart t d
/-- DELIVERY_DONE: slot `t`. -/
def execDeliveryDone (t : Fin 8) (s : State) : Host.Outcome State Fault Refusal := s.onDev fun _ d => deliveryDone t d
/-- VOTE_TIMEOUT: slot `t`. -/
def execVoteTimeout (t : Fin 8) (s : State) : Host.Outcome State Fault Refusal :=
  s.onDev fun otp d => (voteTimeout t d).inject otp
/-- COORDINATOR_LATE: slot `t`. -/
def execCoordinatorLate (t : Fin 8) (s : State) : Host.Outcome State Fault Refusal :=
  s.onDev fun otp d => (coordinatorLate t d).inject otp
/-- FENCE_COMPLETE: domain `n`. -/
def execFenceComplete (n : Fin 40) (s : State) : Host.Outcome State Fault Refusal :=
  s.onDev fun otp d => (fenceComplete n d).inject otp
/-- DRAIN_TIMEOUT: domain `n`. -/
def execDrainTimeout (n : Fin 40) (s : State) : Host.Outcome State Fault Refusal :=
  s.onDev fun otp d => (drainTimeout n d).inject otp

end Sys2Proof.Machine
end

