-- ==== Sys2Proof/Machine/Byith.lean ====
section
/-! DEFINITION. The Byith link (11_byith_link.md): training and joining, markers and alignment, the directory, transaction
frames, summaries and forwarded events, acknowledgement, and the BYT commands. -/

namespace Sys2Proof.Machine

/-! ## Frames that arrive (R240 to R243) -/

/-- Port `p` takes a frame in: a training port only HELLO and the ACK of its own, a BLOCKED one only ACK and HOP DISC frames (R244). -/
def Dev.hears (d : Dev) (p : Nat) (f : Frame) : Bool :=
  d.domOn pdBy && match (d.port p).role with
    | .upstream => true
    | .downstream => true
    | .blocked => msgAck f.msg || (msgDisc f.msg && f.dir == .hop)
    | .training => (d.port p).stage == 3 && (msgHello f.msg || msgAck f.msg)
    | .down => false

/-- The ACK of a frame: DIR HOP and the same SEQ (R242). -/
def Dev.sendAck (d : Dev) (p : Nat) (f : Frame) : Dev :=
  { d with byt := { d.byt with sent := d.byt.sent ++ [(p, { src := BitVec.ofNat 10 d.ownAddr, seq := f.seq, msg := .ack })] } }

/-- A frame reaches port `p`: it is acknowledged where its TYPE asks for it, and acts. -/
def Dev.recv (d : Dev) (p : Nat) (f : Frame) (act : Dev → Dev) : Dev :=
  if !d.hears p f then d
  else act (if msgAcked f.msg then d.sendAck p f else d)

/-- The frame is this device's own, come back by the root's broadcast. -/
def Dev.ownBack (d : Dev) (f : Frame) : Bool :=
  f.src.toNat == d.ownAddr && (d.ownAddr != 0 || decide (d.time.role = .root))

/-- A frame that goes UP acts on the root and is passed on by every other device. -/
def Dev.climb (d : Dev) (f : Frame) (act : Dev → Dev) : Dev := if d.time.role = .root then act d else d.putUp f

/-! ## Epochs (R45) -/

/-- Schedule items that the count can no longer reach in the current epoch are cancelled: commits abort with LATE, and
WAITGs are refused with LATE. -/
def Dev.cancelLate (d : Dev) (gone : Target → Bool) : Dev :=
  let ts := (List.range 8).filter fun t => (match (d.slot t).st with
    | .preparing => true | .ready => true | .voted => true | .committed => true
    | .free => false | .opened => false | .applied => false | .aborted => false | .outstep => false) && gone (d.slot t).target
  let d := ts.foldl (fun d t => d.abortSlot t .late 0) d
  let ns := (List.range 64).filter fun n =>
    decide ((d.engine n).st = .wait) && !(d.engine n).waitg.refused && gone (d.engine n).waitg.target
  ns.foldl (fun d n => d.refuseWait n .late) d

/-- The first beat of a new epoch: what names another epoch is cancelled, and EV158 fires. -/
def Dev.enterEpoch (d : Dev) : Dev :=
  let e := d.time.epoch
  let d := ({ d with byt := { d.byt with newEpoch := true } }).cancelLate fun t => t.epoch != e
  d.fire 158 (payload .ok 1 e.toNat)

/-! ## Training and joining (R244, R245, R247 to R249) -/

/-- HELLO on port `p`: an address is given once the device holds one. -/
def Dev.sayHello (d : Dev) (p : Nat) : Dev :=
  let root := decide (d.time.role = .root)
  let holds := root || decide (d.byt.jstate = .joined)
  let free := 4 - d.downPorts.length - (if d.byt.upPort.isSome then 1 else 0)
  d.put p (d.ownFrame .hop 0 (.hello d.byt.uid (if holds then some (BitVec.ofNat 10 d.ownAddr) else none)
    (BitVec.ofNat 4 d.byt.depth) root (BitVec.ofNat 2 (min free 3))))

/-- JOIN_REQ: the latency that it carries is completed by the parent, which knows its own (DESIGN CHOICE). -/
def Dev.sayJoin (d : Dev) : Dev :=
  match d.byt.upPort with
  | none => d
  | some q =>
    let x := d.port q
    d.sayUp (.joinReq d.byt.uid (BitVec.ofNat 10 x.partner) (BitVec.ofNat 5 (x.partnerDepth + 1)) (BitVec.ofNat 20 x.latPs))

/-- EV144 + p: the port is up. -/
def Dev.portUp (d : Dev) (p : Nat) : Dev :=
  (d.updPort p fun x => { x with stage := 0 }).fire (144 + p) (payload .ok 1 (d.port p).partner)

/-- The port is BLOCKED (R244) with the reason of Table 11-6. -/
def Dev.portBlocked (d : Dev) (p reason : Nat) : Dev :=
  let d := (d.updPort p fun x => { x with role := .blocked }).fire (152 + p) (payload .refused reason (d.port p).partner)
  d.portUp p

/-- The role of a port that has exchanged HELLO (R244). -/
def Dev.chooseRole (d : Dev) (p : Nat) : Dev :=
  let x := d.port p
  let down (st : Nat) : Dev := d.updPort p fun x => { x with role := .downstream, stage := st }
  match d.time.role with
  | .undetermined => d
  | .root =>
    if x.partnerRoot then d.portBlocked p 3
    else if x.partnerHolds then d.portBlocked p 2
    else down 4
  | .downstream =>
    if !x.partnerHolds then (down 0).portUp p
    else if d.byt.upPort.isNone && decide (x.fix.getD p = p) then
      let d := d.updPort p fun x => { x with role := .upstream, stage := 4, echoCount := 0, echoSum := 0 }
      { d with byt := { d.byt with upPort := some p, depth := x.partnerDepth + 1, jstate := .training } }
    else d.portBlocked p 2

/-- The training stage that port `p` is in: a port that is down and enabled is about to train. -/
def Dev.portStage (d : Dev) (p : Nat) : Nat :=
  let x := d.port p
  if x.role = .down && x.enabled && x.stage = 0 then 1 else x.stage

/-- TRAINING_STAGE_DONE: block lock, deskew, or the echoes of a port of the root (Table 11-5). -/
def stageDone (p : Nat) (d : Dev) : Dev :=
  let n := d.portStage p
  let go (k : Nat) : Dev :=
    let d := d.updPort p fun x => { x with role := .training, stage := k }
    { d with byt := { d.byt with jstate := if d.byt.jstate = .none then .training else d.byt.jstate } }
  if !d.domOn pdBy then d
  else if n = 1 then go 2
  else if n = 2 then (go 3).sayHello p
  else if n = 4 && (d.port p).role == .downstream then d.portUp p
  else d

/-- TRAINING_TIMEOUT: the port starts again from stage 1 (R247). -/
def stageTimeout (p : Nat) (d : Dev) : Dev :=
  let x := d.port p
  if x.stage = 0 then d
  else
    let d := (d.trainPort p).updPort p fun y => { y with retrain := satAdd 65535 y.retrain 1 }
    if decide (d.byt.upPort = some p) then { d with byt := { d.byt with upPort := none, depth := 0 } } else d

/-- HELLO (R244): in stage 3 it ends the exchange and the role is chosen; later it tells of an address that the partner
has come to hold (DEDUCED). -/
def byHello (p : Nat) (f : Frame) (d : Dev) : Dev :=
  match f.msg with
  | .hello uid addr depth root _ => d.recv p f fun d =>
    let fresh := decide ((d.port p).stage = 3)
    let d := d.updPort p fun x => { x with
      partner := (addr.getD 0).toNat, partnerHolds := addr.isSome, partnerRoot := root
      partnerDepth := depth.toNat, partnerUid := uid, hello := true }
    if fresh then d.chooseRole p
    else if d.time.role = .downstream && d.byt.upPort.isNone && (d.port p).role == .downstream && addr.isSome then d.chooseRole p
    else d
  | _ => d

/-- ECHO_SEND: one ECHO_REQ on the upstream port, with its transmit time. -/
def echoSend (t : DWord) (d : Dev) : Dev :=
  match d.byt.upPort with
  | some p => if d.domOn pdBy then d.put p (d.ownFrame .hop 0 (.echoReq t)) else d
  | none => d

/-- ECHO_REQ: the answer carries the turnaround, in 1/64 UI. -/
def byEchoReq (p : Nat) (f : Frame) (turn : BitVec 32) (d : Dev) : Dev :=
  match f.msg with
  | .echoReq t => d.recv p f fun d => d.put p (d.ownFrame .hop 0 (.echoRsp t turn))
  | _ => d

/-- A new mean of 256 echoes (R248): the first ends training and asks to join, a later one that differs applies at the
next marker. -/
def Dev.echoMean (d : Dev) (p : Nat) (mean : Nat) : Dev :=
  let x := d.port p
  if x.stage = 4 then
    let d := (d.updPort p fun x => { x with latValid := true, latPs := mean }).portUp p
    ({ d with byt := { d.byt with jstate := .joining } }).sayJoin
  else if mean = x.latPs then d else d.updPort p fun x => { x with latNew := some mean }

/-- ECHO_RSP with the round-trip time in 1/64 UI (125/128 ps) (R248). -/
def byEchoRsp (p : Nat) (f : Frame) (rtt : BitVec 32) (d : Dev) : Dev :=
  match f.msg with
  | .echoRsp _ turn => d.recv p f fun d =>
    if d.byt.upPort ≠ some p then d
    else
      let x := d.port p
      let v : Int := 125 * ((rtt.toNat : Int) - (turn.toNat : Int)) + 32 * x.asym.toInt
      let sum := x.echoSum + v
      if x.echoCount < 255 then d.updPort p fun x => { x with echoCount := x.echoCount + 1, echoSum := sum }
      else (d.updPort p fun x => { x with echoCount := 0, echoSum := 0 }).echoMean p (roundDiv sum 65536).toNat
  | _ => d

/-- The address that the root gives to a UID (R245): the one it holds (DESIGN CHOICE), the free one that it last held, or
the lowest free one. -/
def Dev.freeAddr (d : Dev) (uid : DWord) : Option Nat :=
  let l := (List.range 1024).filter (· ≠ 0)
  match l.find? fun a => (d.dirEnt a).present && (d.dirEnt a).uid == uid with
  | some a => some a
  | none => match d.byt.dir.find? fun e => !e.2.present && e.2.uid == uid && e.1 != 0 with
    | some e => some e.1
    | none => l.find? fun a => !(d.dirEnt a).present

/-- Send JOIN_ACK or JOIN_REFUSE towards the parent of the requester, which hands it on by the UID. -/
def Dev.sayParent (d : Dev) (parent : Nat) (uid : DWord) (m : ByMsg) : Dev :=
  if parent = d.ownAddr then
    match d.downPorts.find? fun p => (d.port p).partnerUid == uid with
    | some p =>
      let d := match m with
        | .joinAck _ a => d.updPort p fun x => { x with partner := a.toNat, partnerHolds := true }
        | _ => d
      d.put p (d.ownFrame .hop 0 m)
    | none => d
  else d.sayTo parent m

/-- JOIN_REQ (R245): the root answers; the parent adds its own latency on the way. -/
def byJoinReq (p : Nat) (f : Frame) (d : Dev) : Dev :=
  match f.msg with
  | .joinReq uid parent depth lat => d.recv p f fun d =>
    if d.time.role ≠ .root then
      let lat' := if parent.toNat = d.ownAddr then lat + BitVec.ofNat 20 (d.dirEnt d.ownAddr).latPs else lat
      d.putUp { f with msg := .joinReq uid parent depth lat' }
    else
      match (if 12 < depth.toNat || !d.tpllsLocked then none else d.freeAddr uid) with
      | none => d.sayParent parent.toNat uid (.joinRefuse uid .refused)
      | some a =>
        let d := d.updDir a fun _ =>
          { present := true, depth := depth.toNat, parent := parent.toNat, latPs := lat.toNat, uid := uid }
        let d := d.sayParent parent.toNat uid (.joinAck uid (BitVec.ofNat 10 a))
        d.sayTopo (d.byt.dir.filterMap fun e => if e.2.present then some e.1 else none) false
  | _ => d

/-- JOIN_ACK (R249): the device holds its address, and the next marker loads its count. -/
def byJoinAck (p : Nat) (f : Frame) (d : Dev) : Dev :=
  match f.msg with
  | .joinAck uid a => d.recv p f fun d =>
    if f.dir = .down && f.dst.toNat ≠ d.ownAddr then d.putDown f
    else if f.dir = .down then d.sayParent d.ownAddr uid f.msg
    else if d.byt.upPort = some p && uid = d.byt.uid && d.time.role = .downstream && d.byt.jstate ≠ .joined then
      let d := { d with byt := { d.byt with addr := a.toNat, jstate := .joined, loadNext := true, good := 0, missing := 0 } }
      let ports := (List.range 4).filter fun q => (d.port q).role == .downstream || (d.port q).role == .upstream
      (ports.foldl Dev.sayHello d).fire 156 (payload .ok 1 a.toNat)
    else d
  | _ => d

/-- JOIN_REFUSE (R245). -/
def byJoinRefuse (p : Nat) (f : Frame) (d : Dev) : Dev :=
  match f.msg with
  | .joinRefuse uid st => d.recv p f fun d =>
    if f.dir = .down && f.dst.toNat ≠ d.ownAddr then d.putDown f
    else if f.dir = .down then d.sayParent d.ownAddr uid (.joinRefuse uid st)
    else if d.byt.upPort = some p && uid = d.byt.uid && d.byt.jstate = .joining then
      ({ d with byt := { d.byt with jstate := .refused } }).fire (152 + p) (payload .refused 4 (d.port p).partner)
    else d
  | _ => d

/-- JOIN_RETRY: a refused device asks again (R245). -/
def joinRetry (d : Dev) : Dev :=
  if d.byt.jstate = .refused then ({ d with byt := { d.byt with jstate := .joining } }).sayJoin else d

/-! ## Markers (R43, R250 to R254) -/

/-- NOTREADY: the device is no longer aligned (R253, R254, R258). -/
def Dev.notReady (d : Dev) (reason : Nat) : Dev :=
  ({ d with byt := { d.byt with eligible := false } }).sayUp
    (.notReady (BitVec.ofNat 10 d.ownAddr) (BitVec.ofNat 8 reason))

/-- The SUMMARY of this device (Table 11-9) for the marker of GCI `g`. -/
def Dev.summaryWord (d : Dev) (g : Nat) : QWord :=
  let comp := (ofBits 8 ((List.range 8).filter fun k => (d.collector k).compact)).toNat
  let stopped := ((List.range 64).filter fun n => decide ((d.engine n).st = .stopped)).length
  BitVec.ofNat 128 (d.byt.failMask.toNat +
    at' 64 (at' 24 comp + flag 23 true + at' 16 stopped + d.byt.sumSeq.toNat) + at' 96 (g % 2 ^ 32))

/-- A summary goes up, or into the root's own table (R260); without an upstream port none is sent, and the fail bits wait. -/
def Dev.summarySend (d : Dev) (g : Nat) : Dev :=
  let w := d.summaryWord g
  let next := { d with byt := { d.byt with failMask := 0, sumSeq := d.byt.sumSeq + 1 } }
  if d.time.role = .root then
    { next with byt := { next.byt with sumTab := Store.put (fun _ => (0 : QWord)) d.byt.sumTab d.ownAddr w } }
  else if d.byt.upPort.isSome then next.sayUp (.summary w)
  else d

/-- At an announcement the root marks the ready devices, itself among them, eligible (R254). -/
def Dev.announce (d : Dev) : Dev :=
  let d := if d.byt.aligned then d.updDir 0 fun e => { e with ready := true } else d
  let l := d.byt.dir.filterMap fun e => if e.2.present && e.2.ready && !e.2.eligible then some e.1 else none
  let d := l.foldl (fun d a => d.updDir a fun e => { e with eligible := true }) d
  let own := (d.dirEnt 0).eligible
  let d := if own && !d.byt.eligible then
      ({ d with byt := { d.byt with eligible := true } }).fire 156 (payload .ok 3 0)
    else d
  d.sayTopo l true

/-- The beat is locked, holdover included: every TPLL that the mode uses locks to it (R250, R256). -/
def Dev.beatLocked (d : Dev) : Bool :=
  (List.range 4).all fun i => !modeUsesTpll d.mode.mode i || decide ((d.loop i).state = .locked) ||
    decide ((d.loop i).state = .holdover)

/-- MARK_SEND: the device marks its last beat whose GCI is a multiple of 256, with the measured OFFSET (R250, Table 11-4). -/
def markSend (offset : BitVec 16) (d : Dev) : Dev :=
  let g := d.time.gci.toNat - d.time.gci.toNat % 256
  if !d.time.started || !d.beatLocked || !d.domOn pdBy then d
  else
    let announce := g % 65536 == 0 || d.byt.newEpoch
    let hold := d.byt.hold || d.tpllHoldover || (d.time.role == .downstream && d.byt.upPort.isNone)
    let (rld, at_, new) := match d.time.reload with
      | some r => (true, r.target, r.newGci)
      | none => (d.time.autoAnnounced, 0, 0)
    let m : Mark :=
      { epoch := d.time.epoch, announce := announce, hold := hold, rld := rld, auto := d.time.autoAnnounced
        gci := BitVec.ofNat 48 g, offset := offset, rldGci := at_, newGci := new }
    let d := d.downPorts.foldl (fun d p => d.put p (d.ownFrame .hop 0 (.mark m))) d
    let d := { d with byt := { d.byt with newEpoch := false } }
    let d := if announce && d.time.role == .root then d.announce else d
    let intv := d.byt.sumIntv.toNat
    if intv ≠ 0 && g / 256 % intv = 0 then d.summarySend g else d

/-- The (EPOCH, GCI) that a marker gives for the beat `k` beats after the marked one. -/
def markCount (m : Mark) (k : Nat) : BitVec 8 × BitVec 48 :=
  let left := (m.rldGci - m.gci).toNat
  if m.rld && 0 < left && left ≤ k then (m.epoch + 1, m.newGci + BitVec.ofNat 48 (k - left))
  else (m.epoch, m.gci + BitVec.ofNat 48 k)

/-- The pending reload that a marker still carries `k` beats after its beat. -/
def markReload (m : Mark) (k : Nat) : Option Reload × Bool :=
  let left := (m.rldGci - m.gci).toNat
  if !m.rld || (0 < left && left ≤ k) then (none, false)
  else (if m.rldGci = 0 then none else some { target := m.rldGci, newGci := m.newGci }, m.auto)

/-- The device takes over a marker's count and reload (R251, R258); what the new count has passed is cancelled
(DESIGN CHOICE). -/
def Dev.loadCount (d : Dev) (m : Mark) (k : Nat) (near : Bool) : Dev :=
  let c := markCount m k
  let r := markReload m k
  let old := d.time.epoch
  let was := d.time.started
  let d := { d with
    time := { d.time with epoch := c.1, gci := c.2, reload := r.1, autoAnnounced := r.2, started := true }
    byt := { d.byt with loadNext := false, good := b2n near } }
  let d := if was && decide (old ≠ c.1) then d.enterEpoch else d
  d.cancelLate fun t => t.epoch != c.1 || decide (t.gci.toNat ≤ c.2.toNat)

/-- The count of an aligned device differs from a marker's: OUT_OF_STEP (R43, R253). -/
def Dev.mismatch (d : Dev) (epoch : BitVec 8) : Dev :=
  if d.txn.oosBeat then d
  else
    let d := { d with txn := { d.txn with oosBeat := true, oosSrcBeat := true, oosXid := 0, oosSlot := 0 } }
    let d := d.requestStops ((List.range 64).filter fun n => (d.engine n).st.moving) 3 .async
    (d.notReady 3).fire 159 (payload .outOfStep 1 epoch.toNat)

/-- The device is aligned (R251, R258). -/
def Dev.align (d : Dev) : Dev :=
  let d := { d with
    time := { d.time with shown := true }
    byt := { d.byt with aligned := true, realigning := false }
    txn := if d.byt.realigning then { d.txn with oosBeat := false, oosSrcBeat := false } else d.txn }
  (d.sayUp (.ready (BitVec.ofNat 10 d.ownAddr))).fire 156 (payload .ok 2 d.ownAddr)

/-- How long before the START's arrival the marked edge lies, in 1/128 ps: OFFSET, in 1/64 UI of 125/128 ps, and the hop
latency (R251). -/
def Dev.edgeBack (d : Dev) (p : Nat) (m : Mark) : Nat := 125 * m.offset.toNat + 128 * (d.port p).latPs

/-- The beats from the placed edge to the recovered beat's last edge, and whether the placed edge lies within ±5 ps of an
edge of the recovered beat (R251). `arr` is the time from that last edge to the START's arrival, in 1/64 UI; all in units
of 1/128 ps. -/
def Dev.placeEdge (d : Dev) (p : Nat) (m : Mark) (arr : BitVec 32) : Nat × Bool :=
  let per : Nat := if d.time.period = 0 then 10000000 else d.time.period.toNat
  let unit : Int := ((128 * per : Nat) : Int)
  let back : Int := 1000 * (((d.edgeBack p m : Nat) : Int) - ((125 * arr.toNat : Nat) : Int))
  let k : Int := (2 * back + unit) / (2 * unit)
  let err : Int := back - k * unit
  (k.toNat, decide (-640000 ≤ err) && decide (err ≤ 640000))

/-- MARK: the BEAT frame's START arrives `arr` after the last edge of the recovered beat, in 1/64 UI. -/
def byMark (p : Nat) (f : Frame) (arr : BitVec 32) (d : Dev) : Dev :=
  match f.msg with
  | .mark m => d.recv p f fun d =>
    if d.byt.upPort ≠ some p || d.time.role ≠ .downstream then d
    else
      let d := d.updPort p fun x => { x with latPs := x.latNew.getD x.latPs, latNew := none }
      let place := d.placeEdge p m arr
      let k := place.1
      let near := place.2
      let d := { d with byt := { d.byt with missing := 0 } }
      if m.hold then
        let was := d.byt.aligned
        let d := { d with byt := { d.byt with aligned := false, hold := true, good := 0 } }
        if was then d.notReady 2 else d
      else if d.byt.hold then
        let d := { d with byt := { d.byt with hold := false, jstate := if d.byt.jstate = .joined then .joining else d.byt.jstate } }
        if d.byt.jstate = .joining then d.sayJoin else d
      else if d.byt.loadNext then d.loadCount m k near
      else if !d.time.started then d
      else
        let r := markReload m k
        let same := decide (markCount m k = (d.time.epoch, d.time.gci)) &&
          (decide (d.time.reload = r.1) || (d.time.reload.isNone && r.1.isSome)) &&
          (d.time.autoAnnounced == r.2 || !d.time.autoAnnounced)
        if !same then
          if d.byt.aligned then d.mismatch m.epoch else { d with byt := { d.byt with good := 0 } }
        else
          let d := { d with time := { d.time with reload := r.1, autoAnnounced := r.2 } }
          if d.byt.aligned then d
          else
            let good := if near then d.byt.good + 1 else 0
            let d := { d with byt := { d.byt with good := good } }
            if 16 ≤ good && d.byt.jstate = .joined then d.align else d
  | _ => d

/-- MARK_MISSING: the fourth marker missing in a row clears ALIGNED (R253). -/
def markMissing (d : Dev) : Dev :=
  if d.byt.upPort.isNone || d.time.role ≠ .downstream then d
  else
    let n := d.byt.missing + 1
    let d := { d with byt := { d.byt with missing := min n 4, good := 0 } }
    if 4 ≤ n && d.byt.aligned then ({ d with byt := { d.byt with aligned := false } }).notReady 1 else d

/-! ## Directory frames (R246, R254, R255) -/

/-- READY reaches the root. -/
def byReady (p : Nat) (f : Frame) (d : Dev) : Dev :=
  match f.msg with
  | .ready a => d.recv p f fun d => d.climb f fun d =>
    if (d.dirEnt a.toNat).present then d.updDir a.toNat fun e => { e with ready := true } else d
  | _ => d

/-- NOTREADY reaches the root. -/
def byNotReady (p : Nat) (f : Frame) (d : Dev) : Dev :=
  match f.msg with
  | .notReady a _ => d.recv p f fun d => d.climb f fun d =>
    let was := (d.dirEnt a.toNat).eligible
    let d := d.updDir a.toNat fun e => { e with ready := false, eligible := false }
    if was then d.sayTopo [a.toNat] false else d
  | _ => d

/-- The root loses the subtree of `a`. -/
def Dev.removed (d : Dev) (a : Nat) : Dev :=
  let l := d.subtree a
  (d.dirRemove a).departed l

/-- LEAVE reaches the root (R255). -/
def byLeave (p : Nat) (f : Frame) (d : Dev) : Dev :=
  match f.msg with
  | .leave a => d.recv p f fun d => d.climb f fun d => d.removed a.toNat
  | _ => d

/-- An entry of a TOPO frame enters the directory. -/
def Dev.takeEnt (d : Dev) (e : TopoEnt) : Dev :=
  let d := d.updDir e.addr.toNat fun x =>
    { x with present := e.present, eligible := e.eligible, depth := e.depth.toNat, parent := e.parent.toNat, latPs := e.latPs.toNat }
  if e.addr.toNat = d.ownAddr && d.byt.jstate = .joined then
    let new := e.eligible && !d.byt.eligible
    let d := { d with byt := { d.byt with eligible := e.present && e.eligible } }
    if new then d.fire 156 (payload .ok 3 d.ownAddr) else d
  else d

/-- TOPO (R246): the directory follows, EV157 fires for the top of a departed subtree, and the frame goes on below. -/
def byTopo (p : Nat) (f : Frame) (d : Dev) : Dev :=
  match f.msg with
  | .topo l _ => d.recv p f fun d =>
    let gone := (l.filter fun e => !e.present && (d.dirEnt e.addr.toNat).present).map fun e => (e.addr.toNat, e.parent.toNat)
    let d := l.foldl Dev.takeEnt d
    let tops := gone.filter fun x => x.2 == 0 || (d.dirEnt x.2).present
    let d := tops.foldl (fun d x => d.fire 157 (payload .notPresent 1 x.1)) d
    (d.putBelow f).departed (gone.map (·.1))
  | _ => d

/-! ## Ports that fail (R241, R242, R255) -/

/-- Port `p` is lost with a reason: on the root a subtree departs. -/
def Dev.portLost (d : Dev) (p reason : Nat) : Dev :=
  let x := d.port p
  let gone := if d.time.role = .root && x.role = .downstream && x.partnerHolds then d.subtree x.partner else []
  (d.portDown p reason).departed gone

/-- PORT_DOWN. -/
def portDownRow (p : Nat) (d : Dev) : Dev :=
  match (d.port p).role with
  | .down => d
  | .training => d
  | .upstream => d.portLost p 1
  | .downstream => d.portLost p 1
  | .blocked => d.portLost p 1

/-- ACK of the frame with its SEQ. -/
def byAck (p : Nat) (f : Frame) (d : Dev) : Dev :=
  match f.msg with
  | .ack => d.recv p f fun d => d.updPort p fun x => { x with unacked := x.unacked.filter fun t => t.frame.seq != f.seq }
  | _ => d

/-- ACK_TIMEOUT: the frame is sent again, and after the fourth resend the port is down with RETRY_FAIL. -/
def ackTimeout (p : Nat) (seq : BitVec 8) (d : Dev) : Dev :=
  let x := d.port p
  match x.unacked.find? fun t => t.frame.seq == seq with
  | none => d
  | some t =>
    if t.resends < 4 then
      let d := d.updPort p fun y => { y with
        unacked := y.unacked.map fun u => if u.frame.seq == seq then { u with resends := u.resends + 1 } else u }
      { d with byt := { d.byt with sent := d.byt.sent ++ [(p, t.frame)] } }
    else d.portLost p 2

/-- One dropped frame of port `p`: the 16th within 1 ms raises EV152, at most once per ms (R261). -/
def Dev.dropFrame (p : Nat) (d : Dev) : Dev :=
  let x := d.port p
  let now := d.time.ticks
  let ms := d.beatsOf 1000000
  let drops := (now :: x.drops).take 16
  let due := decide (drops.length = 16) && decide (now < drops.getD 15 0 + ms) &&
    (match x.dropEv with | some t => decide (t + ms ≤ now) | none => true)
  let frames := satAdd 65535 x.frames 1
  let d := d.updPort p fun y => { y with frames := frames, drops := drops, dropEv := if due then some now else y.dropEv }
  if due then d.fire (152 + p) (payload .streamError 1 frames) else d

/-- BAD_FRAME: what port `p` has received holds frames that it drops and control blocks that it ignores; each counts in
BYT_PORT_ERR (R241, Tables 11-1 and 11-14). -/
def badFrame (p : Nat) (x : Received) (d : Dev) : Dev :=
  if (d.port p).role = .down then d
  else times (receivedBad x).1 (fun _ d => d.dropFrame p) (d.updPort p fun y => { y with frames := satAdd 65535 y.frames (receivedBad x).2 })

/-! ## CTRL frames (R229 to R233) -/

/-- A PREPARE or DECISION travels along its scope (R243), and acts on the devices that it reaches but its sender. -/
def Dev.travel (d : Dev) (f : Frame) (s : Scope) (act : Dev → Dev) : Dev :=
  match f.dir with
  | .up => if d.time.role = .root then act (d.putBelow { f with dir := .bcast }) else d.putUp f
  | .down =>
    if f.dst.toNat ≠ d.ownAddr then d.putDown f
    else match s with
      | .subtree _ => act (d.putBelow { f with dir := .bcast, dst := 0 })
      | .all => act d
      | .list _ => act d
      | .group _ => act d
  | .bcast => if d.ownBack f then d.putBelow f else act (d.putBelow f)
  | .hop => d

/-- PREPARE. -/
def byPrepare (p : Nat) (f : Frame) (d : Dev) : Dev :=
  match f.msg with
  | .prepare xid epoch gci s => d.recv p f fun d => d.travel f s fun d =>
    d.prepareArrives xid { epoch := epoch, gci := gci } s
  | _ => d

/-- DECISION. -/
def byDecision (p : Nat) (f : Frame) (d : Dev) : Dev :=
  match f.msg with
  | .decision xid commit cause detail s => d.recv p f fun d => d.travel f s fun d =>
    d.decisionArrives xid commit cause detail.toNat
  | _ => d

/-- VOTE: it goes UP to a coordinator that is the root and DOWN to any other. -/
def byVote (p : Nat) (f : Frame) (d : Dev) : Dev :=
  match f.msg with
  | .vote xid yes st dNs => d.recv p f fun d =>
    let act (d : Dev) : Dev := d.voteArrives f.src.toNat xid yes st dNs.toNat
    match f.dir with
    | .up => d.climb f act
    | .down => if f.dst.toNat = d.ownAddr then act d else d.putDown f
    | .bcast => d
    | .hop => d
  | _ => d

/-! ## DATA frames (R260) -/

/-- SUMMARY. -/
def bySummary (p : Nat) (f : Frame) (d : Dev) : Dev :=
  match f.msg with
  | .summary w => d.recv p f fun d => d.climb f fun d =>
    { d with byt := { d.byt with sumTab := Store.put (fun _ => (0 : QWord)) d.byt.sumTab f.src.toNat w } }
  | _ => d

/-- EVENT. -/
def byEvent (p : Nat) (f : Frame) (d : Dev) : Dev :=
  match f.msg with
  | .event w => d.recv p f fun d => d.climb f fun d => d.forwardEvent w
  | _ => d

/-! ## Commands (Table 11-7) -/

/-- BYT_EPOCH_RELOAD (R42, R44, R46). -/
def bytEpochReload (c : Tci) (o : Owner) (d : Dev) : Dev :=
  let g := BitVec.ofNat 48 ((c.w 1).toNat + at' 32 (fld (c.w 2) 0 16))
  let new := BitVec.ofNat 48 ((c.w 3).toNat + at' 32 (fld (c.w 4) 0 16))
  let t : Target := { epoch := d.time.epoch, gci := g }
  if d.time.role ≠ .root then d.answer o .refused
  else if d.time.reload.isSome || d.time.autoAnnounced then d.answer o .busy
  else if d.targetStatus t ≠ .ok || d.beatsTo t < d.beatsOfPs (2 * d.treeLat + 1000000) then d.answer o .late
  else ({ d with time := { d.time with reload := some { target := g, newGci := new } } }).answer o .ok

/-- BYT_REALIGN (R258). -/
def bytRealign (o : Owner) (d : Dev) : Dev :=
  if !d.txn.oosBeat then d.answer o .ok
  else if !d.allHalted then d.answer o .busy
  else
    let d := { d with
      time := { d.time with started := false, shown := false, reload := none, autoAnnounced := false }
      byt := { d.byt with aligned := false, loadNext := true, realigning := true, good := 0 } }
    (d.notReady 4).answer o .ok

/-- BYT_PORT_CTL. -/
def bytPortCtl (c : Tci) (o : Owner) (d : Dev) : Dev :=
  let p := fld (c.w 1) 0 2
  let x := d.port p
  match fld (c.w 1) 2 2 with
  | 0 =>
    let d := if x.enabled then d else (d.updPort p fun y => { y with enabled := true }).trainPort p
    d.answer o .ok
  | 1 =>
    let d := (d.updPort p fun y => { y with enabled := false }).portLost p 1
    d.answer o .ok
  | 2 => (if x.enabled then d.portLost p 1 else d).answer o .ok
  | _ => d.answer o .badOperand

/-! ## Meanings -/

/-- A row of the link: what it makes the device send leaves in the order of R243. -/
def State.onLink (s : State) (f : Otp → Dev → Dev) : Host.Outcome State Fault Refusal := s.onDev fun o d => d.inRank (f o d)

/-- MARK: the frame, and when its START arrives after the last edge of the recovered beat. -/
def execMark (p : Fin 4) (f : Frame) (arr : BitVec 32) (s : State) : Host.Outcome State Fault Refusal :=
  s.onDev fun otp d => (byMark p f arr d).inject otp
/-- MARK_SEND with the measured OFFSET. -/
def execMarkSend (offset : BitVec 16) (s : State) : Host.Outcome State Fault Refusal := s.onLink fun _ d => markSend offset d
/-- MARK_MISSING. -/
def execMarkMissing (s : State) : Host.Outcome State Fault Refusal := s.onLink fun _ d => markMissing d
/-- PREPARE. -/
def execPrepare (p : Fin 4) (f : Frame) (s : State) : Host.Outcome State Fault Refusal :=
  s.onDev fun otp d => (byPrepare p f d).inject otp
/-- VOTE. -/
def execVote (p : Fin 4) (f : Frame) (s : State) : Host.Outcome State Fault Refusal :=
  s.onDev fun otp d => (byVote p f d).inject otp
/-- DECISION. -/
def execDecision (p : Fin 4) (f : Frame) (s : State) : Host.Outcome State Fault Refusal :=
  s.onDev fun otp d => (byDecision p f d).inject otp
/-- HELLO. -/
def execHello (p : Fin 4) (f : Frame) (s : State) : Host.Outcome State Fault Refusal := s.onLink fun _ d => byHello p f d
/-- ECHO_SEND with its transmit time. -/
def execEchoSend (t : DWord) (s : State) : Host.Outcome State Fault Refusal := s.onLink fun _ d => echoSend t d
/-- ECHO_REQ with the turnaround. -/
def execEchoReq (p : Fin 4) (f : Frame) (turn : BitVec 32) (s : State) : Host.Outcome State Fault Refusal :=
  s.onLink fun _ d => byEchoReq p f turn d
/-- ECHO_RSP with the round-trip time. -/
def execEchoRsp (p : Fin 4) (f : Frame) (rtt : BitVec 32) (s : State) : Host.Outcome State Fault Refusal :=
  s.onLink fun _ d => byEchoRsp p f rtt d
/-- JOIN_REQ. -/
def execJoinReq (p : Fin 4) (f : Frame) (s : State) : Host.Outcome State Fault Refusal := s.onLink fun _ d => byJoinReq p f d
/-- JOIN_ACK. -/
def execJoinAck (p : Fin 4) (f : Frame) (s : State) : Host.Outcome State Fault Refusal := s.onLink fun _ d => byJoinAck p f d
/-- JOIN_REFUSE. -/
def execJoinRefuse (p : Fin 4) (f : Frame) (s : State) : Host.Outcome State Fault Refusal :=
  s.onLink fun _ d => byJoinRefuse p f d
/-- JOIN_RETRY. -/
def execJoinRetry (s : State) : Host.Outcome State Fault Refusal := s.onLink fun _ d => joinRetry d
/-- READY. -/
def execReady (p : Fin 4) (f : Frame) (s : State) : Host.Outcome State Fault Refusal := s.onLink fun _ d => byReady p f d
/-- NOTREADY. -/
def execNotready (p : Fin 4) (f : Frame) (s : State) : Host.Outcome State Fault Refusal := s.onLink fun _ d => byNotReady p f d
/-- LEAVE. -/
def execLeave (p : Fin 4) (f : Frame) (s : State) : Host.Outcome State Fault Refusal :=
  s.onDev fun otp d => (byLeave p f d).inject otp
/-- TOPO. -/
def execTopo (p : Fin 4) (f : Frame) (s : State) : Host.Outcome State Fault Refusal :=
  s.onDev fun otp d => (byTopo p f d).inject otp
/-- SUMMARY. -/
def execSummary (p : Fin 4) (f : Frame) (s : State) : Host.Outcome State Fault Refusal := s.onLink fun _ d => bySummary p f d
/-- EVENT. -/
def execEvent (p : Fin 4) (f : Frame) (s : State) : Host.Outcome State Fault Refusal := s.onLink fun _ d => byEvent p f d
/-- ACK. -/
def execAck (p : Fin 4) (f : Frame) (s : State) : Host.Outcome State Fault Refusal := s.onLink fun _ d => byAck p f d
/-- ACK_TIMEOUT of the frame with SEQ `seq`. -/
def execAckTimeout (p : Fin 4) (seq : BitVec 8) (s : State) : Host.Outcome State Fault Refusal :=
  s.onDev fun otp d => (ackTimeout p seq d).inject otp
/-- TRAINING_STAGE_DONE. -/
def execTrainingStageDone (p : Fin 4) (s : State) : Host.Outcome State Fault Refusal := s.onLink fun _ d => stageDone p d
/-- TRAINING_TIMEOUT. -/
def execTrainingTimeout (p : Fin 4) (s : State) : Host.Outcome State Fault Refusal := s.onLink fun _ d => stageTimeout p d
/-- PORT_DOWN. -/
def execPortDown (p : Fin 4) (s : State) : Host.Outcome State Fault Refusal :=
  s.onDev fun otp d => (portDownRow p d).inject otp
/-- BAD_FRAME. -/
def execBadFrame (p : Fin 4) (x : Received) (s : State) : Host.Outcome State Fault Refusal :=
  s.onLink fun _ d => badFrame p x d
/-- BYT_EPOCH_RELOAD. -/
def execBytEpochReload (c : Tci) (s : State) : Host.Outcome State Fault Refusal :=
  s.onDev (runTciAt pdBy 0xC0 c (bytEpochReload c))
/-- BYT_REALIGN. -/
def execBytRealign (c : Tci) (s : State) : Host.Outcome State Fault Refusal := s.onDev (runTciAt pdBy 0xC1 c bytRealign)
/-- BYT_PORT_CTL. -/
def execBytPortCtl (c : Tci) (s : State) : Host.Outcome State Fault Refusal :=
  s.onDev fun otp d => (runTciAt pdBy 0xC2 c (bytPortCtl c) otp d).inject otp

end Sys2Proof.Machine
end

