-- ==== Sys2Proof/Machine/Beat.lean ====
section
/-! DEFINITION. The beat boundary (R34), ticks without a beat, the reloads of the count, the role of the device, and the
happenings that end a fence, a restore or a self-test. -/

namespace Sys2Proof.Machine

/-! ## The count (R32, R42 to R44) -/

/-- The count after the next boundary: a reload takes place where its target would be reached, and the automatic one where
the count would pass its end. A device that has no count from the root yet counts beats from zero, unseen (DESIGN CHOICE). -/
def Dev.countUp (d : Dev) : Dev :=
  let t := d.time
  let g := t.gci + 1
  match t.reload with
  | some r =>
    if r.target = g then
      ({ d with time := { t with gci := r.newGci, epoch := t.epoch + 1, reload := none, autoAnnounced := false } }).enterEpoch
    else { d with time := { t with gci := g } }
  | none =>
    if g = 0 && (t.autoAnnounced || decide (t.role = .root)) then
      ({ d with time := { t with gci := 0, epoch := t.epoch + 1, autoAnnounced := false } }).enterEpoch
    else { d with time := { t with gci := g } }

/-- The boundary on the model's clock: ECLK 0 of the next beat, with the measured period; beats of a ramp and of the hold-off
after it are counted. -/
def Dev.nextBeat (d : Dev) (per : BitVec 24) : Dev :=
  { d with time := { d.time with
      base := d.time.base + d.time.mult
      eclk := 0
      ticks := d.time.ticks + 1
      period := per
      rampBeat := if d.time.rampActive then d.time.rampBeat + 1 else 0
      holdoff := d.time.holdoff - 1 } }

/-- BEAT_BOUNDARY (R34): what was still due from the last boundary; the loops on a ramp (R363); the count, and a new epoch (R45); step 1, the committed
transactions, then the power requests and plane swaps of commands; step 2, Breeze; the vectors in flight that start in the
new beat, unless a step or a window is still due before them (R35); step 3, the engines that wait, then
releases and starts by command. `per` is CLK_BEAT_PER from this beat on. -/
def beatBoundary (per : BitVec 24) (d : Dev) : Dev :=
  let past := d.time.rampActive && decide (segDur (d.seg d.time.rampSlot d.time.rampSeg) < d.time.rampBeat)
  let d := if past then d.segmentEnd else d
  let d := d.breezeBeat.flyBeat
  let d := (d.rampSteer (d.nextBeat per)).countUp
  let d := d.txnBeat.pwrBeat.swapBeat.suBeat
  let d := d.breezeStep2.flyBeat
  let d := d.dueWaits.foldl Dev.releaseWait d
  d.releasesBeat.startsBeat

/-- NO_BEAT_TICK: 10 ns pass without a beat (R306, R388): power requests and start-up delays count it as one beat. -/
def noBeatTick (d : Dev) : Dev :=
  ({ d with time := { d.time with ticks := d.time.ticks + 1 } }).pwrBeat.suBeat

/-- AUTO_RELOAD_ANNOUNCE (R44). -/
def autoReloadAnnounce (d : Dev) : Dev :=
  if d.time.role = .root && d.time.started && decide (0xFFFFFFFF0000 ≤ d.time.gci.toNat) then
    { d with time := { d.time with autoAnnounced := true } }
  else d

/-- ROLE_WINDOW_END (R28): `clock` says that a clock was present at BEAT_IN. The root holds address 0, counts from here on
and is aligned once its TPLLs are locked; ports that have exchanged HELLO take their roles. -/
def roleWindowEnd (clock : Bool) (d : Dev) : Dev :=
  if d.time.role ≠ .undetermined then d
  else
    let d := if clock then
        let d := { d with
          time := { d.time with role := .root, started := true, shown := true }
          byt := { d.byt with jstate := .root, addr := 0, depth := 0, aligned := d.tpllsLocked } }
        d.updDir 0 fun e => { e with present := true, uid := d.byt.uid }
      else { d with time := { d.time with role := .downstream } }
    ((List.range 4).filter fun p => (d.port p).stage == 3 && (d.port p).hello).foldl Dev.chooseRole d

/-! ## Meanings -/

/-- STEP_BOUNDARY: the steps that are due, and then the vectors in flight that they were due before (R161, R35). -/
def execStepBoundary (s : State) : Host.Outcome State Fault Refusal := s.onDev fun _ d => d.stepBoundary.flyBeat
/-- OM2_WINDOW (R169). -/
def execOm2Window (s : State) : Host.Outcome State Fault Refusal := s.onDev fun _ d => d.om2Window.flyBeat
/-- BEAT_BOUNDARY with the measured beat period in fs. -/
def execBeatBoundary (per : BitVec 24) (s : State) : Host.Outcome State Fault Refusal :=
  s.onDev fun otp d => (beatBoundary per d).inject otp
/-- NO_BEAT_TICK. -/
def execNoBeatTick (s : State) : Host.Outcome State Fault Refusal := s.onDev fun otp d => (noBeatTick d).inject otp
/-- AUTO_RELOAD_ANNOUNCE. -/
def execAutoReloadAnnounce (s : State) : Host.Outcome State Fault Refusal := s.onDev fun _ d => autoReloadAnnounce d
/-- ROLE_WINDOW_END. -/
def execRoleWindowEnd (clock : Bool) (s : State) : Host.Outcome State Fault Refusal := s.onDev fun _ d => roleWindowEnd clock d
/-- RESTORE_DONE: domain `n`. -/
def execRestoreDone (n : Fin 40) (s : State) : Host.Outcome State Fault Refusal :=
  s.onDev fun otp d => (restoreDone n d).inject otp
/-- BST_START; `drainFail`: the drain of the domain failed. -/
def execBstStart (drainFail : Bool) (s : State) : Host.Outcome State Fault Refusal :=
  s.onDev fun otp d => (bstStart drainFail d).inject otp
/-- BST_CHECKPOINT of the test of a domain. -/
def execBstCheckpoint (n : Fin 40) (s : State) : Host.Outcome State Fault Refusal :=
  s.onDev fun otp d => (bstCheckpoint n d).inject otp
/-- BST_END of the test of a domain: whether it passed, its duration in µs, and the failing cells of a memory test. -/
def execBstEnd (n : Fin 40) (pass : Bool) (dur : Word) (cells : List (Word × BitVec 9)) (s : State) :
    Host.Outcome State Fault Refusal := s.onDev fun otp d => (bstEnd n pass dur cells otp d).inject otp

end Sys2Proof.Machine
end

