-- ==== Sys2Proof/Machine/Pins.lean ====
section
/-! DEFINITION. The pins, the supply and the TAP: power-on and lockout, RESET_N, SAFE_N, the junction sensor, and the JTAG
instructions (R57, R144, R308, R373, R374, R377, R414, R473 to R476, R495). -/

namespace Sys2Proof.Machine

/-! ## SAFE_N (R144, R414, R439) -/

/-- SAFE_N acts: every channel goes safe, engines stop, a sweep ends, and a PADLB test is cut. -/
def Dev.safeOn (d : Dev) : Dev :=
  if d.pin.safeN then d
  else
    let d := ({ d with pin := { d.pin with safeN := true } }).fire 253 (payload .aborted 1 0)
    let d := (d.channelsSafe (List.range 64) (64 * d.now : Nat)).requestStops
      ((List.range 64).filter fun n => (d.engine n).st.moving) 1 .async
    let d := { d with bst := { d.bst with tests := d.bst.tests.map fun (t : BstTest) => if t.running then { t with cut := true } else t } }
    d.abortSweep

/-- In SCRAPPED every channel holds E low and D low, whatever its safe state is (21_life_cycle.md). -/
def Dev.holdLow (otp : Otp) (d : Dev) : Dev :=
  if otp.state = 5 then times 64 (fun c d => d.updChannel c fun x => { x with e := false, d := false }) d else d

/-- Neither SAFE_N nor EXTEST acts any longer. -/
def Dev.safeOff (d : Dev) : Dev :=
  if !d.pin.safeN || d.pin.safePin || d.tap.ir == 0 then d
  else ({ d with pin := { d.pin with safeN := false } }).fire 253 (payload .ok 2 0)

/-- The level of SAFE_N changes. -/
def safeLevel (v : Bool) (d : Dev) : Dev :=
  let d := { d with pin := { d.pin with safePin := v } }
  if !d.live then { d with pin := { d.pin with safeN := v || d.tap.ir == 0 } }
  else if v then d.safeOn else d.safeOff

/-! ## Start and stop (R57, R308, R374, R377, R454) -/

/-- The start of the device once VIN is there and RESET_N is released: after a power-on the operating hours go on (R421), a
cut life-cycle transition resumes (R454), the configuration and the rest are sensed (R308), the loops acquire lock (R358), and
the ports train (R247). -/
def Dev.startUp (globErr : Bool) (planeErr : BitVec 16) (upto : Nat) (otp : Otp) (d : Dev) : Otp × Dev :=
  let d := if d.log.bootVin then d.hoursPowerOn else d
  let d := d.startLoops
  let x := lcyResume upto otp d
  if x.2.2 then (x.1, (x.2.1.senseAll x.1 globErr planeErr).trainPorts) else (x.1, x.2.1)

/-- The response to a lockout (R374): everything volatile is lost. -/
def Dev.shutDown (d : Dev) : Dev :=
  if !d.pin.powered then d
  else
    let d := d.afterReset true
    { d with
      pin := { d.pin with powered := false }
      pwr := { d.pwr with lockout := true } }

/-- The device is powered again. -/
def Dev.powerUp (d : Dev) : Dev :=
  { d with
    pin := { d.pin with powered := true, thermal := false }
    pwr := { d.pwr with lockout := false }
    log := { d.log with bootVin := true } }

/-- POWER_ON: VIN rises through the lockout threshold; the level of VREF_IO is sensed (R481). -/
def powerOn (globErr vref33 : Bool) (planeErr : BitVec 16) (upto : Nat) (otp : Otp) (d : Dev) : Otp × Dev :=
  let d := { d with pin := { d.pin with vin := true } }
  if d.pin.powered || (d.pin.thermal && decide (110 ≤ d.pin.temp)) then (otp, d)
  else
    let d := d.powerUp
    let d := { d with pin := { d.pin with vref33 := vref33 } }
    if d.pin.reset then (otp, d) else d.startUp globErr planeErr upto otp

/-- LOCKOUT: VIN falls through the lockout threshold. -/
def lockoutRow (d : Dev) : Dev := ({ d with pin := { d.pin with vin := false } }).shutDown

/-- RESET_N_ASSERT. -/
def resetAssert (d : Dev) : Dev :=
  if d.pin.reset then d
  else
    let d := if d.pin.powered then d.afterReset false else d
    { d with pin := { d.pin with reset := true } }

/-- RESET_N_RELEASE: a device that the sensor has shut down starts again below 110 °C (R495). -/
def resetRelease (globErr : Bool) (planeErr : BitVec 16) (upto : Nat) (otp : Otp) (d : Dev) : Otp × Dev :=
  if !d.pin.reset then (otp, d)
  else
    let d := { d with pin := { d.pin with reset := false } }
    let d := if !d.pin.powered && d.pin.vin && d.pin.thermal && decide (d.pin.temp < 110) then d.powerUp else d
    if d.pin.powered then d.startUp globErr planeErr upto otp else (otp, d)

/-- RAIL_FAULT: a rail leaves its window of ±5 %, or of ±10 % where `deep` (R377). -/
def railFault (rail : Nat) (deep : Bool) (d : Dev) : Dev :=
  let d := ({ d with pwr := { d.pwr with rail := setBit d.pwr.rail rail } }).fire 180 (payload .mediaError 1 rail)
  if deep then d.shutDown else d

/-! ## The junction sensor (R3, R414, R495) -/

/-- The grade's greatest junction temperature (Table 23-1). -/
def FuseState.tempMax (f : FuseState) : Int := if f.gradeX then 115 else 105

/-- THERMAL: the sensor reads `temp`; an event fires where a threshold is crossed. -/
def thermalRow (temp : Int) (d : Dev) : Dev :=
  let top := d.fuse.tempMax
  let d := { d with pin := { d.pin with temp := temp } }
  let go (band : Nat) : Dev := { d with pin := { d.pin with band := band } }
  let det := unsgn 16 temp
  if !d.live then d
  else if top < temp then if d.pin.band = 2 then d else (go 2).fire 249 (payload .refused 2 det)
  else if top - 5 ≤ temp then if d.pin.band = 0 then (go 1).fire 249 (payload .ok 1 det) else go 1
  else if temp ≤ top - 10 && d.pin.band ≠ 0 then (go 0).fire 249 (payload .ok 3 det)
  else d

/-- THERMAL_SHUTDOWN: the sensor reads 130 °C or more (R495). -/
def thermalShutdown (temp : Int) (d : Dev) : Dev :=
  if temp < 130 || !d.pin.powered then d
  else
    let d := d.shutDown
    { d with pin := { d.pin with thermal := true, temp := temp } }

/-! ## JTAG (R473 to R476, Table 22-5) -/

/-- Output D of channel `c` at its ball: high-Z while VIO is not in regulation (R484), that is without power (log 40). -/
def Dev.dBall (d : Dev) (c : Nat) : Ball := if d.pin.powered then .driven (d.channel c).d else .floating
/-- Output E of channel `c` at its ball (R484). -/
def Dev.eBall (d : Dev) (c : Nat) : Ball := if d.pin.powered then .driven (d.channel c).e else .floating
/-- The level at a ball, to which the outside gives `v`. -/
def Ball.level (b : Ball) (v : Bool) : Bool :=
  match b with
  | .driven x => x
  | .pullDown => v | .pullUp => v | .floating => v

/-- The levels at the pins of the boundary register as the device drives them; `ins` holds what the outside gives CH, CL,
the balls that nothing drives, and the partner buses. -/
def Dev.levels (d : Dev) (ins : Bsr) : Bsr :=
  let all (n : Nat) (f : Nat → Ball) (v : Nat → Bool) : Nat := (List.range n).foldl (fun w i => w + flag i ((f i).level (v i))) 0
  { ins with
    dOut := BitVec.ofNat 64 (all 64 d.dBall fun c => bit ins.dOut c)
    eOut := BitVec.ofNat 64 (all 64 d.eBall fun c => bit ins.eOut c)
    uio := BitVec.ofNat 16 (all 16 d.uioBall fun u => bit ins.uio u), presN := d.pin.presN
    resetN := !d.pin.reset, safeN := !d.pin.safePin
    confDone := d.cfg.done, confErr := d.cfg.err, alertN := !d.alert, logfail := d.evt.logfail }

/-- The levels at the pins: under EXTEST the boundary register drives the outputs (R475). -/
def Dev.pinLevels (d : Dev) (ins : Bsr) : Bsr :=
  let l := d.levels ins
  if d.tap.ir = 0 then
    let b := d.tap.bsr
    { l with dOut := b.dOut, eOut := b.eOut, uio := b.uio, peb := b.peb, confDone := b.confDone, confErr := b.confErr
             alertN := b.alertN, logfail := b.logfail }
  else l

/-- Private instructions are open (Table 21-1). -/
def Otp.jtagOpen (o : Otp) : Bool := [0, 1, 4, 8, 9, 10, 11].contains o.state

/-- Another instruction becomes current: EXTEST acts as SAFE_N does, and its end releases it. -/
def Dev.setIr (d : Dev) (ir : BitVec 8) : Dev :=
  let d := { d with tap := { d.tap with ir := ir } }
  if !d.live then { d with pin := { d.pin with safeN := d.pin.safePin || ir == 0 } }
  else if ir = 0 then d.safeOn else d.safeOff

/-- The TAP works while the device has power. -/
def Dev.tapped (d : Dev) (f : Dev → Dev) : Dev := if d.pin.powered then f d else d

/-- The request of NOCACC: a router index that names no router goes to DX 7. -/
def nocaccPacket (router : BitVec 6) (addr : BitVec 48) (data : Word) : Packet :=
  let r := router.toNat
  let lane := addr.toNat % 16 / 4
  { dx := if r < 36 then BitVec.ofNat 3 (r % 6) else 7, dy := BitVec.ofNat 3 (r / 6), src := 6, len := 1,
    be := BitVec.ofNat 16 (15 * 2 ^ (addr.toNat % 16)), addr := addr,
    data := [BitVec.ofNat 128 (data.toNat * 2 ^ (32 * lane))] }

/-- NOCACC: an Update-DR issues one access, unless one is outstanding (R476). -/
def nocacc (router : BitVec 6) (wr : Bool) (addr : BitVec 48) (data : Word) (otp : Otp) (d : Dev) : Dev :=
  if !otp.jtagOpen then d.setIr 0xFF
  else
    let d := d.setIr 0x20
    if d.tap.busy || !d.live then d
    else
      let d := { d with tap := { d.tap with addr := addr, write := wr, router := router, data := data, busy := true } }
      (request (if wr then 1 else 0) (nocaccPacket router addr data) otp d).inject otp

/-- LCYACC: the operands of an LCY_TRANSITION (R447 to R451), outside any queue. -/
def lcyacc (tgt : BitVec 4) (token : QWord) (upto : Nat) (otp : Otp) (d : Dev) : Otp × Dev :=
  if !otp.jtagOpen then (otp, d.setIr 0xFF)
  else
    let d := d.setIr 0x21
    let d := { d with tap := { d.tap with lcyCap := lcyStat otp d } }
    let tell (st : Status) (d : Dev) : Dev := { d with tap := { d.tap with lcy := st } }
    if !d.live then (otp, d)
    else if d.lcy.busy then (otp, tell .busy d)
    else if d.mode.mode ≠ 7 then (otp, tell .modeDenied d)
    else
      let r := lcyRun tgt.toNat token upto otp d
      (r.1, match r.2.2 with
        | some st => tell st r.2.1
        | none => r.2.1)

/-! ## Meanings -/

/-- POWER_ON: what the sensing finds (a CRC failure of the global record or of planes, VREF_IO at 3.3 V), and the last step of
a resumed life-cycle transition that completes. -/
def execPowerOn (globErr vref33 : Bool) (planeErr : BitVec 16) (upto : Fin 8) (s : State) : Host.Outcome State Fault Refusal :=
  s.onPins (powerOn globErr vref33 planeErr upto)
/-- LOCKOUT. -/
def execLockout (s : State) : Host.Outcome State Fault Refusal := s.onPins fun o d => (o, lockoutRow d)
/-- RESET_N_ASSERT. -/
def execResetNAssert (s : State) : Host.Outcome State Fault Refusal := s.onPins fun o d => (o, resetAssert d)
/-- RESET_N_RELEASE, with the operands of POWER_ON but for VREF_IO. -/
def execResetNRelease (globErr : Bool) (planeErr : BitVec 16) (upto : Fin 8) (s : State) :
    Host.Outcome State Fault Refusal := s.onPins (resetRelease globErr planeErr upto)
/-- RAIL_FAULT of a rail of Table 17-1. -/
def execRailFault (rail : Fin 8) (deep : Bool) (s : State) : Host.Outcome State Fault Refusal :=
  s.onDev fun _ d => railFault rail deep d
/-- THERMAL: the junction temperature in °C. -/
def execThermal (temp : Int) (s : State) : Host.Outcome State Fault Refusal := s.onPins fun o d => (o, thermalRow temp d)
/-- THERMAL_SHUTDOWN: the junction temperature in °C. -/
def execThermalShutdown (temp : Int) (s : State) : Host.Outcome State Fault Refusal :=
  s.onPins fun o d => (o, thermalShutdown temp d)
/-- SAFE_N_ASSERT. -/
def execSafeNAssert (s : State) : Host.Outcome State Fault Refusal := s.onPins fun o d => (o, (safeLevel true d).holdLow o)
/-- SAFE_N_RELEASE. -/
def execSafeNRelease (s : State) : Host.Outcome State Fault Refusal := s.onPins fun o d => (o, safeLevel false d)
/-- TAP_RESET: TRST_N selects IDCODE. -/
def execTapReset (s : State) : Host.Outcome State Fault Refusal := s.onPins fun o d => (o, d.tapped fun d => d.setIr 1)
/-- EXTEST. -/
def execExtest (s : State) : Host.Outcome State Fault Refusal := s.onPins fun o d => (o, d.tapped fun d => (d.setIr 0).holdLow o)
/-- IDCODE: its Capture-DR brings the identity into the register (R4). -/
def execIdcode (s : State) : Host.Outcome State Fault Refusal :=
  s.onPins fun o d => (o, d.tapped fun d => ({ d with tap := { d.tap with idReg := idcode } }).setIr 1)
/-- SAMPLE/PRELOAD: its Capture-DR takes the levels at the pins, of which `ins` holds what the outside gives, and its
Update-DR leaves `upd` in the cells. -/
def samplePreload (upd ins : Bsr) (d : Dev) : Dev :=
  ({ d with tap := { d.tap with bsr := upd, cap := d.pinLevels ins } }).setIr 2
/-- SAMPLE/PRELOAD. -/
def execSamplePreload (upd ins : Bsr) (s : State) : Host.Outcome State Fault Refusal :=
  s.onPins fun o d => (o, d.tapped (samplePreload upd ins))
/-- BYPASS. -/
def execBypass (s : State) : Host.Outcome State Fault Refusal := s.onPins fun o d => (o, d.tapped fun d => d.setIr 0xFF)
/-- NOCACC: router index, WRITE, ADDR and DATA. -/
def execNocacc (router : BitVec 6) (wr : Bool) (addr : BitVec 48) (data : Word) (s : State) :
    Host.Outcome State Fault Refusal := s.onPins fun o d => (o, d.tapped (nocacc router wr addr data o))
/-- LCYACC: target, token, and the last step that completes. -/
def execLcyacc (tgt : BitVec 4) (token : QWord) (upto : Fin 8) (s : State) : Host.Outcome State Fault Refusal :=
  s.onPins fun o d => if d.pin.powered then lcyacc tgt token upto o d else (o, d)

end Sys2Proof.Machine
end

