-- ==== Sys2Proof/Machine/Dispatch.lean ====
section
/-! DEFINITION. The dispatch of the commands: one arm per constructor of `Instr`, each one direct call of its meaning. -/

namespace Sys2Proof.Machine

/-- The effect of a command on everything but the queue. -/
def exec (i : Instr) (s : State) : Host.Outcome State Fault Refusal :=
  match i with
  | .vec n dut => Sys2Proof.Machine.execVec n dut s
  | .vgen n dut => Sys2Proof.Machine.execVgen n dut s
  | .vstr n dut => Sys2Proof.Machine.execVstr n dut s
  | .vhold n k => Sys2Proof.Machine.execVhold n k s
  | .brz n => Sys2Proof.Machine.execBrz n s
  | .nop n => Sys2Proof.Machine.execNop n s
  | .jmp n => Sys2Proof.Machine.execJmp n s
  | .jsr n => Sys2Proof.Machine.execJsr n s
  | .rts n => Sys2Proof.Machine.execRts n s
  | .brc n => Sys2Proof.Machine.execBrc n s
  | .loop n => Sys2Proof.Machine.execLoop n s
  | .mloop n => Sys2Proof.Machine.execMloop n s
  | .page n => Sys2Proof.Machine.execPage n s
  | .halt n => Sys2Proof.Machine.execHalt n s
  | .ldi n => Sys2Proof.Machine.execLdi n s
  | .alu n => Sys2Proof.Machine.execAlu n s
  | .alui n => Sys2Proof.Machine.execAlui n s
  | .xop n => Sys2Proof.Machine.execXop n s
  | .yop n => Sys2Proof.Machine.execYop n s
  | .dgop n => Sys2Proof.Machine.execDgop n s
  | .map n => Sys2Proof.Machine.execMap n s
  | .mov n => Sys2Proof.Machine.execMov n s
  | .waitg n => Sys2Proof.Machine.execWaitg n s
  | .sync n => Sys2Proof.Machine.execSync n s
  | .syncTimeout n => Sys2Proof.Machine.execSyncTimeout n s
  | .fctlEnable n => Sys2Proof.Machine.execFctlEnable n s
  | .fctlDisable n => Sys2Proof.Machine.execFctlDisable n s
  | .fctlBlockStart n => Sys2Proof.Machine.execFctlBlockStart n s
  | .fctlBlockEnd n => Sys2Proof.Machine.execFctlBlockEnd n s
  | .fctlMark n => Sys2Proof.Machine.execFctlMark n s
  | .fctlFlush n => Sys2Proof.Machine.execFctlFlush n s
  | .fctlClrstk n => Sys2Proof.Machine.execFctlClrstk n s
  | .mask n => Sys2Proof.Machine.execMask n s
  | .attn n => Sys2Proof.Machine.execAttn n s
  | .fxfer n => Sys2Proof.Machine.execFxfer n s
  | .failDecision n => Sys2Proof.Machine.execFailDecision n s
  | .stopBoundary n parity => Sys2Proof.Machine.execStopBoundary n parity s
  | .failEntry k => Sys2Proof.Machine.execFailEntry k s
  | .compactionExit k => Sys2Proof.Machine.execCompactionExit k s
  | .fatIngest present => Sys2Proof.Machine.execFatIngest present s
  | .regionClose r => Sys2Proof.Machine.execRegionClose r s
  | .fatClearDone => Sys2Proof.Machine.execFatClearDone s
  | .raeAnalysisStart => Sys2Proof.Machine.execRaeAnalysisStart s
  | .gatherDone => Sys2Proof.Machine.execGatherDone s
  | .mustRepairDone => Sys2Proof.Machine.execMustRepairDone s
  | .searchDone => Sys2Proof.Machine.execSearchDone s
  | .recordWrite => Sys2Proof.Machine.execRecordWrite s
  | .beatBoundary per => Sys2Proof.Machine.execBeatBoundary per s
  | .autoReloadAnnounce => Sys2Proof.Machine.execAutoReloadAnnounce s
  | .stepBoundary => Sys2Proof.Machine.execStepBoundary s
  | .measurementDone c t => Sys2Proof.Machine.execMeasurementDone c t s
  | .breezeSample c x ok => Sys2Proof.Machine.execBreezeSample c x ok s
  | .armLapse q => Sys2Proof.Machine.execArmLapse q s
  | .om2Window => Sys2Proof.Machine.execOm2Window s
  | .windowCheck => Sys2Proof.Machine.execWindowCheck s
  | .holdoffEnd => Sys2Proof.Machine.execHoldoffEnd s
  | .sweepDone res => Sys2Proof.Machine.execSweepDone res s
  | .sweepRepeat => Sys2Proof.Machine.execSweepRepeat s
  | .rampDevCheck meas => Sys2Proof.Machine.execRampDevCheck meas s
  | .rampSegmentEnd => Sys2Proof.Machine.execRampSegmentEnd s
  | .lock pll band cw d1 d2 d3 diff table => Sys2Proof.Machine.execLock pll band cw d1 d2 d3 diff table s
  | .dllLock pll d1 d2 d3 diff => Sys2Proof.Machine.execDllLock pll d1 d2 d3 diff s
  | .lockLoss pll cause diff cw => Sys2Proof.Machine.execLockLoss pll cause diff cw s
  | .bandFail pll table => Sys2Proof.Machine.execBandFail pll table s
  | .holdExpired pll => Sys2Proof.Machine.execHoldExpired pll s
  | .trackTimeout pll => Sys2Proof.Machine.execTrackTimeout pll s
  | .fmaxTrip pll => Sys2Proof.Machine.execFmaxTrip pll s
  | .spreadApex => Sys2Proof.Machine.execSpreadApex s
  | .roleWindowEnd clock => Sys2Proof.Machine.execRoleWindowEnd clock s
  | .mark p f arr => Sys2Proof.Machine.execMark p f arr s
  | .markSend offset => Sys2Proof.Machine.execMarkSend offset s
  | .markMissing => Sys2Proof.Machine.execMarkMissing s
  | .prepare p f => Sys2Proof.Machine.execPrepare p f s
  | .vote p f => Sys2Proof.Machine.execVote p f s
  | .decision p f => Sys2Proof.Machine.execDecision p f s
  | .voteTimeout t => Sys2Proof.Machine.execVoteTimeout t s
  | .coordinatorLate t => Sys2Proof.Machine.execCoordinatorLate t s
  | .deliveryStart t => Sys2Proof.Machine.execDeliveryStart t s
  | .deliveryDone t => Sys2Proof.Machine.execDeliveryDone t s
  | .hello p f => Sys2Proof.Machine.execHello p f s
  | .echoSend t => Sys2Proof.Machine.execEchoSend t s
  | .echoReq p f turn => Sys2Proof.Machine.execEchoReq p f turn s
  | .echoRsp p f rtt => Sys2Proof.Machine.execEchoRsp p f rtt s
  | .joinReq p f => Sys2Proof.Machine.execJoinReq p f s
  | .joinAck p f => Sys2Proof.Machine.execJoinAck p f s
  | .joinRefuse p f => Sys2Proof.Machine.execJoinRefuse p f s
  | .joinRetry => Sys2Proof.Machine.execJoinRetry s
  | .ready p f => Sys2Proof.Machine.execReady p f s
  | .notready p f => Sys2Proof.Machine.execNotready p f s
  | .leave p f => Sys2Proof.Machine.execLeave p f s
  | .topo p f => Sys2Proof.Machine.execTopo p f s
  | .summary p f => Sys2Proof.Machine.execSummary p f s
  | .event p f => Sys2Proof.Machine.execEvent p f s
  | .ack p f => Sys2Proof.Machine.execAck p f s
  | .ackTimeout p seq => Sys2Proof.Machine.execAckTimeout p seq s
  | .trainingStageDone p => Sys2Proof.Machine.execTrainingStageDone p s
  | .trainingTimeout p => Sys2Proof.Machine.execTrainingTimeout p s
  | .portDown p => Sys2Proof.Machine.execPortDown p s
  | .read p => Sys2Proof.Machine.execRead p s
  | .write p => Sys2Proof.Machine.execWrite p s
  | .writePosted p => Sys2Proof.Machine.execWritePosted p s
  | .resp origin p => Sys2Proof.Machine.execResp origin p s
  | .errResp origin p => Sys2Proof.Machine.execErrResp origin p s
  | .atomicOr p => Sys2Proof.Machine.execAtomicOr p s
  | .atomicAdd p => Sys2Proof.Machine.execAtomicAdd p s
  | .atomicSwap p => Sys2Proof.Machine.execAtomicSwap p s
  | .atomicCas p => Sys2Proof.Machine.execAtomicCas p s
  | .flush p => Sys2Proof.Machine.execFlush p s
  | .nocTimeout src tag => Sys2Proof.Machine.execNocTimeout src tag s
  | .drainTimeout n => Sys2Proof.Machine.execDrainTimeout n s
  | .fenceComplete n => Sys2Proof.Machine.execFenceComplete n s
  | .restoreDone n => Sys2Proof.Machine.execRestoreDone n s
  | .entryDone n => Sys2Proof.Machine.execEntryDone n s
  | .wake n src lost => Sys2Proof.Machine.execWake n src lost s
  | .pwrTimerExpired => Sys2Proof.Machine.execPwrTimerExpired s
  | .powerOn globErr vref33 planeErr upto => Sys2Proof.Machine.execPowerOn globErr vref33 planeErr upto s
  | .lockout => Sys2Proof.Machine.execLockout s
  | .droop mv => Sys2Proof.Machine.execDroop mv s
  | .droopClear mv => Sys2Proof.Machine.execDroopClear mv s
  | .railFault rail deep => Sys2Proof.Machine.execRailFault rail deep s
  | .thermal temp => Sys2Proof.Machine.execThermal temp s
  | .thermalShutdown temp => Sys2Proof.Machine.execThermalShutdown temp s
  | .resetNAssert => Sys2Proof.Machine.execResetNAssert s
  | .resetNRelease globErr planeErr upto => Sys2Proof.Machine.execResetNRelease globErr planeErr upto s
  | .safeNAssert => Sys2Proof.Machine.execSafeNAssert s
  | .safeNRelease => Sys2Proof.Machine.execSafeNRelease s
  | .presNChange card level ans => Sys2Proof.Machine.execPresNChange card level ans s
  | .pcieReset link => Sys2Proof.Machine.execPcieReset link s
  | .tapReset => Sys2Proof.Machine.execTapReset s
  | .watchdog => Sys2Proof.Machine.execWatchdog s
  | .stewardMemerr => Sys2Proof.Machine.execStewardMemerr s
  | .restartDone => Sys2Proof.Machine.execRestartDone s
  | .doorbell q w => Sys2Proof.Machine.execDoorbell q w s
  | .rqHeadWrite q w => Sys2Proof.Machine.execRqHeadWrite q w s
  | .cqCtlWrite q w => Sys2Proof.Machine.execCqCtlWrite q w s
  | .cqReset q => Sys2Proof.Machine.execCqReset q s
  | .commandFetch q x => Sys2Proof.Machine.execCommandFetch q x s
  | .responsePost q => Sys2Proof.Machine.execResponsePost q s
  | .notifyTimer q => Sys2Proof.Machine.execNotifyTimer q s
  | .sysNop c => Sys2Proof.Machine.execSysNop c s
  | .sysInfo c => Sys2Proof.Machine.execSysInfo c s
  | .sysGci c => Sys2Proof.Machine.execSysGci c s
  | .sysEcho c => Sys2Proof.Machine.execSysEcho c s
  | .engStart c => Sys2Proof.Machine.execEngStart c s
  | .engResume c => Sys2Proof.Machine.execEngResume c s
  | .engHalt c => Sys2Proof.Machine.execEngHalt c s
  | .engRelease c => Sys2Proof.Machine.execEngRelease c s
  | .engPageSwap c => Sys2Proof.Machine.execEngPageSwap c s
  | .engRefill c => Sys2Proof.Machine.execEngRefill c s
  | .refillTransfer q => Sys2Proof.Machine.execRefillTransfer q s
  | .refillDone n => Sys2Proof.Machine.execRefillDone n s
  | .refillDeadline n => Sys2Proof.Machine.execRefillDeadline n s
  | .engGang c => Sys2Proof.Machine.execEngGang c s
  | .engStream c => Sys2Proof.Machine.execEngStream c s
  | .streamFetch n => Sys2Proof.Machine.execStreamFetch n s
  | .timSetMult c => Sys2Proof.Machine.execTimSetMult c s
  | .timSpread c => Sys2Proof.Machine.execTimSpread c s
  | .calSweep c => Sys2Proof.Machine.execCalSweep c s
  | .fcpMode c => Sys2Proof.Machine.execFcpMode c s
  | .fcpRead c x => Sys2Proof.Machine.execFcpRead c x s
  | .raeLoad c x => Sys2Proof.Machine.execRaeLoad c x s
  | .raeRead c x => Sys2Proof.Machine.execRaeRead c x s
  | .raeStart c => Sys2Proof.Machine.execRaeStart c s
  | .raeAbort c => Sys2Proof.Machine.execRaeAbort c s
  | .txnOpen c => Sys2Proof.Machine.execTxnOpen c s
  | .txnStage c => Sys2Proof.Machine.execTxnStage c s
  | .txnCommit c => Sys2Proof.Machine.execTxnCommit c s
  | .txnAbort c => Sys2Proof.Machine.execTxnAbort c s
  | .txnRelease c => Sys2Proof.Machine.execTxnRelease c s
  | .txnQuery c => Sys2Proof.Machine.execTxnQuery c s
  | .txnClearOos c => Sys2Proof.Machine.execTxnClearOos c s
  | .cfgLoad c x => Sys2Proof.Machine.execCfgLoad c x s
  | .loadPass1Done bad x => Sys2Proof.Machine.execLoadPass1Done bad x s
  | .loadPass2Done bad x => Sys2Proof.Machine.execLoadPass2Done bad x s
  | .startupStep => Sys2Proof.Machine.execStartupStep s
  | .shadowCheck r ok => Sys2Proof.Machine.execShadowCheck r ok s
  | .activeStore => Sys2Proof.Machine.execActiveStore s
  | .cfgSwap c => Sys2Proof.Machine.execCfgSwap c s
  | .cfgAbort c => Sys2Proof.Machine.execCfgAbort c s
  | .cfgKeyProg c v => Sys2Proof.Machine.execCfgKeyProg c v s
  | .cfgEnconly c => Sys2Proof.Machine.execCfgEnconly c s
  | .holdEnd r => Sys2Proof.Machine.execHoldEnd r s
  | .eventLine l v => Sys2Proof.Machine.execEventLine l v s
  | .fxinWrite n w => Sys2Proof.Machine.execFxinWrite n w s
  | .bytEpochReload c => Sys2Proof.Machine.execBytEpochReload c s
  | .bytRealign c => Sys2Proof.Machine.execBytRealign c s
  | .bytPortCtl c => Sys2Proof.Machine.execBytPortCtl c s
  | .pwrSet c => Sys2Proof.Machine.execPwrSet c s
  | .pwrQuery c => Sys2Proof.Machine.execPwrQuery c s
  | .bstRun c => Sys2Proof.Machine.execBstRun c s
  | .bstStart drainFail => Sys2Proof.Machine.execBstStart drainFail s
  | .bstCheckpoint n => Sys2Proof.Machine.execBstCheckpoint n s
  | .bstEnd n pass dur cells => Sys2Proof.Machine.execBstEnd n pass dur cells s
  | .bstAbort c => Sys2Proof.Machine.execBstAbort c s
  | .bstRepair c v => Sys2Proof.Machine.execBstRepair c v s
  | .logFreeze c => Sys2Proof.Machine.execLogFreeze c s
  | .logRelease c => Sys2Proof.Machine.execLogRelease c s
  | .logSeq c => Sys2Proof.Machine.execLogSeq c s
  | .freezeEffect v => Sys2Proof.Machine.execFreezeEffect v s
  | .freezeAutoRelease => Sys2Proof.Machine.execFreezeAutoRelease s
  | .logRecordWrite v => Sys2Proof.Machine.execLogRecordWrite v s
  | .recordSeal v => Sys2Proof.Machine.execRecordSeal v s
  | .opsecTick => Sys2Proof.Machine.execOpsecTick s
  | .opsecStore v => Sys2Proof.Machine.execOpsecStore v s
  | .lcyQuery c => Sys2Proof.Machine.execLcyQuery c s
  | .lcyTransition c upto => Sys2Proof.Machine.execLcyTransition c upto s
  | .nvsRead c x => Sys2Proof.Machine.execNvsRead c x s
  | .nvsProgram c x => Sys2Proof.Machine.execNvsProgram c x s
  | .nvsErase c => Sys2Proof.Machine.execNvsErase c s
  | .nvsUnlock c => Sys2Proof.Machine.execNvsUnlock c s
  | .stwVersion c => Sys2Proof.Machine.execStwVersion c s
  | .stwPatch c => Sys2Proof.Machine.execStwPatch c s
  | .stwInstall c => Sys2Proof.Machine.execStwInstall c s
  | .nvsSequence src reg w => Sys2Proof.Machine.execNvsSequence src reg w s
  | .nvsSeqTimeout => Sys2Proof.Machine.execNvsSeqTimeout s
  | .program src addr w => Sys2Proof.Machine.execProgram src addr w s
  | .erase src addr => Sys2Proof.Machine.execErase src addr s
  | .suspend src addr => Sys2Proof.Machine.execSuspend src addr s
  | .resume src addr => Sys2Proof.Machine.execResume src addr s
  | .zunlock src addr data => Sys2Proof.Machine.execZunlock src addr data s
  | .zlock src addr => Sys2Proof.Machine.execZlock src addr s
  | .zset src addr data => Sys2Proof.Machine.execZset src addr data s
  | .zclear src addr => Sys2Proof.Machine.execZclear src addr s
  | .programDone b v => Sys2Proof.Machine.execProgramDone b v s
  | .eraseDone b ok => Sys2Proof.Machine.execEraseDone b ok s
  | .eraseAutoResume b => Sys2Proof.Machine.execEraseAutoResume b s
  | .discovery ts => Sys2Proof.Machine.execDiscovery ts s
  | .getstatusPoll ans => Sys2Proof.Machine.execGetstatusPoll ans s
  | .hotJoin t => Sys2Proof.Machine.execHotJoin t s
  | .ptrHdctlGo w => Sys2Proof.Machine.execPtrHdctlGo w s
  | .trainingDone ok cap => Sys2Proof.Machine.execTrainingDone ok cap s
  | .wipeDone => Sys2Proof.Machine.execWipeDone s
  | .refresh k => Sys2Proof.Machine.execRefresh k s
  | .vmiCfgTrain w => Sys2Proof.Machine.execVmiCfgTrain w s
  | .vmiCfgWrite w => Sys2Proof.Machine.execVmiCfgWrite w s
  | .vmiWpageWrite w => Sys2Proof.Machine.execVmiWpageWrite w s
  | .epmWrite n word hi v => Sys2Proof.Machine.execEpmWrite n word hi v s
  | .engHaltWrite n v => Sys2Proof.Machine.execEngHaltWrite n v s
  | .svalidWrite n v => Sys2Proof.Machine.execSvalidWrite n v s
  | .engStateWrite n off v => Sys2Proof.Machine.execEngStateWrite n off v s
  | .pinmapWrite c m v => Sys2Proof.Machine.execPinmapWrite c m v s
  | .scrambleMaskWrite c k v => Sys2Proof.Machine.execScrambleMaskWrite c k v s
  | .timShadowWrite c k j w => Sys2Proof.Machine.execTimShadowWrite c k j w s
  | .timTschkWrite c w => Sys2Proof.Machine.execTimTschkWrite c w s
  | .tschkDone c => Sys2Proof.Machine.execTschkDone c s
  | .timSwapWrite c hi w => Sys2Proof.Machine.execTimSwapWrite c hi w s
  | .timChcfgWrite c w => Sys2Proof.Machine.execTimChcfgWrite c w s
  | .calCorrWrite c t w => Sys2Proof.Machine.execCalCorrWrite c t w s
  | .calModecfgWrite m w => Sys2Proof.Machine.execCalModecfgWrite m w s
  | .clkRampSegWrite k n hi v => Sys2Proof.Machine.execClkRampSegWrite k n hi v s
  | .fcpRptrWrite w => Sys2Proof.Machine.execFcpRptrWrite w s
  | .raeRingWrite reg w => Sys2Proof.Machine.execRaeRingWrite reg w s
  | .raeRtailWrite w => Sys2Proof.Machine.execRaeRtailWrite w s
  | .raeCtlWrite w => Sys2Proof.Machine.execRaeCtlWrite w s
  | .fabGclkWrite k w => Sys2Proof.Machine.execFabGclkWrite k w s
  | .fabRctlWrite n w => Sys2Proof.Machine.execFabRctlWrite n w s
  | .nocRtCheck w => Sys2Proof.Machine.execNocRtCheck w s
  | .nocRtSwap w => Sys2Proof.Machine.execNocRtSwap w s
  | .lensArm k w => Sys2Proof.Machine.execLensArm k w s
  | .bytGroupWrite g k w => Sys2Proof.Machine.execBytGroupWrite g k w s
  | .pwrWakeWrite n v => Sys2Proof.Machine.execPwrWakeWrite n v s
  | .pwrTimerWrite v => Sys2Proof.Machine.execPwrTimerWrite v s
  | .evtStatClear k bits => Sys2Proof.Machine.execEvtStatClear k bits s
  | .logFrzctlFreeze src => Sys2Proof.Machine.execLogFrzctlFreeze src s
  | .logFrzctlRelease src => Sys2Proof.Machine.execLogFrzctlRelease src s
  | .logAnnGo v => Sys2Proof.Machine.execLogAnnGo v s
  | .clkGciLoRead => Sys2Proof.Machine.execClkGciLoRead s
  | .sysModeGciLoRead => Sys2Proof.Machine.execSysModeGciLoRead s
  | .engStopLoRead n => Sys2Proof.Machine.execEngStopLoRead n s
  | .txnTgtLoRead t => Sys2Proof.Machine.execTxnTgtLoRead t s
  | .evtLastPayRead n => Sys2Proof.Machine.execEvtLastPayRead n s
  | .logSeqNewRead => Sys2Proof.Machine.execLogSeqNewRead s
  | .readClear a => Sys2Proof.Machine.execReadClear a s
  | .registerWrite a => Sys2Proof.Machine.execRegisterWrite a s
  | .extest => Sys2Proof.Machine.execExtest s
  | .idcode => Sys2Proof.Machine.execIdcode s
  | .samplePreload upd ins => Sys2Proof.Machine.execSamplePreload upd ins s
  | .bypass => Sys2Proof.Machine.execBypass s
  | .nocacc router wr addr data => Sys2Proof.Machine.execNocacc router wr addr data s
  | .lcyacc tgt token upto => Sys2Proof.Machine.execLcyacc tgt token upto s
  | .unusedOpcode n => Sys2Proof.Machine.execUnusedOpcode n s
  | .nocReservedCmd r cmd p => Sys2Proof.Machine.execNocReservedCmd r cmd p s
  | .badFrame p x => Sys2Proof.Machine.execBadFrame p x s
  | .referenceReturn pll => Sys2Proof.Machine.execReferenceReturn pll s
  | .globalNetEdge k rising ins => Sys2Proof.Machine.execGlobalNetEdge k rising ins s
  | .routeCheckDone => Sys2Proof.Machine.execRouteCheckDone s
  | .hdescCheckDone => Sys2Proof.Machine.execHdescCheckDone s
  | .eraseStop b => Sys2Proof.Machine.execEraseStop b s
  | .busMasterEnable bme mask => Sys2Proof.Machine.execBusMasterEnable bme mask s
  | .msixTableWrite v r w => Sys2Proof.Machine.execMsixTableWrite v r w s
  | .evtCfgWrite n v => Sys2Proof.Machine.execEvtCfgWrite n v s
  | .nocShadowTableWrite r p ix w => Sys2Proof.Machine.execNocShadowTableWrite r p ix w s
  | .noBeatTick => Sys2Proof.Machine.execNoBeatTick s

end Sys2Proof.Machine
end

