-- ==== Sys2Proof/Safety.lean ====
section
/-! DEFINITION. The terms that the statements use: when an engine is about to issue a word, when a command of a queue passes
the checks that every command passes, and what it means that a record or a one-time bit is never lost. -/

namespace Sys2Proof.Machine

/-- Engine `n` of a device with power, out of reset, is about to issue the legal word `w` (R73, R101): it runs, no stop waits, and
it waits for no decision. -/
structure State.Issues (s : State) (n : Nat) (w : DWord) : Prop where
  live : s.dev.live = true
  run : (s.dev.engine n).st = .run
  calm : (s.dev.engine n).stops = []
  free : (s.dev.engine n).await = none
  word : (s.dev.engine n).fetch (s.dev.engine n).a.pc = w
  legal : legal w (s.dev.engine n).a.pc = true

/-- Engine `n` as the instruction that it issues finds it: an OM2 window that starts at or before the fetch lies behind it (R169),
and the decisions that have arrived by the fetch have acted (R76). -/
def State.issuer (s : State) (n : Nat) : Engine :=
  let e := (s.dev.engine n).cross (s.dev.engine n).issueAt
  e.settle e.issueAt

/-- The outcome of an instruction of engine `n` that leaves the engine as `e` and changes nothing else of the device. -/
def State.engineOnly (s : State) (n : Nat) (e : Engine) : Host.Outcome State Fault Refusal :=
  .next { s with dev := s.dev.setEngine n e }

/-- The outcome of an instruction of engine `n` that leaves the engine as `e` and may end a pass of a match loop (R120). -/
def State.ending (s : State) (n : Nat) (e : Engine) : Host.Outcome State Fault Refusal :=
  .next { s with dev := (s.dev.setEngine n e).mloopEnd n }

/-- The device in which engine `n`, standing as `e`, has fetched a vector of set `ts`: on its next slot, once the decisions that
have arrived by then acted (R76); the vector, which starts at the ball 10 ECLK later (R13), is in flight with the registers
before it and after it and the effects that it commits (R504), and the next slot begins after its period (R77); what is in
flight and due has started (R35). -/
def State.fetches (s : State) (n ts : Nat) (pre : Arch) (gen : Option DWord) (sa sb : BitVec 4) (stb : Strobe) (e : Engine) :
    Dev :=
  let x := e.toSlot
  let start := x.ballAt x.slot
  let p := (s.dev.setEngine n e).period n ts start
  let f := x.settle x.slot
  (s.dev.setEngine n { f with
    uncommitted := []
    issueAt := x.slot + 1
    slotAt := x.slot + p
    flight := f.flight ++ [{ ts := ts, start := start, period := p, gen := gen, sa := sa, sb := sb, pre := pre, after := f.a,
                             stb := stb, commits := f.uncommitted }] }).fly n

/-- The engine after an instruction of one issue ECLK that leaves the registers `a` and goes on with the next address
(R75, R103). -/
def Engine.onward (e : Engine) (a : Arch) : Engine := { e with a := { a with pc := a.pc + 1 }, issueAt := e.issueAt + 1 }

/-- The engine after a flow instruction that is taken to `pc` (R75: 1 + 2 issue ECLK). -/
def Engine.onwardTo (e : Engine) (a : Arch) (pc : BitVec 12) : Engine :=
  { e with a := { a with pc := pc }, issueAt := e.issueAt + 3 }

/-- Command `c` of opcode `op` passes every check that precedes its own (R323): the device starts it for owner `o`, as `d`. -/
structure State.Accepts (s : State) (op : Nat) (c : Tci) (o : Owner) (d : Dev) : Prop where
  live : s.dev.live = true
  gate : tciGate s.otp op c s.dev = .go o d

/-- Command `c` is accepted, and the domain `n` that its helper must reach is neither closed nor under test (R19, R438). -/
structure State.AcceptsAt (s : State) (n op : Nat) (c : Tci) (o : Owner) (d : Dev) : Prop extends s.Accepts op c o d where
  free : s.dev.tested n = false
  reach : (s.dev.domain n).closed = false

/-- A register of domain `n` takes a write of host software: the device is live, the domain's edge is open and no test of it
runs (R19, R24, R436). -/
structure State.Writable (s : State) (n : Nat) : Prop where
  live : s.dev.live = true
  free : s.dev.tested n = false
  reach : (s.dev.domain n).closed = false

/-- Nothing but the count, the engines that wait and Breeze's own schedule is due at the next beat boundary: no transaction is
open, no power request, plane swap, start-up, start or release waits, no ramp runs or rests, nothing of Breeze is left over,
no vector is in flight, and no packet waits at a closed edge. -/
structure Dev.Calm (d : Dev) : Prop where
  slots : d.txn.slot = []
  power : d.pwr.reqs = []
  swaps : d.cfg.swaps = []
  startUp : d.cfg.suWait = none
  starts : d.eng.starts = []
  releases : d.eng.releases = []
  ramp : d.time.rampActive = false
  holdoff : d.cal.holdoff = false
  steps : d.cal.stepDue = none
  window : d.cal.winDue = none
  held : d.noc.held = []
  flights : ∀ n, n < 64 → (d.engine n).flight = []

/-- What one-time programming never takes back: every transition record stays at its place with its origin, its target and its
flags, uses, generations and fuse repairs only grow, the token digests stay, and the kill bit stays blown. -/
structure Otp.Onward (a b : Otp) : Prop where
  recs : ∀ (i : Nat) (r : TransRec), a.recs[i]? = some r → ∃ r', b.recs[i]? = some r' ∧ r'.origin = r.origin ∧
    r'.target = r.target ∧ (r.intent = true → r'.intent = true) ∧ (r.wiped = true → r'.wiped = true) ∧
    (r.written = true → r'.written = true) ∧ (r.cleared = true → r'.cleared = true)
  uses : ∀ k, Store.get (fun _ => 0) a.diagUsed k ≤ Store.get (fun _ => 0) b.diagUsed k
  digests : b.digest = a.digest
  kill : a.kill = true → b.kill = true
  fuses : a.fuses <+: b.fuses
  gens : ∀ k, (Store.get (fun _ => ({} : KeySlot)) a.keys k).gens ≤ 4 →
    (Store.get (fun _ => ({} : KeySlot)) a.keys k).gens ≤ (Store.get (fun _ => ({} : KeySlot)) b.keys k).gens

/-- A transition record's flags come in the order of Table 21-3, its target is a life-cycle state, and a wipe of SCRAP has blown
the kill bit. -/
structure TransRec.Sound (r : TransRec) (kill : Bool) : Prop where
  target : r.target ≤ 5 ∨ isDiag r.target = true
  wiped : r.wiped = true → r.intent = true
  written : r.written = true → r.wiped = true
  cleared : r.cleared = true → r.written = true
  scrap : r.target = 5 → r.wiped = true → kill = true

/-- One-time programming within its bounds: 16 uses of each diagnostic state, 4 generations of each key, 256 fuse repairs, and
sound records. -/
structure Otp.Sound (o : Otp) : Prop where
  recs : ∀ r ∈ o.recs, r.Sound o.kill
  uses : ∀ k, Store.get (fun _ => 0) o.diagUsed k ≤ 16
  gens : ∀ k, (Store.get (fun _ => ({} : KeySlot)) o.keys k).gens ≤ 4
  fuses : o.fuses.length ≤ 256

end Sys2Proof.Machine
end

