-- ==== Sys2Proof/Certificates/Slice0/Obligations.lean ====
section
/-! DEFINITION. The statements about the T6403, for the provers. Each names the rules that it rests on; a statement that says
that a command completes has its next state as its conclusion. -/

open Sys2Proof Sys2Proof.Machine

/-! ## The machine -/

/-- A step takes the command at the front of the queue and runs it on the device with the rest of the queue; with no command waiting
one ECLK of the beat passes on a device that is live, and nothing else changes (the model's choice, log 1). -/
def Obligations.StepRunsFront : Prop :=
  (∀ (c : Instr) (rest : List Instr) (s : State), step { s with pending := c :: rest } = exec c { s with pending := rest }) ∧
  (∀ s : State, s.pending = [] → s.dev.live = true → step s = .next { s with dev := { s.dev with
    time := { s.dev.time with eclk := min (s.dev.time.eclk + 1) (s.dev.time.mult - 1) } } }) ∧
  ∀ s : State, s.pending = [] → s.dev.live = false → step s = .next s

/-- Every command has an effect: none ends in a fault or a refusal, and none touches the queue of those that wait. -/
def Sys2Proof.Stated.EveryCommandCompletes : Prop := ∀ (c : Instr) (s : State), ∃ t, exec c s = .next t ∧ t.pending = s.pending

/-- The command is an event of a pin, of the supply, of the TAP or of the operating-hours counter, which act on a device that does
not run. -/
def Sys2Proof.Stated.ofPins (c : Instr) : Prop :=
  (∃ g v e u, c = .powerOn g v e u) ∨ c = .lockout ∨ c = .resetNAssert ∨ (∃ g e u, c = .resetNRelease g e u) ∨
    (∃ t, c = .thermal t) ∨ (∃ t, c = .thermalShutdown t) ∨ c = .safeNAssert ∨ c = .safeNRelease ∨ c = .tapReset ∨ c = .extest ∨
    c = .idcode ∨ (∃ x y, c = .samplePreload x y) ∨ c = .bypass ∨ (∃ r w a v, c = .nocacc r w a v) ∨
    (∃ t k u, c = .lcyacc t k u) ∨ c = .opsecTick

/-- R374, and what reset means: without power or in reset, nothing but the pins, the supply and the TAP acts on the device. -/
def Sys2Proof.Stated.InertWithoutPower : Prop :=
  ∀ (c : Instr) (s : State), s.dev.live = false → ¬ Sys2Proof.Stated.ofPins c → exec c s = .next s

/-- Every command completes and leaves the queue; without power only pins, supply and TAP act. -/
def Obligations.EveryCommandActs : Prop :=
  Sys2Proof.Stated.EveryCommandCompletes ∧ Sys2Proof.Stated.InertWithoutPower

/-- R445, R446, R448, R452, R300, R442: one-time programming only goes on. Whatever a step does, no transition record, use, key
generation, digest or fuse repair is lost, and the kill bit stays blown. -/
def Obligations.OneTimeOnly : Prop := ∀ s t : State, step s = .next t → s.otp.Onward t.otp

/-- R445, R446, R452, R300, R442: every step keeps one-time programming sound: no diagnostic state is entered a seventeenth time, no
key gets a fifth generation, no 257th repair is fused, the flags of every transition record come in their order, and a device whose
data SCRAPPED has wiped has its kill bit blown. -/
def Obligations.OneTimeSound : Prop := ∀ s t : State, s.otp.Sound → step s = .next t → t.otp.Sound

/-- The reset state has sound one-time programming (its contents are the model's choice, log 4). -/
def Obligations.ResetSound : Prop := State.reset.otp.Sound

/-- R57, R72, R201, R375, R352, R413 and the reset columns of the register tables: reset leaves the queue empty, the device live in
OM0, every engine IDLE with zero program counter, pages and FIFO, every event enabled and clear with RCD and ALERT as its severity
gives, the FAT empty in APPEND mode, no region descriptor, every transaction slot FREE, three token attempts, idle banks, and the
named registers at the values of their tables. -/
def Obligations.ResetState : Prop :=
  let d := State.reset.dev
  State.reset.pending = [] ∧ d.live = true ∧ d.mode.mode = 0 ∧ d.mode.prev = 0 ∧
  (∀ n : Fin 64, (d.engine n).st = .idle ∧ (d.engine n).a.pc = 0 ∧ (d.engine n).mem = [] ∧ (d.engine n).fifo = []) ∧
  (∀ n : Fin 256, (d.evtCfg n).en = true ∧ bit d.evt.stat n = false ∧ ((d.evtCfg n).rcd = true ↔ 1 ≤ (d.evtCfg n).sev) ∧
    ((d.evtCfg n).alert = true ↔ (d.evtCfg n).sev = 3)) ∧
  d.fcp.mode = .append ∧ d.fcp.fat = [] ∧ d.rae.desc = [] ∧ (∀ t : Fin 8, (d.slot t).st = .free) ∧
  d.lcy.attempts = 3 ∧ d.lcy.busy = false ∧ (∀ k : Fin 4, d.nvBank k = {}) ∧
  ∀ x ∈ [(Machine.Block.sys, 0x00, 0x16403C9B), (.cal, 0x08, 0x800186A0), (.bst, 0x04, 10), (.bst, 0x0C, 0x1C), (.pwr, 0x04, 4400),
      (.stw, 0x04, 100), (.noc, 0x100, 100), (.nvs, 0x28, 4), (.txn, 0x00, 50), (.rae, 0x00, 0x10100), (.log, 0x34, 0)],
    regVal State.reset.otp d x.1 x.2.1 = some (BitVec.ofNat 32 x.2.2)

/-! ## Yunor instructions (05_yunor_isa.md) -/

/-- R122, R123, R116, R117, R130, R95, R284, R101: each register instruction answers a next state in which its destination holds what its
table gives, PC names the next address one issue ECLK later, and nothing outside its engine has changed; where it is the last of a
match loop's body, the pass ends then. An FXFER that sends presents its word to the fabric with a valid strobe; where the
engine's region is in hold the word is lost instead, and the region notes that. -/
def Obligations.RegisterInstructions : Prop :=
  ∀ (s : State) (n : Fin 64) (w : DWord), s.Issues n w →
    let e := s.issuer n
    let a := e.a
    let goes (b : Arch) := s.ending n (e.onward b)
    (opc w = 0x10 → exec (.nop n) s = goes a) ∧
    (opc w = 0x20 → exec (.ldi n) s = goes (a.writeSel (fld w 40 5) (opImm w))) ∧
    (opc w = 0x27 → exec (.mov n) s = goes (a.writeSel (fld w 40 5) (e.readSel (fld w 32 5)))) ∧
    (opc w = 0x21 → opMod w < 8 →
      let r := alu (opMod w) (a.gr (opRa w)) (a.gr (opRb w))
      exec (.alu n) s = goes ((a.setAlu r).setG (opRd w) r.res)) ∧
    (opc w = 0x21 → 8 ≤ opMod w → exec (.alu n) s = goes (a.setAlu (alu (opMod w) (a.gr (opRa w)) (a.gr (opRb w))))) ∧
    (opc w = 0x22 → opMod w < 8 →
      let r := alu (opMod w) (a.gr (opRa w)) (opImm w)
      exec (.alui n) s = goes ((a.setAlu r).setG (opRd w) r.res)) ∧
    (opc w = 0x22 → 8 ≤ opMod w → exec (.alui n) s = goes (a.setAlu (alu (opMod w) (a.gr (opRa w)) (opImm w)))) ∧
    (opc w = 0x23 → exec (.xop n) s = goes (a.xop (opMod w) (opImm24 w) (a.gr (opRa w)))) ∧
    (opc w = 0x24 → exec (.yop n) s = goes (a.yop (opMod w) (opImm24 w) (a.gr (opRa w)))) ∧
    (opc w = 0x25 → exec (.dgop n) s =
      goes { a with dg := dgop (opMod w) a.dg (opImm w) (a.gr (opRa w)) (a.gr (opRb w)) false }) ∧
    (opc w = 0x26 → exec (.map n) s = goes { a with map := BitVec.ofNat 4 (fld w 0 4) }) ∧
    (opc w = 0x35 →
      let out := if bit w 48 then { a with fxout := dword (a.gr (opRa w)) (a.gr (opRa w + 1)) } else a
      let b := if bit w 49 then ((out.setG (opRd w) (lo32 e.fxin)).setG (opRd w + 1) (hi32 e.fxin)).setFlag 10 false else out
      (bit w 48 = false → exec (.fxfer n) s = goes b) ∧
      (bit w 48 = true → s.dev.gated (n / 4) = false →
        exec (.fxfer n) s = s.ending n { e.onward b with fxValid := true }) ∧
      (bit w 48 = true → s.dev.gated (n / 4) = true →
        exec (.fxfer n) s = ({ s with dev := s.dev.updFabRegion (n / 4) fun r => { r with fxDrop := true } } : State).ending n
          (e.onward b)))

/-- R111, Table 5-6: a register that LDI or MOV writes reads back as the value, cut to the register's width, and no other
selector but the other half of DG changes. -/
def Sys2Proof.Stated.SelectorWriteRead : Prop :=
  ∀ (e : Engine) (i j : Nat) (v : Word), i ≤ 17 →
    ({ e with a := e.a.writeSel i v } : Engine).readSel i = (if 8 ≤ i ∧ i ≤ 15 then v &&& 0xFFFFFF else v) ∧
    (i ≠ j → j ≤ 18 → ({ e with a := e.a.writeSel i v } : Engine).readSel j = e.readSel j)

/-- R110: the flags of the ALU: Z and N from the result; C of ADD is the carry out, C of SUB and CMP is RA ≥ RB; V is the
signed overflow; logical operations clear both; shifts set C to the last bit shifted out, 0 for an amount of 0. -/
def Obligations.AluFlags : Prop :=
  ∀ (x y : Word) (a : Arch) (k : Nat), k ≤ 9 →
    let r := alu k x y
    let f := (a.setAlu r).flags
    let amount := y.toNat % 32
    bit f 0 = decide (r.res = 0) ∧ bit f 1 = r.res.msb ∧ bit f 2 = r.c ∧ bit f 3 = r.v ∧
    (∀ i, 4 ≤ i → bit f i = bit a.flags i) ∧
    (k = 0 → r.res = x + y ∧ r.c = decide (r.res.toNat ≠ x.toNat + y.toNat) ∧
      r.v = decide (r.res.toInt ≠ x.toInt + y.toInt)) ∧
    (k = 1 ∨ k = 8 → r.res = x - y ∧ r.c = decide (y.toNat ≤ x.toNat) ∧ r.v = decide (r.res.toInt ≠ x.toInt - y.toInt)) ∧
    (k = 2 ∨ k = 9 → r = ⟨x &&& y, false, false⟩) ∧ (k = 3 → r = ⟨x ||| y, false, false⟩) ∧
    (k = 4 → r = ⟨x ^^^ y, false, false⟩) ∧
    (5 ≤ k ∧ k ≤ 7 → r.v = false ∧ (amount = 0 → r.res = x ∧ r.c = false)) ∧
    (k = 5 → r.res.toNat = x.toNat * 2 ^ amount % 2 ^ 32 ∧ (amount ≠ 0 → r.c = x.getLsbD (32 - amount))) ∧
    (k = 6 → r.res.toNat = x.toNat / 2 ^ amount ∧ (amount ≠ 0 → r.c = x.getLsbD (amount - 1))) ∧
    (k = 7 → r.res.toInt = x.toInt / 2 ^ amount ∧ (amount ≠ 0 → r.c = x.getLsbD (amount - 1)))

/-- R116, Table 5-7: a generator that stands within its limit stays within it under every operation but the two that load a
value or change the limit, and INC and DEC step it around the ring of XMAX + 1 values. -/
def Sys2Proof.Stated.GeneratorRing : Prop :=
  ∀ (a m imm : BitVec 24) (g : Word), a.toNat ≤ m.toNat →
    (∀ k, k ≤ 7 ∨ k = 9 → (k = 9 → imm.toNat ≤ m.toNat) →
      (genop k a m imm g).m = m ∧ (genop k a m imm g).a.toNat ≤ m.toNat) ∧
    (genop 2 (genop 1 a m imm g).a m imm g).a = a ∧ (genop 1 (genop 2 a m imm g).a m imm g).a = a ∧
    (genop 5 (genop 5 a m imm g).a m imm g).a = a ∧
    (genop 1 a m imm g).w = some (decide (a = m)) ∧ (genop 2 a m imm g).w = some (decide (a = 0))

/-- Register selectors read back, and the data generator is a ring of rotations. -/
def Obligations.SelectorsAndRing : Prop :=
  Sys2Proof.Stated.SelectorWriteRead ∧ Sys2Proof.Stated.GeneratorRing

/-- R118, R83, R75, R103: each flow instruction answers a next state: the target of a taken one with two ECLK more, the return
stack pushed and popped, the pages exchanged by PAGE. Nothing outside the engine changes. -/
def Sys2Proof.Stated.FlowInstructions : Prop :=
  ∀ (s : State) (n : Fin 64) (w : DWord), s.Issues n w →
    let e := s.issuer n
    let a := e.a
    (opc w = 0x11 → exec (.jmp n) s = s.engineOnly n (e.onwardTo a (opAddr w))) ∧
    (opc w = 0x12 → a.rsp < 16 →
      let ret : BitVec 13 := BitVec.ofNat 13 ((if a.active then 4096 else 0) + (a.pc + 1).toNat)
      exec (.jsr n) s = s.engineOnly n
        (e.onwardTo { a with rstk := Store.put (fun _ => 0) a.rstk a.rsp ret, rsp := a.rsp + 1 } (opAddr w))) ∧
    (opc w = 0x13 → 0 < a.rsp → exec (.rts n) s =
      s.engineOnly n (e.onwardTo { a with rsp := a.rsp - 1 } (BitVec.ofNat 12 (a.rs (a.rsp - 1)).toNat))) ∧
    (opc w = 0x14 → opMod w ≠ 1 → opMod w ≠ 2 → exec (.brc n) s =
      s.engineOnly n (if condTrue (opMod w) e.flagsNow != bit w 16 then e.onwardTo a (opAddr w) else e.onward a)) ∧
    (opc w = 0x17 → a.svalid = true → s.dev.pageStaged n = false → exec (.page n) s = s.engineOnly n
      (e.onwardTo { a with active := !a.active, svalid := false, repLeft := 0, mloop := none, lbuf := none } (opAddr w)))

/-- R76, R108: what a fail-dependent instruction finds. It waits for a last vector in flight that will have a strobe judged
unmasked, and finds FAIL as 0 where that vector will have none. A last vector that has started is decided 15 ECLK after its
last strobe that is not masked by the SMASK of the fetch, failing where any of these strobes failed, and the instruction goes on
no earlier; with none of them FAIL is 0. Before the first vector FAIL is the flag. -/
def Sys2Proof.Stated.FailVerdict : Prop :=
  ∀ (d : Dev) (n : Fin 64),
    let e := d.engine n
    let mask := e.await.getD (d.smasks n)
    let goes (t : Nat) : Engine := { e.settle t with issueAt := t, await := none }
    (∀ v, e.flight.getLast? = some v → d.failTest n = if d.willJudge n v then none else some (goes e.issueAt, false)) ∧
    (e.flight = [] → ∀ cs, e.lastVec = .made cs →
      let judged := cs.filter fun c => !bit mask c.ch
      (judged = [] → d.failTest n = some (goes e.issueAt, false)) ∧
      (judged ≠ [] → ∃ t, (∀ c ∈ judged, (c.time / 64).toNat + 15 ≤ t) ∧ (∃ c ∈ judged, (c.time / 64).toNat + 15 = t) ∧
        d.failTest n = some (goes (max e.issueAt t), judged.any (·.fail)))) ∧
    (e.flight = [] → e.lastVec = .none →
      d.failTest n = some (goes e.issueAt, bit (e.settle e.issueAt).a.flags 6))

/-- R108, R76, R118: a BRC on FAIL or FSTK whose verdict waits for a vector in flight waits too, with the SMASK of its fetch; else it
takes its branch by FAIL as the verdict gives it, or by FSTK, and the next instruction is fetched no earlier than the
verdict. Nothing outside the engine changes. -/
def Sys2Proof.Stated.FailBranch : Prop :=
  ∀ (s : State) (n : Fin 64) (w : DWord), s.Issues n w → opc w = 0x14 → opMod w = 1 ∨ opMod w = 2 →
    let e := s.issuer n
    let d := s.dev.setEngine n e
    (d.failTest n = none → exec (.brc n) s = s.engineOnly n { e with await := some (d.smasks n) }) ∧
    (∀ r fail, d.failTest n = some (r, fail) →
      let taken := (if opMod w = 1 then fail else bit r.a.flags 7) != bit w 16
      exec (.brc n) s = s.engineOnly n { r with
        a := { r.a with pc := if taken then opAddr w else r.a.pc + 1 }
        issueAt := max (e.issueAt + if taken then 3 else 1) r.issueAt })

/-- Flow instructions and the branch on a fail decision. -/
def Obligations.FlowInstructions : Prop :=
  Sys2Proof.Stated.FlowInstructions ∧ Sys2Proof.Stated.FailVerdict ∧ Sys2Proof.Stated.FailBranch

/-- R119: a LOOP whose counter is not zero counts it down and goes to TOP; with the counter at zero it goes on with the next
address and the counter stays 0. From the loop buffer it costs no ECLK. Only PC, the counter, the loop buffer and the next
issue change. -/
def Sys2Proof.Stated.CountedLoop : Prop :=
  ∀ (s : State) (n : Fin 64) (w : DWord), s.Issues n w → opc w = 0x15 →
    let e := s.issuer n
    let buffered : Prop := e.a.lbuf = some e.a.pc.toNat
    ∃ x : Engine, exec (.loop n) s = s.engineOnly n x ∧
      (e.a.lcr (opLc w) ≠ 0 → x.a.pc = opAddr w ∧ x.a.lcr (opLc w) = e.a.lcr (opLc w) - 1 ∧
        (buffered → x.issueAt = e.issueAt) ∧ (¬ buffered → x.issueAt = e.issueAt + 3)) ∧
      (e.a.lcr (opLc w) = 0 → x.a.pc = e.a.pc + 1 ∧ x.a.lcr (opLc w) = 0 ∧
        (buffered → x.issueAt = e.issueAt) ∧ (¬ buffered → x.issueAt = e.issueAt + 1)) ∧
      (∀ k, k ≠ opLc w → x.a.lcr k = e.a.lcr k) ∧
      x = { e with a := { e.a with pc := x.a.pc, lc := x.a.lc, lbuf := x.a.lbuf }, issueAt := x.issueAt }

/-- R120: MLOOP with a body of legal instructions that may stand there, one of them a vector instruction, begins its first
pass; with a reserved encoding in the body, or a body it forbids, the engine gets an ILLEGAL stop at the address that the
rule names. -/
def Sys2Proof.Stated.MatchLoopStart : Prop :=
  ∀ (s : State) (n : Fin 64) (w : DWord), s.Issues n w → opc w = 0x16 →
    let e := s.issuer n
    let body (i : Nat) : DWord := e.fetch (e.a.pc + 1 + BitVec.ofNat 12 i)
    let ok (i : Nat) : Prop := legal (body i) (e.a.pc + 1 + BitVec.ofNat 12 i) = true
    let len := fld w 0 4 + 1
    let shaped : Prop := (∀ i < len, bodyOk (body i) = true) ∧ ∃ i < len, opc (body i) = 1 ∨ opc (body i) = 2
    ((∀ i < len, ok i) → shaped → exec (.mloop n) s = s.engineOnly n { e with
      a := { e.a with
        pc := e.a.pc + 1
        mloop := some { first := e.a.pc + 1, after := e.a.pc + 1 + BitVec.ofNat 12 len, lc := opLc w }
        lbuf := none }
      issueAt := e.issueAt + 1 }) ∧
    ((∀ i < len, ok i) → ¬ shaped → exec (.mloop n) s = s.engineOnly n { e with stops := [8], stopKind := .instr }) ∧
    (∀ i < len, ¬ ok i → (∀ j < i, ok j) → exec (.mloop n) s = s.engineOnly n { e with
      a := { e.a with pc := e.a.pc + 1 + BitVec.ofNat 12 i }
      stops := [8]
      stopKind := .instr })

/-- R120, R121: an instruction that is not the last of a match loop's body ends no pass, and a VEC ends none before its last vector.
At the end of a pass the engine waits for a last vector in flight; by the verdict the loop ends with MPASS = 1 on a pass
without a fail, ends with MPASS = 0 when its counter is zero, or counts down and starts the next pass. -/
def Sys2Proof.Stated.MatchLoopPass : Prop :=
  ∀ (d : Dev) (n : Fin 64),
    let e := d.engine n
    (e.a.mloop = none → d.mloopEnd n = d) ∧
    (∀ m, e.a.mloop = some m → e.a.pc ≠ m.after ∨ e.a.repLeft ≠ 0 → d.mloopEnd n = d) ∧
    (∀ m, e.a.mloop = some m → e.a.pc = m.after → e.a.repLeft = 0 →
      (d.failTest n = none → d.mloopEnd n = d.setEngine n { e with await := some (e.await.getD (d.smasks n)) }) ∧
      (∀ r, d.failTest n = some (r, false) →
        d.mloopEnd n = d.setEngine n { r with a := { r.a.setFlag 8 true with mloop := none } }) ∧
      (∀ r, d.failTest n = some (r, true) → r.a.lcr m.lc = 0 →
        d.mloopEnd n = d.setEngine n { r with a := { r.a.setFlag 8 false with mloop := none } }) ∧
      (∀ r, d.failTest n = some (r, true) → r.a.lcr m.lc ≠ 0 →
        d.mloopEnd n = d.setEngine n { r with a := { r.a.setLc m.lc (r.a.lcr m.lc - 1) with pc := m.first } }))

/-- Counted loops and match loops. -/
def Obligations.LoopInstructions : Prop :=
  Sys2Proof.Stated.CountedLoop ∧ Sys2Proof.Stated.MatchLoopStart ∧ Sys2Proof.Stated.MatchLoopPass

/-- R118, R83, R96, R101, R88, Table 4-8: HALT, a call or return at the stack limit, a PAGE without a valid shadow page or while a page
swap of its engine is staged (the model's choice, log 14), a stream vector on the leader of a gang and a reserved encoding
arrive as the stop causes HALT, STACK, UNDERRUN_PAGE and ILLEGAL; the registers stay (HALT moves PC past itself). -/
def Obligations.InstructionStops : Prop :=
  ∀ (s : State) (n : Fin 64) (w : DWord),
    let e := s.issuer n
    let stop (c : Nat) (a : Arch) := s.engineOnly n { e with a := a, stops := [c], stopKind := .instr }
    (s.Issues n w →
      (opc w = 0x18 → exec (.halt n) s = stop 10 { e.a with pc := e.a.pc + 1 }) ∧
      (opc w = 0x12 → 16 ≤ e.a.rsp → exec (.jsr n) s = stop 9 e.a) ∧
      (opc w = 0x13 → e.a.rsp = 0 → exec (.rts n) s = stop 9 e.a) ∧
      (opc w = 0x17 → e.a.svalid = false ∨ s.dev.pageStaged n = true → exec (.page n) s = stop 5 e.a) ∧
      (opc w = 0x03 → e.sizeLog2 ≠ 0 → ∀ dut, exec (.vstr n dut) s = stop 8 e.a)) ∧
    (s.dev.live = true → (s.dev.engine n).st = .run → (s.dev.engine n).stops = [] → (s.dev.engine n).await = none →
      (s.dev.engine n).fetch (s.dev.engine n).a.pc = w → legal w (s.dev.engine n).a.pc = false →
      exec (.unusedOpcode n) s = s.engineOnly n { s.dev.engine n with stops := [8], stopKind := .instr })
/-- R127, R128, R129, R504, R76: FCTL other than CLRSTK, MASK and ATTN issue in one ECLK and leave their effect waiting for its
commit point; nothing outside the engine changes before it. CLRSTK waits for the verdict of the last vector as a branch on FAIL
does, then clears FSTK; nothing outside the engine changes. -/
def Sys2Proof.Stated.CommitPointInstructions : Prop :=
  ∀ (s : State) (n : Fin 64) (w : DWord), s.Issues n w →
    let e := s.issuer n
    let d := s.dev.setEngine n e
    let waits (x : Effect) := s.ending n { e.onward e.a with uncommitted := e.uncommitted ++ [x] }
    (opc w = 0x32 →
      (opMod w = 0 → exec (.fctlEnable n) s = waits .enable) ∧
      (opMod w = 1 → exec (.fctlDisable n) s = waits .disable) ∧
      (opMod w = 2 → exec (.fctlBlockStart n) s = waits (.blockStart (fld w 0 12))) ∧
      (opMod w = 3 → exec (.fctlBlockEnd n) s = waits (.blockEnd (fld w 0 12))) ∧
      (opMod w = 4 → exec (.fctlMark n) s = waits (.mark (op16 w))) ∧
      (opMod w = 5 → exec (.fctlFlush n) s = waits .flush) ∧
      (opMod w = 6 →
        (d.failTest n = none → exec (.fctlClrstk n) s = s.engineOnly n { e with await := some (d.smasks n) }) ∧
        (∀ r fail, d.failTest n = some (r, fail) → exec (.fctlClrstk n) s = s.engineOnly n { r with
          a := { r.a.setFlag 7 false with pc := r.a.pc + 1 }
          issueAt := max (e.issueAt + 1) r.issueAt }))) ∧
    (opc w = 0x33 → exec (.mask n) s = waits (.mask (bit w 48) (opImm w))) ∧
    (opc w = 0x34 → exec (.attn n) s = waits (.attn (fld w 0 8)))

/-- R504, R127, R128, R129, R179, R178: at its commit point ENABLE and DISABLE set the engine's capture, MASK sets the comparator mask of
the channels that the engine drives in the named half, ATTN fires the engine's attention event with its CODE, MARK and FLUSH
queue their item with the collectors, and BLOCK_START and BLOCK_END open and close a block of their region. Effects commit in
program order, and none waits any longer. -/
def Sys2Proof.Stated.EffectsCommit : Prop :=
  ∀ (d : Dev) (n : Fin 64),
    (d.commit n = ((d.engine n).uncommitted).foldl (Dev.applyEffect n) (d.updEngine n fun e => { e with uncommitted := [] }) ∧
      (d.commit n).engine n = { d.engine n with uncommitted := [] } ∧ ∀ j, j ≠ n.val → (d.commit n).engine j = d.engine j) ∧
    (∀ b : Bool, let x := Dev.applyEffect n d (if b then .enable else .disable)
      x.source n = { d.source n with enabled := b } ∧ (∀ j, j ≠ n.val → x.source j = d.source j) ∧
      x = { d with fcp := { d.fcp with src := x.fcp.src } }) ∧
    (∀ (half : Bool) (bits : Word), let x := Dev.applyEffect n d (.mask half bits)
      (∀ c, x.channel c = (if c ∈ d.driven n ∧ n.val + (if half then 32 else 0) ≤ c ∧ c < n.val + (if half then 64 else 32) then
        { d.channel c with dmask := bit bits (c - n.val - if half then 32 else 0) } else d.channel c)) ∧
      x = { d with tim := { d.tim with ch := x.tim.ch } }) ∧
    (∀ code, Dev.applyEffect n d (.attn code) = d.fire n (payload4 .ok 0 code 0)) ∧
    (∀ code, Dev.applyEffect n d (.mark code) = d.marker n 4 code (d.source n).count.toNat) ∧
    (Dev.applyEffect n d .flush = (List.range 8).foldl (fun d k => d.pushFc k (.flush n)) d) ∧
    (∀ r, Dev.applyEffect n d (.blockStart r) = d.blockStart n r ∧ Dev.applyEffect n d (.blockEnd r) = d.blockEnd n r)

/-- Instructions that take effect at a commit point. -/
def Obligations.CommitPointInstructions : Prop :=
  Sys2Proof.Stated.CommitPointInstructions ∧ Sys2Proof.Stated.EffectsCommit

/-- R86, R77, R98: a VEC forms its pair on the next slot, once for each strobe result of the command, as far as its count reaches. The
first of its vectors leaves the engine with one less to produce, with PC at the next address after the last. Over the whole command
the count of what is left stands in ENG_REPLEFT, PC moves on with the last vector, and the generators, the flags other than
FAIL and FSTK, the other registers, the program memory and every other engine keep their values. -/
def Sys2Proof.Stated.VecCounts : Prop :=
  ∀ (s : State) (n : Fin 64) (w : DWord), s.Issues n w → opc w = 0x01 →
    let e := s.issuer n
    let total := if e.a.repLeft = 0 then fld w 0 16 + 1 else e.a.repLeft
    let after (left : Nat) : Engine := { e with a := { e.a with repLeft := left, pc := if left = 0 then e.a.pc + 1 else e.a.pc } }
    (∀ b, exec (.vec n [b]) s = .next { s with
      dev := (s.fetches n (opTs w) e.a none (BitVec.ofNat 4 (fld w 44 4)) (BitVec.ofNat 4 (fld w 40 4)) b (after (total - 1))).mloopEnd n }) ∧
    ∀ dut, dut ≠ [] → ∃ d : Dev, exec (.vec n dut) s = .next { s with dev := d.mloopEnd n } ∧
      (d.engine n).a = { (after (total - dut.length)).a with flags := (d.engine n).a.flags } ∧
      (∀ i, i ≠ 6 → i ≠ 7 → bit (d.engine n).a.flags i = bit e.a.flags i) ∧
      (d.engine n).mem = e.mem ∧ (d.engine n).st = .run ∧ (d.engine n).stops = [] ∧ (d.engine n).fifo = e.fifo ∧
      ∀ j, j ≠ n.val → d.engine j = s.dev.engine j

/-- R113, R116, R117, R92: a VGEN forms one vector from the generators as they stand and then steps them: XA and XMAX, YA and YMAX
and DG hold what XOPC, YOPC and DGOPC give, INCY and DECY step YA where XA wraps, and no other register but PC and the wrap
flags changes. -/
def Sys2Proof.Stated.VgenSteps : Prop :=
  ∀ (s : State) (n : Fin 64) (w : DWord) (b : Strobe), s.Issues n w → opc w = 0x02 →
    let e := s.issuer n
    let code := fld w 12 4
    let x := genop code e.a.xa e.a.xmax 0 0
    let y := if code = 6 ∨ code = 7 then
        if x.w = some true then genop (code - 5) e.a.ya e.a.ymax 0 0 else { a := e.a.ya, m := e.a.ymax, w := some false }
      else genop (fld w 8 4) e.a.ya e.a.ymax 0 0
    let dg := dgop (fld w 4 4) e.a.dg 0 0 0 ((bit e.a.xa 0 != bit e.a.ya 0) != (bit x.a 0 != bit y.a 0))
    ∃ f, exec (.vgen n b) s = .next { s with dev := (s.fetches n (opTs w) e.a (some w) 7 7 b { e with
        a := { e.a with pc := e.a.pc + 1, xa := x.a, xmax := x.m, ya := y.a, ymax := y.m, dg := dg, flags := f } }).mloopEnd n } ∧
      (∀ i, i ≠ 4 → i ≠ 5 → bit f i = bit e.a.flags i) ∧
      bit f 4 = x.w.getD (bit e.a.flags 4) ∧ bit f 5 = y.w.getD (bit e.a.flags 5)

/-- R87, R88: a VSTR takes 4 bits of the stream FIFO for each vector and forms the symbols that ENG_STRMAP gives for them; with the
FIFO empty the engine gets the stop UNDERRUN_STREAM, with PC at the VSTR and ENG_REPLEFT holding the vectors it still had to
produce. -/
def Sys2Proof.Stated.VstrStream : Prop :=
  ∀ (s : State) (n : Fin 64) (w : DWord) (b : Strobe), s.Issues n w → opc w = 0x03 → (s.dev.engine n).sizeLog2 = 0 →
    let e := s.issuer n
    let total := if e.a.repLeft = 0 then fld w 0 16 + 1 else e.a.repLeft
    let symbol (code : Nat) : BitVec 4 := BitVec.ofNat 4 (fld e.strmap (4 * code) 4)
    (∀ v rest, e.fifo = v :: rest → exec (.vstr n [b]) s = .next { s with
      dev := s.fetches n (opTs w) e.a none (symbol (fld v 0 2)) (symbol (fld v 2 2)) b { e with
        fifo := rest
        a := { e.a with repLeft := total - 1, pc := if total = 1 then e.a.pc + 1 else e.a.pc } } }) ∧
    (e.fifo = [] → ∀ dut, exec (.vstr n (b :: dut)) s = s.engineOnly n { e with
      a := { e.a with repLeft := total }
      stops := [6]
      stopKind := .data })

/-- R35, R13: a vector in flight that starts in the present beat, with no step and no window due before it, starts at once; one that
starts later stays in flight, and nothing changes. -/
def Sys2Proof.Stated.VectorsFly : Prop :=
  ∀ (d : Dev) (n : Fin 64) (v : Flight), (d.engine n).flight = [v] → (d.engine n).st = .run →
    d.fly n = if v.start < d.time.base + d.time.mult ∧ d.cal.stepDue = none ∧ ¬ (d.cal.steal = true ∧ ∃ m, d.cal.winDue = some m ∧ bit m n = true)
      then (d.setEngine n { d.engine n with flight := [] }).startVector n v else d

/-- R86, R92, R137, R139, R76, R109, R505: a vector that starts is formed on each channel that the engine drives, with its pair, or with
what the Pin Map makes of the generators, in the timing set and the corrections in force at its start; other channels keep
their state. The engine's vector count goes up by one. Its decision arrives 15 ECLK after its last unmasked strobe, and with no
such strobe it is a pass at the start of the vector. -/
def Sys2Proof.Stated.VectorStarts : Prop :=
  ∀ (d : Dev) (n : Fin 64) (v : Flight), v.commits = [] →
    let x := d.startVector n v
    let pair (c : Nat) : Option (BitVec 4 × BitVec 4) :=
      if c ∉ d.driven n then none
      else match v.gen with
        | none => some (v.sa, v.sb)
        | some w => genSymbols v.pre (d.engine c) (d.pinAt c v.pre.map.toNat v.start) w
    let formed (c : Nat) (p : BitVec 4 × BitVec 4) := (d.channel c).vector c (d.setAt c v.ts v.start) p.1 p.2 (d.corrs c)
      (64 * v.start : Nat) v.stb.cut (bit v.stb.chA c) (bit v.stb.clA c) (bit v.stb.chB c) (bit v.stb.clB c)
    (∀ c p, pair c = some p → x.channel c = (formed c p).1) ∧ (∀ c, pair c = none → x.channel c = d.channel c) ∧
    (x.source n).count = (d.source n).count + 1 ∧
    ∃ cs, (∀ k, k ∈ cs ↔ ∃ c p, pair c = some p ∧ k ∈ (formed c p).2) ∧
      x.engine n = { d.engine n with
        decisions := (x.engine n).decisions
        lastVec := .made cs
        ckpt := v.after
        vecEnd := v.start + v.period } ∧
      ∃ t, (x.engine n).decisions = addDecision t (d.engine n).decisions ∧
        (∀ k ∈ cs, k.masked = false → (k.time / 64).toNat + 15 ≤ t.arrives) ∧
        ((∃ k ∈ cs, k.masked = false) →
          (∃ k ∈ cs, k.masked = false ∧ (k.time / 64).toNat + 15 = t.arrives) ∧
          (t.fail = true ↔ ∃ k ∈ cs, k.masked = false ∧ k.fail = true)) ∧
        ((∀ k ∈ cs, k.masked = true) → t = { arrives := v.start, fail := false })

/-- VEC, VGEN and VSTR form their vectors. -/
def Obligations.VectorInstructions : Prop :=
  Sys2Proof.Stated.VecCounts ∧ Sys2Proof.Stated.VgenSteps ∧ Sys2Proof.Stated.VstrStream ∧ Sys2Proof.Stated.VectorsFly ∧ Sys2Proof.Stated.VectorStarts

/-- R114: on an ECLK on which a hold vector is due a VHOLD forms it, of symbols X and X, when its condition does not hold; when it holds,
it ends and goes on with the next address as a taken flow instruction. R115, R170: a BRZ holds its slots and forms no vector; one
of 512 ECLK or more is noted for the channels that the engine drives. -/
def Sys2Proof.Stated.HoldAndIdleSlots : Prop :=
  ∀ (s : State) (n : Fin 64) (w : DWord), s.Issues n w →
    let e := (s.issuer n).toSlot
    let t := e.slot
    let f := e.settle t
    let total := if e.a.repLeft = 0 then fld w 0 16 + 1 else e.a.repLeft
    (opc w = 0x04 → condTrue (opMod w) f.flagsNow = bit w 16 → exec (.vhold n 1) s = .next { s with
      dev := s.fetches n (opTs w) f.a none 7 7 {} { f with
        a := { f.a with repLeft := total - 1, pc := if total = 1 then f.a.pc + 1 else f.a.pc } } }) ∧
    (opc w = 0x04 → condTrue (opMod w) f.flagsNow ≠ bit w 16 → exec (.vhold n 1) s = s.engineOnly n { f with
      a := { f.a with repLeft := 0, pc := f.a.pc + 1 }
      issueAt := t + 3 }) ∧
    (opc w = 0x05 →
      let p := s.dev.period n (opTs w) (t + 10)
      let slots := fld w 0 16 + 1
      ∃ d, exec (.brz n) s = .next { s with dev := d } ∧
        d.engine n = { e with a := { e.a with pc := e.a.pc + 1 }, issueAt := t + (slots - 1) * p + 1, slotAt := t + slots * p } ∧
        (∀ j, j ≠ n.val → d.engine j = s.dev.engine j) ∧
        d = { s.dev with eng := d.eng, cal := { s.dev.cal with om2 := d.cal.om2 } } ∧
        (slots * p < 512 → d.cal = s.dev.cal) ∧
        (512 ≤ slots * p → ∀ c ∈ s.dev.driven n, (Store.get om2Reset d.cal.om2 c).brz = true))

/-- R124, R38, R504: a WAITG waits for its target, once what waited for a commit point has committed where no vector is in flight; a
target that is not later than the present is refused with LATE and one in a later epoch with BAD_OPERAND by the engine's
attention event, and the engine keeps waiting. -/
def Sys2Proof.Stated.WaitForBeat : Prop :=
  ∀ (s : State) (n : Fin 64) (w : DWord), s.Issues n w → opc w = 0x30 →
    let e := s.issuer n
    let target := e.waitTarget w
    let d0 := s.dev.setEngine n e
    let d := if e.flight = [] then d0.commit n else d0
    let waits (refused : Bool) : Engine := { d.engine n with
      st := .wait
      ckpt := e.a
      waitNext := e.a.pc + 1
      waitg := { target := target, frac := BitVec.ofNat 16 (fld w 0 16), refused := refused } }
    (s.dev.targetStatus target = .ok → exec (.waitg n) s = .next { s with dev := d.setEngine n (waits false) }) ∧
    (s.dev.targetStatus target ≠ .ok → exec (.waitg n) s = .next { s with
      dev := (d.setEngine n (waits true)).fire n (payload4 (s.dev.targetStatus target) 0 0 0) }) ∧
    (target.epoch = s.dev.time.epoch → s.dev.targetStatus target = if s.dev.time.gci.toNat < target.gci.toNat then .ok else .late) ∧
    (∀ k : Nat, 1 ≤ k → k ≤ 127 → target.epoch = s.dev.time.epoch + BitVec.ofNat 8 k → s.dev.targetStatus target = .badOperand) ∧
    (∀ k : Nat, 1 ≤ k → k ≤ 127 → target.epoch = s.dev.time.epoch - BitVec.ofNat 8 k → s.dev.targetStatus target = .late)

/-- R125, R126: an engine whose SYNC set is not complete waits in SYNC with the normalised mask; the one that completes it releases
every engine of the set: each runs on at the next address, with Z = 1, on the ECLK of the last SYNC plus 4 plus a quarter of
its quad. One whose timeout runs out leaves with Z = 0 at the next address and raises its attention event with TIMEOUT. -/
def Sys2Proof.Stated.Rendezvous : Prop :=
  (∀ (s : State) (n : Fin 64) (w : DWord), s.Issues n w → opc w = 0x31 → (s.dev.engine n).uncommitted = [] →
    let e := s.issuer n
    let m := (s.dev.setEngine n e).syncNorm n (dword (e.a.gr (opRa w)) (e.a.gr (opRb w)))
    let waits : Engine := { e with
      st := .sync
      ckpt := e.a
      waitNext := e.a.pc + 1
      syncMask := m
      syncTmo := BitVec.ofNat 16 (fld w 0 16)
      syncAt := e.issueAt }
    let ready (k : Nat) : Prop := (s.dev.engine k).st = .sync ∧ (s.dev.engine k).syncMask = m
    (∀ k, k < 64 → (bit m k = true ↔ k = n.val ∨
      ((s.dev.engine k).st ≠ .follower ∧ bit (dword (e.a.gr (opRa w)) (e.a.gr (opRb w))) k = true))) ∧
    ((∃ k, k < 64 ∧ k ≠ n.val ∧ bit m k = true ∧ ¬ ready k) → exec (.sync n) s = s.engineOnly n waits) ∧
    ((∀ k, k < 64 → k ≠ n.val → bit m k = true → ready k) →
      ∃ d, exec (.sync n) s = .next { s with dev := d } ∧ d = { s.dev with eng := { s.dev.eng with eng := d.eng.eng } } ∧
        ∀ k, k < 64 →
          let x := if k = n.val then waits else s.dev.engine k
          d.engine k = if bit m k = true then ({ x with a := x.a.setFlag 0 true } : Engine).leave (e.issueAt + 4 + k / 16) else x)) ∧
  (∀ (s : State) (n : Fin 64), s.dev.live = true → (s.dev.engine n).st = .sync → (s.dev.engine n).syncTmo ≠ 0 →
    (s.dev.engine n).stops = [] →
    let e := s.dev.engine n
    exec (.syncTimeout n) s = .next { s with
      dev := (s.dev.setEngine n (({ e with a := e.a.setFlag 0 false } : Engine).leave (e.syncAt + 1024 * e.syncTmo.toNat))).fire n
        (payload4 .timeout 0 0 0) }) ∧
  (∀ (e : Engine) (t : Nat), (e.leave t).st = .run ∧ (e.leave t).a = { e.a with pc := e.waitNext } ∧ (e.leave t).issueAt = t ∧
    (e.leave t).ckpt = (e.leave t).a ∧ (e.leave t).mem = e.mem ∧ (e.leave t).decisions = e.decisions)

/-- VHOLD, BRZ, WAITG and SYNC wait and go on. -/
def Obligations.WaitingInstructions : Prop :=
  Sys2Proof.Stated.HoldAndIdleSlots ∧ Sys2Proof.Stated.WaitForBeat ∧ Sys2Proof.Stated.Rendezvous

/-- R76, R109: the decision of the oldest undecided vector sets FAIL to its outcome and adds it to FSTK, in the registers and in
the state after every vector since; no other flag and no other register changes. -/
def Sys2Proof.Stated.DecisionFlags : Prop :=
  ∀ (s : State) (n : Fin 64) (x : Decision) (rest : List Decision), s.dev.live = true →
    (s.dev.engine n).decisions = x :: rest →
    let e := s.dev.engine n
    let judged (a b : Arch) : Prop := b = { a with flags := b.flags } ∧ bit b.flags 6 = x.fail ∧
      bit b.flags 7 = (x.fail || bit a.flags 7) ∧ ∀ i, i ≠ 6 → i ≠ 7 → bit b.flags i = bit a.flags i
    ∃ y : Engine, exec (.failDecision n) s = s.engineOnly n y ∧ judged e.a y.a ∧ judged e.ckpt y.ckpt ∧
      (∀ (i : Nat) (v : Flight), e.flight[i]? = some v → ∃ b, judged v.after b ∧ y.flight[i]? = some { v with after := b }) ∧
      y = { e with a := y.a, ckpt := y.ckpt, flight := y.flight, decisions := rest } ∧ y.flight.length = e.flight.length

/-- R96, R97, R98, R99, R504: at the stop boundary an engine in RUN, WAIT or SYNC with a waiting stop becomes STOPPED: the least of the
causes is CAUSE, every other one sets its ALSO bit, and no cause waits any longer. After an instruction stop its registers are
those at the instruction, and what waited has committed; after another stop in RUN they are those after the last vector that
started, with PC at the VSTR for a data stop, and what waited is dropped. The channels that it drives are in their safe state,
its attention event reports the cause, and vectors in flight are discarded. A program memory read at PC with a parity error is the
cause MEMERR. -/
def Sys2Proof.Stated.StopBoundary : Prop :=
  ∀ (s : State) (n : Fin 64) (parity : Bool), s.dev.live = true → (s.dev.engine n).st.moving = true → s.dev.eng.halts = [] →
    (∀ c ∈ (s.dev.engine n).stops, 1 ≤ c ∧ c ≤ 11) →
    let d0 := if parity = true ∧ (s.dev.engine n).st = .run then s.dev.requestStop n 7 .instr else s.dev
    let e := (d0.engine n).settle (max (d0.engine n).vecEnd s.dev.now)
    e.stops ≠ [] → (d0.engine n).atBoundary = true →
    ∃ d, exec (.stopBoundary n parity) s = .next { s with dev := d } ∧ (d.engine n).st = .stopped ∧ (d.engine n).stops = [] ∧
      (d.engine n).cause ∈ e.stops ∧ (∀ c ∈ e.stops, (d.engine n).cause ≤ c) ∧
      (∀ k, k < 11 → (bit (d.engine n).also k = true ↔ k + 1 ∈ e.stops ∧ k + 1 ≠ (d.engine n).cause)) ∧
      (e.stopKind = .instr → (d.engine n).a = { e.a with lbuf := none }) ∧
      (e.stopKind = .async → e.st = .run → (d.engine n).a = { e.ckpt with lbuf := none }) ∧
      (e.stopKind = .data → e.st = .run → (d.engine n).a =
        { e.ckpt with pc := e.a.pc, repLeft := e.a.repLeft, active := e.a.active, svalid := e.a.svalid, lbuf := none }) ∧
      (d.engine n).uncommitted = [] ∧ (d.engine n).flight = [] ∧ (d.engine n).mem = e.mem ∧
      (∀ c ∈ s.dev.driven n, s.dev.pin.safeN = false → (d.channel c).inSafe = true) ∧
      ((s.dev.evtCfg n).en = true →
        ∃ code, (d.evtLast n).payload = payload4 (causeStatus (d.engine n).cause) (d.engine n).cause code 0) ∧
      ∀ j, j ≠ n.val → d.engine j = s.dev.engine j

/-- Fail decisions set their flags, and a requested stop takes effect at its boundary. -/
def Obligations.DecisionsAndStops : Prop :=
  Sys2Proof.Stated.DecisionFlags ∧ Sys2Proof.Stated.StopBoundary

/-! ## Commands of the queues (14_host_commands.md) -/

/-- R323, R327, R328, R8: a command starts when it is the oldest of its queue's accepted ones, and a FENCE only with no earlier one in
flight; during a Steward restart nothing starts. What starts meets the checks in the order of R323, and the first that fails
decides its answer; one that passes them all runs, in flight. A command that reaches an idle queue without passing through its
ring counts as consumed at this moment, and one that has started and waits goes on without further checks (the model's choice, log
13). -/
def Obligations.CommandChecks : Prop :=
  ∀ (s : State) (op : Nat) (c : Tci) (f : Owner → Dev → Dev),
    let q := s.dev.queue c.q
    let run := runTci op c f s.otp s.dev
    (s.dev.stw.restarting = true → run = s.dev) ∧
    (∀ o, s.dev.stw.restarting = false → s.dev.cmd.parked.find? (fun x => x.1 == op && decide (x.2.1 = c)) = some (op, c, o) →
      run = f o { s.dev with cmd := { s.dev.cmd with parked := s.dev.cmd.parked.erase (op, c, o) } }) ∧
    (s.dev.stw.restarting = false → (∀ o, (op, c, o) ∉ s.dev.cmd.parked) →
      (q.accepted ≠ [] → q.accepted.head? ≠ some (op, c) → run = s.dev) ∧
      (q.accepted = [] → 32 ≤ q.inflight ∨ (c.fence = true ∧ q.inflight ≠ 0) → run = s.dev) ∧
      (q.accepted.head? = some (op, c) → c.fence = true → q.accepted.length < q.inflight → run = s.dev) ∧
      ∀ (o : Owner) (d : Dev),
        (q.accepted = [] ∧ q.inflight < 32 ∧ (c.fence = true → q.inflight = 0) ∧ o = s.dev.ownerOf op c ∧
          d = s.dev.updQueue c.q fun q => { q with inflight := q.inflight + 1 }) ∨
        (q.accepted.head? = some (op, c) ∧ (c.fence = true → q.inflight ≤ q.accepted.length) ∧
          o = (if q.stale = 0 then s.dev.ownerOf op c else { s.dev.ownerOf op c with gen := 0 }) ∧
          d = s.dev.updQueue c.q fun q => { q with accepted := q.accepted.tail, stale := q.stale - 1 }) →
        (tciLen op = none → run = d.answer o .badOpcode) ∧
        (∀ lo hi, tciLen op = some (lo, hi) →
          (c.rsvd ≠ 0 → run = d.answer o .badOperand) ∧
          (c.rsvd = 0 → c.words.length < lo ∨ hi < c.words.length ∨ (op = 0x62 ∧ c.words.length ≠ commitLen c.words) →
            run = d.answer o .badOperand) ∧
          (c.rsvd = 0 → lo ≤ c.words.length → c.words.length ≤ hi → (op = 0x62 → c.words.length = commitLen c.words) →
            let allowed := (tciClass op c.words).permits s.otp.state
            let denied := tciModeDenied op c.words s.dev.mode.mode
            (allowed = false → run = d.answer o .lifecycleDenied) ∧
            (allowed = true → denied = true → run = d.answer o .modeDenied) ∧
            (allowed = true → denied = false → tciReserved op c.words = true → run = d.answer o .badOperand) ∧
            (allowed = true → denied = false → tciReserved op c.words = false → s.dev.lcyBusy op c = true →
              run = d.answer o .busy) ∧
            (allowed = true → denied = false → tciReserved op c.words = false → s.dev.lcyBusy op c = false → run = f o d))))

/-- R325, R326, R316: a quiet completion with OK posts nothing and leaves flight; one of a command accepted before a PCIe reset leaves
flight and is counted in CMD_LOST, which stops at its maximum; every other waits at the end of its queue's completions with its
tag, opcode, status and data. Nothing else changes. -/
def Sys2Proof.Stated.Completions : Prop :=
  ∀ (d : Dev) (o : Owner) (st : Status) (a b : Word),
    let leaves := d.updQueue o.q fun q => { q with inflight := q.inflight - 1 }
    (o.quiet = true ∧ st = .ok → d.complete o st a b = leaves) ∧
    (o.quiet = false ∨ st ≠ .ok → o.gen ≠ d.cmd.gen → d.complete o st a b =
      { leaves with cmd := { leaves.cmd with lost := if d.cmd.lost = 0xFFFFFFFF#32 then d.cmd.lost else d.cmd.lost + 1 } }) ∧
    (o.quiet = false ∨ st ≠ .ok → o.gen = d.cmd.gen → d.complete o st a b = d.setQueue o.q { d.queue o.q with
      done := (d.queue o.q).done ++
        [{ tag := o.tag, op := o.op, status := st, data0 := a, data1 := b, notify := o.notify }] })

/-- Table 14-5: the SYS commands answer OK: NOP without data, INFO with the identity and the life-cycle state and mode, GCI
with the present short stamp, ECHO with its two operands. -/
def Sys2Proof.Stated.SysCommands : Prop :=
  ∀ (s : State) (c : Tci) (o : Owner) (d : Dev),
    (s.Accepts 0x00 c o d → exec (.sysNop c) s = .next { s with dev := d.answer o .ok }) ∧
    (s.Accepts 0x01 c o d → exec (.sysInfo c) s =
      .next { s with dev := d.complete o .ok idcode (BitVec.ofNat 32 (s.otp.state * 256 + s.dev.mode.mode)) }) ∧
    (s.Accepts 0x02 c o d → exec (.sysGci c) s = .next { s with dev := d.complete o .ok d.stamp.lo d.stamp.hi }) ∧
    (s.Accepts 0x03 c o d → exec (.sysEcho c) s = .next { s with dev := d.complete o .ok (c.w 1) (c.w 2) })

/-- Completions, and the SYS commands. -/
def Obligations.CompletionsAndSys : Prop :=
  Sys2Proof.Stated.Completions ∧ Sys2Proof.Stated.SysCommands

/-- R320, R326: a write of CMD_CQ_TAIL or CMD_RQ_HEAD that stays within its ring moves the pointer; any other leaves it and sets
DBERR or WERR. -/
def Sys2Proof.Stated.RingPointers : Prop :=
  ∀ (s : State) (q : Fin 4) (w : Word), s.dev.live = true →
    let x := s.dev.queue q
    let new := BitVec.ofNat 24 w.toNat
    let only (y : Queue) := (.next { s with dev := s.dev.setQueue q y } : Host.Outcome State Fault Refusal)
    ((new - x.cqHead).toNat ≤ x.cqSize → (x.cqTail - x.cqHead).toNat ≤ (new - x.cqHead).toNat →
      exec (.doorbell q w) s = only { x with cqTail := new }) ∧
    (x.cqSize < (new - x.cqHead).toNat ∨ (new - x.cqHead).toNat < (x.cqTail - x.cqHead).toNat →
      exec (.doorbell q w) s = only { x with dberr := true }) ∧
    ((x.rqTail - new).toNat ≤ (x.rqTail - x.rqHead).toNat → exec (.rqHeadWrite q w) s = only { x with rqHead := new }) ∧
    ((x.rqTail - x.rqHead).toNat < (x.rqTail - new).toNat → exec (.rqHeadWrite q w) s = only { x with werr := true })

/-- R319, R324, Table 14-11: CMD_CQ_CTL with sizes out of range, or with another location or size while the queue is not DISABLED with
nothing in flight, sets WERR and changes nothing else. Any other write takes location, sizes and EN, and enables or disables the
queue; a HALTED queue stays HALTED. CQ_RESET of a queue whose EN is 0 sets CQ_HEAD and CQ_TAIL to 0 and the queue to DISABLED;
with EN it sets WERR. -/
def Sys2Proof.Stated.QueueControl : Prop :=
  ∀ (s : State) (q : Fin 4) (w : Word), s.dev.live = true →
    let x := s.dev.queue q
    let only (y : Queue) := (.next { s with dev := s.dev.setQueue q y } : Host.Outcome State Fault Refusal)
    let sized : Prop := 4 ≤ fld w 8 5 ∧ fld w 8 5 ≤ 16 ∧ 10 ≤ fld w 0 5 ∧ fld w 0 5 ≤ 20
    let free : Prop := (x.state = .disabled ∧ x.inflight = 0) ∨ (bit w 30 = x.loc ∧ fld w 8 5 = x.rqLog2 ∧ fld w 0 5 = x.cqLog2w)
    let y : Queue := { x with
      loc := bit w 30
      rqLog2 := fld w 8 5
      cqLog2w := fld w 0 5
      en := bit w 31
      state := if bit w 31 then (if x.state = .disabled then .run else x.state) else if x.state = .halted then .halted else .disabled }
    (¬ sized ∨ ¬ free → exec (.cqCtlWrite q w) s = only { x with werr := true }) ∧
    (sized → free → bit w 29 = false → exec (.cqCtlWrite q w) s = only y) ∧
    (sized → free → bit w 29 = true → bit w 31 = true → exec (.cqCtlWrite q w) s = only { y with werr := true }) ∧
    (sized → free → bit w 29 = true → bit w 31 = false →
      exec (.cqCtlWrite q w) s = only { y with cqHead := 0, cqTail := 0, state := .disabled, hstatus := .ok }) ∧
    (4 ≤ x.rqLog2 → x.rqLog2 ≤ 16 → 10 ≤ x.cqLog2w → x.cqLog2w ≤ 20 →
      (x.en = false → exec (.cqReset q) s = only { x with cqHead := 0, cqTail := 0, state := .disabled, hstatus := .ok }) ∧
      (x.en = true → exec (.cqReset q) s = only { x with
        state := if x.state = .disabled then .run else x.state
        werr := true }))

/-- The rings and the control of the command queues. -/
def Obligations.QueueRings : Prop :=
  Sys2Proof.Stated.RingPointers ∧ Sys2Proof.Stated.QueueControl

/-- R323, R324, R318, R327: the Steward takes the command at the head of the ring whose turn it is: a whole command of a known opcode and
length joins the accepted ones and CQ_HEAD moves past it; an unknown opcode is answered BAD_OPCODE and a LENGTH that its
opcode does not have BAD_OPERAND; a LENGTH that cannot fit halts the queue with BAD_LENGTH, and so does a fetch that fails, with
the status of the failure. Out of turn and during a restart nothing is fetched. -/
def Sys2Proof.Stated.CommandFetch : Prop :=
  ∀ (s : State) (q : Fin 4) (r : Dma), s.dev.live = true →
    (s.dev.stw.restarting = true ∨ s.dev.turn ≠ some q.val → exec (.commandFetch q r) s = .next s) ∧
    (s.dev.stw.restarting = false → s.dev.turn = some q.val →
    let x := s.dev.queue q
    let h := s.dev.cqWord q x.cqHead.toNat
    let len := fld h 0 16
    let op := fld h 24 8
    let d0 : Dev := { s.dev with cmd := { s.dev.cmd with last := q } }
    let c : Tci := {
      q := q, tag := s.dev.cqWord q (x.cqHead.toNat + 1), notify := bit h 18, quiet := bit h 17, fence := bit h 16
      rsvd := BitVec.ofNat 5 (fld h 19 5)
      words := (List.range len).map fun i => s.dev.cqWord q (x.cqHead.toNat + 2 + i) }
    let taken (y : Queue) := d0.setQueue q { y with cqHead := x.cqHead + BitVec.ofNat 24 (2 + len), inflight := x.inflight + 1 }
    (x.loc = false → r ≠ .done → exec (.commandFetch q r) s = .next { s with
      dev := (({ d0 with cmd := { d0.cmd with aer := d0.cmd.aer ||| aerBit r } } : Dev).fire 251
        (payload (dmaStatus r) 3 q)).haltQueue q (dmaStatus r) }) ∧
    (x.loc = true ∨ r = .done → 4095 < len ∨ x.cqSize < 2 + len → exec (.commandFetch q r) s = .next { s with
      dev := (d0.setQueue q { x with
        cqHead := x.cqHead + 2
        haltTag := c.tag
        inflight := x.inflight + 1
        done := x.done ++ [{ tag := c.tag, op := op, status := .badLength, notify := c.notify }] }).haltQueue q .badLength }) ∧
    (x.loc = true ∨ r = .done → len ≤ 4095 → 2 + len ≤ x.cqSize →
      (tciLen op = none → exec (.commandFetch q r) s = .next { s with dev := (taken x).answer (d0.ownerOf op c) .badOpcode }) ∧
      ∀ lo hi, tciLen op = some (lo, hi) →
        (c.rsvd = 0 → lo ≤ len → len ≤ hi →
          exec (.commandFetch q r) s = .next { s with dev := taken { x with accepted := x.accepted ++ [(op, c)] } }) ∧
        (c.rsvd ≠ 0 ∨ len < lo ∨ hi < len →
          exec (.commandFetch q r) s = .next { s with dev := (taken x).answer (d0.ownerOf op c) .badOperand })) ∧
    (∀ (d : Dev) (st : Status), d.haltQueue q st =
      (d.setQueue q { d.queue q with state := .halted, hstatus := st }).fire 252 (payload .halted 1 q)))

/-- R325, R326, R318, R328, Table 14-2: a posted response carries tag, status, opcode, phase and data to the next place of its ring, in
the response window or in host memory; RQ_TAIL advances, and the response leaves flight. A full response ring, a ring in
host memory while Bus Master Enable is 0, and a Steward restart post nothing. A notification that is due clears the count of responses
since the last, and fires EV254. -/
def Sys2Proof.Stated.ResponsePost : Prop :=
  ∀ (s : State) (q : Fin 4), s.dev.live = true →
    let x := s.dev.queue q
    let place := x.rqTail.toNat % x.rqSize
    (∀ c rest, x.done = c :: rest → s.dev.stw.restarting = false → x.rqFull = false → x.loc = true ∨ s.dev.cmd.bme = true →
      ∃ d : Dev, exec (.responsePost q) s = .next { s with dev := d } ∧
        (d.queue q).rqTail = x.rqTail + 1 ∧ (d.queue q).done = rest ∧ (d.queue q).inflight = x.inflight - 1 ∧
        (d.queue q).rqHead = x.rqHead ∧ (d.queue q).accepted = x.accepted ∧ (d.queue q).state = x.state ∧
        (∀ j, j ≠ q.val → d.queue j = s.dev.queue j) ∧ d.eng = s.dev.eng ∧ d.tim = s.dev.tim ∧ d.fcp = s.dev.fcp ∧
        (let word (k : Nat) := if x.loc then Store.get (fun _ => 0) (d.queue q).rqWin (4 * place + k)
          else rd32 d.cmd.hostMem (x.rqBase.toNat + 16 * place + 4 * k)
         word 0 = c.tag ∧ word 2 = c.data0 ∧ word 3 = c.data1 ∧ fld (word 1) 24 8 = c.status.code ∧
           fld (word 1) 16 8 = c.op % 256 ∧ fld (word 1) 0 16 = 1 - x.rqTail.toNat / x.rqSize % 2) ∧
        (x.loc = true → d.cmd.hostMem = s.dev.cmd.hostMem)) ∧
    (x.done = [] ∨ s.dev.stw.restarting = true ∨ x.rqFull = true ∨ (x.loc = false ∧ s.dev.cmd.bme = false) →
      exec (.responsePost q) s = .next s) ∧
    (x.unnotified = 0 → exec (.notifyTimer q) s = .next s) ∧
    (x.unnotified ≠ 0 → exec (.notifyTimer q) s = .next { s with
      dev := (s.dev.setQueue q { x with unnotified := 0 }).fire 254 (payload .ok 1 (2 ^ q.val)) })

/-- Fetching commands and posting responses. -/
def Obligations.FetchAndPost : Prop :=
  Sys2Proof.Stated.CommandFetch ∧ Sys2Proof.Stated.ResponsePost

/-- R317, R318, R316: a write of an MSI-X entry sets the word that it names. Whatever changes the entries, Bus Master Enable or the function
mask, every pending vector that neither is masked nor lacks Bus Master Enable then sends its message and loses its pending bit. A
PCIe reset masks every vector, clears the pending bits, takes the link's new width and speed, empties the queues' rings and
counts the responses that will not be posted; the accepted commands stay. -/
def Obligations.PcieFunction : Prop :=
  ∀ (s : State), s.dev.live = true →
    (∀ (v : Fin 256) (r : Fin 4) (w : Word),
      let x := Store.get msixReset s.dev.cmd.msix v
      let y : MsixVec := if r = 0 then { x with addrLo := w } else if r = 1 then { x with addrHi := w }
        else if r = 2 then { x with data := w } else { x with masked := bit w 0 }
      exec (.msixTableWrite v r w) s = .next { s with
        dev := ({ s.dev with cmd := { s.dev.cmd with msix := Store.put msixReset s.dev.cmd.msix v y } } : Dev).flushVectors }) ∧
    (∀ bme mask, s.dev.noc.held = [] → s.dev.nvs.jobs = [] → s.dev.nvs.waiting = [] → exec (.busMasterEnable bme mask) s = .next { s with
      dev := ({ s.dev with cmd := { s.dev.cmd with bme := bme, funcMask := mask } } : Dev).flushVectors }) ∧
    (∀ d : Dev,
      let goes (n : Nat) : Bool :=
        bit d.cmd.pba n && !(Store.get msixReset d.cmd.msix n).masked && !d.cmd.funcMask && d.cmd.bme
      (∀ n : Fin 256, bit d.flushVectors.cmd.pba n = (bit d.cmd.pba n && !goes n)) ∧
      d.flushVectors.cmd.messages = d.cmd.messages ++ ((List.range 256).filter goes).map (fun n =>
        let v := Store.get msixReset d.cmd.msix n
        { vector := n, addr := dword v.addrLo v.addrHi, data := v.data }) ∧
      d.flushVectors = { d with cmd := { d.cmd with pba := d.flushVectors.cmd.pba, messages := d.flushVectors.cmd.messages } }) ∧
    (∀ link, ∃ d, exec (.pcieReset link) s = .next { s with dev := d } ∧ d.cmd.pba = 0 ∧
      d = { s.dev with cmd := d.cmd } ∧ d.cmd.hostMem = s.dev.cmd.hostMem ∧
      d.cmd.gen = s.dev.cmd.gen + 1 ∧ (∀ v, (Store.get msixReset d.cmd.msix v).masked = true) ∧
      (∀ w v, link = some (w, v) → d.cmd.linkWidth.toNat = 2 ^ w.val % 16 ∧ d.cmd.linkSpeed.toNat = v.val + 1) ∧
      d.cmd.lost.toNat = min 0xFFFFFFFF (s.dev.cmd.lost.toNat +
        ((s.dev.queue 0).done.length + (s.dev.queue 1).done.length + (s.dev.queue 2).done.length + (s.dev.queue 3).done.length)) ∧
      ∀ q : Fin 4, (d.queue q).accepted = (s.dev.queue q).accepted ∧ (d.queue q).done = [] ∧
        (d.queue q).state = .disabled ∧ (d.queue q).cqHead = 0 ∧ (d.queue q).rqTail = 0)
/-! ## Fail capture and repair analysis (08_fail_capture.md, 09_repair_analysis.md) -/

/-- R189, R190, R191: in COUNT mode the oldest failing vector of a collector adds to its channels' counters; otherwise, with room in the
FIFO, its entry joins it. In compaction it is counted for its source instead, with the ECLK of the first and the last and the
channels that failed; a full FIFO starts compaction and raises EV64 + k with reason 1. Nothing but the collector and that event
changes, and without a power domain nothing does. -/
def Sys2Proof.Stated.FailEntries : Prop :=
  ∀ (s : State) (k : Fin 8) (n t : Nat) (xa ya : BitVec 24) (m : BitVec 8) (cyc : BitVec 26) (rest : List FcItem), s.dev.live = true →
    s.dev.domOn pdFat = true → (s.dev.collector k).inq = .fail n t xa ya m cyc :: rest → (∀ i ∈ rest, i.isFail = true) →
    (∀ j r, (s.dev.collector k).fifo.head? ≠ some (.close j r)) →
    let x := s.dev.collector k
    let u := x.source n
    let only (y : Collector) := (.next { s with dev := s.dev.setCollector k y } : Host.Outcome State Fault Refusal)
    let compacted (y : Collector) : Prop := y = { x with inq := rest, compact := y.compact, ovf := satAdd 0xFFFFFFFF x.ovf 1, src := y.src } ∧
      y.compact = true ∧ (∀ j, j ≠ n → y.source j = x.source j) ∧
      y.source n = { u with
        count := satAdd 0xFFFFFFFF u.count 1
        first := if u.count = 0 then cyc else u.first
        last := cyc
        chmask := u.chmask ||| m }
    (s.dev.fcp.mode ≠ .count → x.compact = false → x.level < 4096 → exec (.failEntry k) s =
      only { x with inq := rest, fifo := x.fifo ++ [.entry (failEntry k n xa ya m cyc) u.region false] }) ∧
    (s.dev.fcp.mode ≠ .count → x.compact = true → ∃ y, exec (.failEntry k) s = only y ∧ compacted y) ∧
    (s.dev.fcp.mode ≠ .count → x.compact = false → 4096 ≤ x.level →
      ∃ d y, exec (.failEntry k) s = .next { s with dev := d } ∧ d.collector k = y ∧ compacted y ∧
        (∀ j, j ≠ k.val → d.collector j = s.dev.collector j) ∧ d.fcp.fat = s.dev.fcp.fat ∧ d.eng = s.dev.eng ∧ d.tim = s.dev.tim ∧
        ((s.dev.evtCfg (64 + k.val)).en = true → fld (d.evtLast (64 + k.val)).payload 16 8 = 1)) ∧
    (s.dev.fcp.mode = .count → ∃ y, exec (.failEntry k) s = only y ∧ y = { x with inq := rest, cnt := y.cnt } ∧
      ∀ i, i < 8 →
        let old : FcCount := Store.get (fun _ => {}) x.cnt i
        Store.get (fun _ => {}) y.cnt i = if bit m i then
          { fvec := satAdd 0xFFFFFFFF old.fvec 1, first := if old.fvec = 0 then cyc else old.first, last := cyc } else old)

/-- R193: a collector in compaction whose FIFO has fallen below half leaves it and raises EV64 + k with reason 2; otherwise
nothing happens. -/
def Sys2Proof.Stated.CompactionEnds : Prop :=
  ∀ (s : State) (k : Fin 8), s.dev.live = true →
    (s.dev.domOn pdFat = true → (s.dev.collector k).compact = true → (s.dev.collector k).level < 2048 →
      ∃ d, exec (.compactionExit k) s = .next { s with dev := d } ∧ (d.collector k).compact = false ∧
        (∀ n, n < 64 → ((d.collector k).source n).count = 0) ∧
        ((s.dev.evtCfg (64 + k.val)).en = true → fld (d.evtLast (64 + k.val)).payload 16 8 = 2) ∧
        (∀ j, j ≠ k.val → d.collector j = s.dev.collector j) ∧ d.eng = s.dev.eng ∧ d.tim = s.dev.tim) ∧
    (s.dev.domOn pdFat = false ∨ (s.dev.collector k).compact = false ∨ 2048 ≤ (s.dev.collector k).level →
      exec (.compactionExit k) s = .next s)

/-- A collector takes fail entries, and leaves compaction. -/
def Obligations.FailEntries : Prop :=
  Sys2Proof.Stated.FailEntries ∧ Sys2Proof.Stated.CompactionEnds

/-- R185, R186, R61: the FAT takes the entry at the head of a collector that presents one: in APPEND mode it stands at the write
pointer, which moves on, and a write that fills the ring raises EV72; with the ring full nothing is taken. Nothing is taken while
a mode selection clears the table, in OM0 and OM7, and in MERGE mode outside OM3. -/
def Sys2Proof.Stated.FatIngestAppend : Prop :=
  ∀ (s : State) (k : Fin 8) (present : List Nat), s.dev.live = true →
    (s.dev.fcp.clearing = true ∨ s.dev.domOn pdFat = false ∨ s.dev.mode.mode = 0 ∨ s.dev.mode.mode = 7 ∨
      (s.dev.fcp.mode = .mergeMode ∧ s.dev.mode.mode ≠ 3) → exec (.fatIngest present) s = .next s) ∧
    (∀ (e : BitVec 120) (r : Option Nat) (v : Bool) (rest : List FcEntry), s.dev.domOn pdFat = true → s.dev.fcp.clearing = false →
      s.dev.mode.mode ≠ 0 → s.dev.mode.mode ≠ 7 → s.dev.fcp.mode = .append →
      (∀ j, j < 8 → present.getD j 0 = if j = k.val then 1 else 0) →
      (s.dev.collector k).fifo = .entry e r v :: rest → (∀ j q, rest.head? ≠ some (.close j q)) →
      (s.dev.fcp.ringFull = false → ∃ d, exec (.fatIngest present) s = .next { s with dev := d } ∧
        d.fatEntry (s.dev.fcp.wptr.toNat % 2 ^ 21) = e ∧ d.fatBad (s.dev.fcp.wptr.toNat % 2 ^ 21) = 0 ∧
        d.fcp.wptr = s.dev.fcp.wptr + 1 ∧ d.fcp.rptr = s.dev.fcp.rptr ∧
        d.collector k = { s.dev.collector k with fifo := rest } ∧ (∀ j, j ≠ k.val → d.collector j = s.dev.collector j) ∧
        (∀ i, i ≠ s.dev.fcp.wptr.toNat % 2 ^ 21 → d.fatEntry i = s.dev.fatEntry i ∧ d.fatBad i = s.dev.fatBad i) ∧
        (d.fcp.held = 2 ^ 21 → (s.dev.evtCfg 72).en = true → fld (d.evtLast 72).payload 16 8 = 1) ∧
        d.fcp.src = s.dev.fcp.src ∧ d.rae = s.dev.rae ∧ d.eng = s.dev.eng ∧ d.tim = s.dev.tim) ∧
      (s.dev.fcp.ringFull = true → ∃ d, exec (.fatIngest present) s = .next { s with dev := d } ∧
        d = { s.dev with fcp := { s.dev.fcp with lastFirst := d.fcp.lastFirst } }))

/-- R187, R188, R194: in MERGE mode in OM3 a fail outside any block is counted in FCP_NOBLK and stored nowhere; a fail of a region goes to
its start bucket: it is merged into the slot that matches it, or takes the first empty slot, and no other entry changes. An
entry that is neither a fail nor an OVF is stored nowhere. -/
def Sys2Proof.Stated.FatIngestMerge : Prop :=
  ∀ (s : State) (k : Fin 8) (present : List Nat) (e : BitVec 120) (region : Option Nat) (v : Bool) (rest : List FcEntry),
    s.dev.live = true → s.dev.domOn pdFat = true → s.dev.fcp.clearing = false → s.dev.mode.mode = 3 → s.dev.fcp.mode = .mergeMode →
    (∀ j, j < 8 → present.getD j 0 = if j = k.val then 1 else 0) →
    (s.dev.collector k).fifo = .entry e region v :: rest → (∀ j q, rest.head? ≠ some (.close j q)) →
    let b := bucketOf e
    let s0 := s.dev.fatEntry (2 * b)
    let s1 := s.dev.fatEntry (2 * b + 1)
    ∃ d, exec (.fatIngest present) s = .next { s with dev := d } ∧ d.collector k = { s.dev.collector k with fifo := rest } ∧
      d.fcp.wptr = s.dev.fcp.wptr ∧ d.fcp.rptr = s.dev.fcp.rptr ∧ d.fcp.src = s.dev.fcp.src ∧ d.rae = s.dev.rae ∧
      d.eng = s.dev.eng ∧ d.tim = s.dev.tim ∧
      (feType e = 1 → region = none → d.fcp.fat = s.dev.fcp.fat ∧ d.fcp.noblkCnt = satAdd 0xFFFFFFFF s.dev.fcp.noblkCnt 1) ∧
      (feType e ≠ 1 → d.fcp.fat = s.dev.fcp.fat) ∧
      (∀ r, feType e = 1 → region = some r → s.dev.fatBad (2 * b) = 0 → s.dev.fatBad (2 * b + 1) = 0 →
        (mergeMatch r e s0 = true → d.fatEntry (2 * b) = mergeInto e s0 ∧ ∀ i, i ≠ 2 * b → d.fatEntry i = s.dev.fatEntry i) ∧
        (mergeMatch r e s0 = false → mergeMatch r e s1 = true →
          d.fatEntry (2 * b + 1) = mergeInto e s1 ∧ ∀ i, i ≠ 2 * b + 1 → d.fatEntry i = s.dev.fatEntry i) ∧
        (mergeMatch r e s0 = false → mergeMatch r e s1 = false → feType s0 = 0 →
          d.fatEntry (2 * b) = mergeNew r e ∧ ∀ i, i ≠ 2 * b → d.fatEntry i = s.dev.fatEntry i) ∧
        (mergeMatch r e s0 = false → mergeMatch r e s1 = false → feType s0 ≠ 0 → feType s1 = 0 →
          d.fatEntry (2 * b + 1) = mergeNew r e ∧ ∀ i, i ≠ 2 * b + 1 → d.fatEntry i = s.dev.fatEntry i))

/-- R198, R199, R200, Table 3-3: FCP_MODE with idle collectors selects the mode, empties the FAT, its counters, the collectors and the
pointers, drops the region states and holds its answer until the clear ends; a mode above 2 is BAD_OPERAND, MERGE beside a staged
change to a mode that has none is MODE_DENIED, and a running clear or a busy collector is BUSY. FAT_CLEAR_DONE ends the clear,
raises EV75 with the mode and answers. FCP_RPTR takes a value between the pointers and drops any other. -/
def Sys2Proof.Stated.FatModeAndClear : Prop :=
  (∀ (s : State) (c : Tci) (o : Owner) (d0 : Dev), s.AcceptsAt pdFat 0x40 c o d0 →
    let n := (c.w 1).toNat
    let allowed : Prop := n = 1 → ∀ m, s.dev.pendMode = some m → m = 0 ∨ m = 3 ∨ m = 7
    let busy : Prop := s.dev.fcp.clearing = true ∨ s.dev.collectorsIdle = false
    (2 < n → exec (.fcpMode c) s = .next { s with dev := d0.answer o .badOperand }) ∧
    (n ≤ 2 → ¬ allowed → exec (.fcpMode c) s = .next { s with dev := d0.answer o .modeDenied }) ∧
    (n ≤ 2 → allowed → busy → exec (.fcpMode c) s = .next { s with dev := d0.answer o .busy }) ∧
    (n ≤ 2 → allowed → ¬ busy →
      ∃ d, exec (.fcpMode c) s = .next { s with dev := d } ∧ d.fcp.mode = fatModeOf n ∧ d.fcp.fat = [] ∧
        d.fcp.bad = [] ∧ d.fcp.wptr = 0 ∧ d.fcp.rptr = 0 ∧ d.fcp.rloss = 0 ∧ d.fcp.mlossCnt = 0 ∧ d.fcp.noblkCnt = 0 ∧
        (∀ k, d.collector k = {}) ∧ d.fcp.clearing = true ∧ d.fcp.clrBusy = some o ∧ d.rae.queue = [] ∧
        (∀ r, d.region r = {}) ∧ (∀ n, (d.source n).region = none) ∧ d.rae.desc = s.dev.rae.desc ∧
        d.cmd = d0.cmd ∧ d.eng = s.dev.eng ∧ d.tim = s.dev.tim)) ∧
  (∀ (s : State), s.dev.live = true →
    (s.dev.fcp.clearing = false → exec .fatClearDone s = .next s) ∧
    (s.dev.fcp.clearing = true →
      let d := ({ s.dev with fcp := { s.dev.fcp with clearing := false, clrBusy := none } } : Dev).fire 75
        (payload .ok 1 s.dev.fcp.mode.code)
      (∀ o, s.dev.fcp.clrBusy = some o → exec .fatClearDone s = .next { s with dev := d.answer o .ok }) ∧
      (s.dev.fcp.clrBusy = none → exec .fatClearDone s = .next { s with dev := d }))) ∧
  (∀ (s : State) (w : Word), s.Writable pdFat →
    let new := BitVec.ofNat 22 w.toNat
    (s.dev.fcp.mode = .append → s.dev.fcp.clearing = false → (s.dev.fcp.wptr - new).toNat ≤ s.dev.fcp.held →
      exec (.fcpRptrWrite w) s = .next { s with dev := { s.dev with fcp := { s.dev.fcp with rptr := new } } }) ∧
    (s.dev.fcp.mode ≠ .append ∨ s.dev.fcp.clearing = true ∨ s.dev.fcp.held < (s.dev.fcp.wptr - new).toNat →
      exec (.fcpRptrWrite w) s = .next { s with dev := { s.dev with fcp := { s.dev.fcp with werr := true } } }))

/-- R197, R184, R318, R344: FCP_READ of n entries, from an index that it names or from the read pointer, puts the 16 bytes of each into host
memory from the address that W3 and W4 name on, answers the count of entries and of uncorrectable ones, moves the read pointer
past them where it says so, and changes no other byte of host memory and no entry. A DMA that fails ends the command with its
status, and without a free channel or Bus Master Enable the command waits. -/
def Sys2Proof.Stated.FatRead : Prop :=
  ∀ (s : State) (c : Tci) (o : Owner) (d0 : Dev) (x : Dma), s.AcceptsAt pdFat 0x41 c o d0 →
    let adv := bit (c.w 1) 31
    let fromPtr := bit (c.w 1) 30
    let n := fld (c.w 2) 0 22
    let a := (c.w64 3).toNat
    let start := if fromPtr then s.dev.fcp.rptr.toNat % 2 ^ 21 else fld (c.w 1) 0 21
    let index (i : Nat) := (start + i) % 2 ^ 21
    fld (c.w 1) 21 9 = 0 → fld (c.w 2) 22 10 = 0 → n ≠ 0 → n ≤ 2 ^ 21 → a % 16 = 0 →
    (fromPtr = false → start + n ≤ 2 ^ 21) → (fromPtr = true ∨ adv = true → s.dev.fcp.mode = .append) →
    (adv = true → n ≤ s.dev.fcp.held) →
    (d0.freeChan = none ∨ s.dev.cmd.bme = false → exec (.fcpRead c x) s = .next { s with dev := d0.park c o }) ∧
    (d0.freeChan ≠ none → s.dev.cmd.bme = true → x ≠ .done → exec (.fcpRead c x) s = .next { s with dev := d0.dmaFail o x }) ∧
    (d0.freeChan ≠ none → s.dev.cmd.bme = true → x = .done → a + 16 * n ≤ 2 ^ 64 →
      ∃ d : Dev, exec (.fcpRead c x) s = .next { s with
          dev := d.complete o .ok (word n) (word ((List.range n).filter fun i => s.dev.fatBad (index i) == 2).length) } ∧
        (∀ i, i < n → rd128 d.cmd.hostMem (a + 16 * i) = s.dev.fatRead128 (index i)) ∧
        (∀ b, b < a ∨ a + 16 * n ≤ b → rd8 d.cmd.hostMem b = rd8 s.dev.cmd.hostMem b) ∧
        d.fcp.rptr = (if adv then s.dev.fcp.rptr + BitVec.ofNat 22 n else s.dev.fcp.rptr) ∧
        d.fcp.fat = s.dev.fcp.fat ∧ d.fcp.bad = s.dev.fcp.bad ∧ d.fcp.wptr = s.dev.fcp.wptr ∧ d.rae = s.dev.rae ∧
        d.eng = s.dev.eng ∧ d.tim = s.dev.tim)

/-- The fail address table: ingest, mode and clear, read. -/
def Obligations.FailTable : Prop :=
  Sys2Proof.Stated.FatIngestAppend ∧ Sys2Proof.Stated.FatIngestMerge ∧ Sys2Proof.Stated.FatModeAndClear ∧ Sys2Proof.Stated.FatRead

/-- R204, R205: when a region leaves CLOSING, so does every region of a smaller number that is in CLOSING with all its close points
delivered. Each is queued where its descriptor asks for automatic analysis in OM3 with MERGE mode, and is CLOSED otherwise; without
a valid descriptor, and with AUTO_EN set, EV79 tells it. Every other region keeps its state. -/
def Obligations.RegionCloses : Prop :=
  ∀ (s : State) (r : Fin 4096), s.dev.live = true →
    let leaves (j : Nat) : Prop := (s.dev.region j).st = .closing ∧ (s.dev.region j).waiting = []
    let auto (j : Nat) : Prop := dscValid (s.dev.desc j) = true ∧ dscAuto (s.dev.desc j) = true ∧ s.dev.rae.autoEn = true ∧
      s.dev.fcp.mode = .mergeMode ∧ s.dev.mode.mode = 3
    (¬ leaves r → exec (.regionClose r) s = .next s) ∧
    (leaves r →
      ∃ d, exec (.regionClose r) s = .next { s with dev := d } ∧
        (∀ j, j ≤ r.val → leaves j → auto j → d.region j = { s.dev.region j with st := .queued }) ∧
        (∀ j, j ≤ r.val → leaves j → ¬ auto j → d.region j = { s.dev.region j with st := .closed }) ∧
        (∀ j, r.val < j ∨ ¬ leaves j → d.region j = s.dev.region j) ∧
        (∀ j, j ∈ d.rae.queue ↔ j ∈ s.dev.rae.queue ∨ (j ≤ r.val ∧ leaves j ∧ auto j)) ∧
        s.dev.rae.queue <+: d.rae.queue ∧ (auto r → d.rae.queue.getLast? = some r.val) ∧
        (dscValid (s.dev.desc r) = false → s.dev.rae.autoEn = true → (s.dev.evtCfg 79).en = true →
          fld (d.evtLast 79).payload 0 16 = r.val) ∧
        ((∀ j, j ≤ r.val → leaves j → dscValid (s.dev.desc j) = true) ∨ s.dev.rae.autoEn = false → d.evt = s.dev.evt) ∧
        d.fcp = s.dev.fcp ∧ d.eng = s.dev.eng ∧ d.tim = s.dev.tim)

/-- R205, R206: RAE_ANALYSIS_START takes the region at the head of the queue, which becomes ACTIVE, while the engine is idle. GATHER_DONE
goes on to must-repair with the cells of the region's entries that have no uncorrectable error, each once, or writes a record
ERR_LEN_EXCEEDS once more than 65,536 are distinct. -/
def Sys2Proof.Stated.AnalysisBegins : Prop :=
  (∀ s : State, s.dev.live = true →
    (∀ r rest, s.dev.domOn pdFat = true → s.dev.rae.st = .idle → s.dev.rae.queue = r :: rest →
      let d : Dev := { s.dev with rae := { s.dev.rae with queue := rest, st := .gather, region := r, cur := some { region := r } } }
      exec .raeAnalysisStart s = .next { s with dev := d.updRegion r fun g => { g with st := .active } }) ∧
    (s.dev.domOn pdFat = false ∨ s.dev.rae.st ≠ .idle ∨ s.dev.rae.queue = [] → exec .raeAnalysisStart s = .next s)) ∧
  (∀ (s : State) (a : Analysis), s.dev.live = true → s.dev.domOn pdFat = true → s.dev.rae.cur = some a → s.dev.rae.st = .gather →
    ∃ d : Dev, exec .gatherDone s = .next { s with dev := d } ∧
      (∀ cs, s.dev.gathered a.region = some cs → d.rae = { s.dev.rae with
        st := .must
        cur := some { a with cells := cs, gathered := true, loss := bit d.fcp.rloss a.region } }) ∧
      (s.dev.gathered a.region = none → d.rae = { s.dev.rae with
        cur := none
        st := .write
        out := [{
          words := recordWords .errLenExceeds 3 (bit d.fcp.rloss a.region) false a.region 0 65537 {}
          status := .errLenExceeds, region := a.region, loss := bit d.fcp.rloss a.region, next := .done }] }) ∧
      (s.dev.fcp.bad = [] → d = { s.dev with rae := d.rae }) ∧ d.fcp.fat = s.dev.fcp.fat ∧ d.eng = s.dev.eng ∧ d.tim = s.dev.tim) ∧
  (∀ (d : Dev) (r : Nat) (cs : List (Nat × Nat)), d.gathered r = some cs →
    cs.length ≤ 65536 ∧ cs.Pairwise (fun x y => cellLt x y = true) ∧
    ∀ x, x ∈ cs ↔ ∃ e ∈ d.fcp.fat, d.fatBad e.1 ≠ 2 ∧ entryOf (d.desc r) r e.2 = true ∧ x ∈ entryCells (d.desc r) e.2)

/-- R207, R208, R209: must-repair ends with the record of the lines that it assigned where they cover every cell, with INFEASIBLE where it
fails or leaves more cells than the spares may cover, and goes on to the search otherwise. The search ends with the record of its
best solution, with TIMEOUT where the budget ran out before one was found, and with INFEASIBLE where there is none. -/
def Sys2Proof.Stated.RepairAnalysis : Prop :=
  ∀ (s : State) (a : Analysis), s.dev.live = true → s.dev.domOn pdFat = true → s.dev.rae.cur = some a →
    let w := s.dev.desc a.region
    let ends (st : Status) (outcome : Nat) (notopt : Bool) (nodes : Nat) (n : RaeNode) : Host.Outcome State Fault Refusal :=
      .next { s with dev := { s.dev with rae := { s.dev.rae with
        cur := none
        st := .write
        out := [{
          words := recordWords st outcome a.loss notopt a.region nodes a.cells.length n
          status := st, region := a.region, loss := a.loss, next := .done }] } } }
    (s.dev.rae.st = .must →
      let root := ({ sr := dscSpr w, sc := dscSpc w } : RaeNode).must a.cells true
      (root = none → exec .mustRepairDone s = ends .infeasible 1 false 0 {}) ∧
      (∀ n, root = some n → n.uncovered a.cells = [] → exec .mustRepairDone s = ends .ok 0 false 0 n) ∧
      (∀ n, root = some n → n.uncovered a.cells ≠ [] → 2 * n.sr * n.sc < (n.uncovered a.cells).length →
        exec .mustRepairDone s = ends .infeasible 1 false 0 {}) ∧
      (∀ n, root = some n → n.uncovered a.cells ≠ [] → (n.uncovered a.cells).length ≤ 2 * n.sr * n.sc →
        exec .mustRepairDone s = .next { s with dev := { s.dev with
          rae := { s.dev.rae with st := .search, cur := some { a with node := n } } } })) ∧
    (s.dev.rae.st = .search →
      let x := searchNodes a.cells (dscOpt w) (s.dev.budget w) (s.dev.budget w + 1) [a.node] {}
      (∀ n, x.best = some n → exec .searchDone s = ends .ok 0 x.expired x.nodes n) ∧
      (x.best = none → x.expired = true → exec .searchDone s = ends .timeout 2 false x.nodes {}) ∧
      (x.best = none → x.expired = false → exec .searchDone s = ends .infeasible 1 false x.nodes {}))

/-- R208: the search never claims a repair that is none: a solution that it finds covers every cell, with no more rows and
columns than the spares of its root. -/
def Obligations.SearchSound : Prop :=
  ∀ (cs : List (Nat × Nat)) (opt : Bool) (budget fuel : Nat) (root n : RaeNode),
    (searchNodes cs opt budget fuel [root] {}).best = some n →
    n.uncovered cs = [] ∧ n.rows.length + n.sr = root.rows.length + root.sr ∧ n.cols.length + n.sc = root.cols.length + root.sc

/-- R209, R210, R213, R318: a record with room in the enabled ring goes to host memory at the head, in ring order, with its SEQ; RHEAD moves by
its 16-byte units, its region takes its next state, EV76 tells it, and EV78 tells a loss. While Bus Master Enable is 0 it waits.
Without room or with the ring off the engine waits for the ring, and EV77 tells it once. -/
def Sys2Proof.Stated.RaeRecords : Prop :=
  ∀ (s : State) (o : RaeRecord) (rest : List RaeRecord), s.dev.live = true → s.dev.domOn pdFat = true → s.dev.rae.out = o :: rest →
    let r := s.dev.rae
    let n := o.words.length / 4
    let size := 2 ^ (r.log2u + 8)
    let room : Prop := r.ringEn = true ∧ (r.rhead - r.rtail).toNat + n ≤ size
    let place (i : Nat) := r.rbase.toNat + 16 * ((r.rhead.toNat + i) % size)
    (room → s.dev.cmd.bme = false → exec .recordWrite s = .next s) ∧
    (room → s.dev.cmd.bme = true → ∃ d, exec .recordWrite s = .next { s with dev := d } ∧
      d.rae.rhead = r.rhead + BitVec.ofNat 20 n ∧ d.rae.seq = r.seq + 1 ∧ d.rae.out = rest ∧
      d.rae.st = (if s.dev.mode.mode = 7 then .held else .idle) ∧ d.rae.queue = r.queue ∧ d.rae.rtail = r.rtail ∧
      (∀ i j, i < n → j < 4 → rd32 d.cmd.hostMem (place i + 4 * j) =
        if i = 0 ∧ j = 1 then o.words.getD 1 0 ||| word r.seq.toNat else o.words.getD (4 * i + j) 0) ∧
      (∀ b, (∀ i, i < n → b < place i ∨ place i + 16 ≤ b) → rd8 d.cmd.hostMem b = rd8 s.dev.cmd.hostMem b) ∧
      ((s.dev.region o.region).st = .active → (d.region o.region).st = o.next) ∧
      (∀ j, j ≠ o.region ∨ (s.dev.region o.region).st ≠ .active → d.region j = s.dev.region j) ∧
      ((s.dev.evtCfg 76).en = true → (d.evtLast 76).payload = payload o.status 1 o.region) ∧
      (o.loss = true → (s.dev.evtCfg 78).en = true → (d.evtLast 78).payload = payload .refused 1 o.region) ∧
      d.fcp = s.dev.fcp ∧ d.eng = s.dev.eng ∧ d.tim = s.dev.tim) ∧
    (¬ room → r.st = .ringWait → exec .recordWrite s = .next s) ∧
    (¬ room → r.st ≠ .ringWait → exec .recordWrite s = .next { s with
      dev := ({ s.dev with rae := { r with st := .ringWait } } : Dev).fire 77 (payload .busy 1 0) })

/-- R201, R202, R318, R344: RAE_LOAD stores the descriptors that it reads when every one is legal (else BAD_OPERAND) and no region of the
range is queued or active (else BUSY); RAE_READ returns the descriptors of its range. A range or an address that the rules
refuse is BAD_OPERAND, a DMA that fails ends the command, and without a free channel or Bus Master Enable the command waits. -/
def Sys2Proof.Stated.RaeDescriptors : Prop :=
  ∀ (s : State) (c : Tci) (x : Dma) (o : Owner) (d0 : Dev),
    let a := (c.w64 2).toNat
    (raeRange (c.w 1) = none ∨ a % 16 ≠ 0 →
      (s.AcceptsAt pdFat 0x50 c o d0 → exec (.raeLoad c x) s = .next { s with dev := d0.answer o .badOperand }) ∧
      (s.AcceptsAt pdFat 0x51 c o d0 → exec (.raeRead c x) s = .next { s with dev := d0.answer o .badOperand })) ∧
    ∀ first n, raeRange (c.w 1) = some (first, n) → a % 16 = 0 →
      let ws := (List.range n).map fun i => rd128 s.dev.cmd.hostMem (a + 16 * i)
      (d0.freeChan = none ∨ s.dev.cmd.bme = false →
        (s.AcceptsAt pdFat 0x50 c o d0 → exec (.raeLoad c x) s = .next { s with dev := d0.park c o }) ∧
        (s.AcceptsAt pdFat 0x51 c o d0 → exec (.raeRead c x) s = .next { s with dev := d0.park c o })) ∧
      (d0.freeChan ≠ none → s.dev.cmd.bme = true → x ≠ .done →
        (s.AcceptsAt pdFat 0x50 c o d0 → exec (.raeLoad c x) s = .next { s with dev := d0.dmaFail o x }) ∧
        (s.AcceptsAt pdFat 0x51 c o d0 → exec (.raeRead c x) s = .next { s with dev := d0.dmaFail o x })) ∧
      (d0.freeChan ≠ none → s.dev.cmd.bme = true → x = .done →
        (s.AcceptsAt pdFat 0x50 c o d0 →
          (ws.all dscOk = false → exec (.raeLoad c x) s = .next { s with dev := d0.answer o .badOperand }) ∧
          (ws.all dscOk = true → (∃ i, i < n ∧ (s.dev.region (first + i)).inUse = true) →
            exec (.raeLoad c x) s = .next { s with dev := d0.answer o .busy }) ∧
          (ws.all dscOk = true → (∀ i, i < n → (s.dev.region (first + i)).inUse = false) →
            ∃ d : Dev, exec (.raeLoad c x) s = .next { s with dev := d.answer o .ok } ∧
              d = { d0 with rae := { d0.rae with desc := d.rae.desc } } ∧
              (∀ i, i < n → d.desc (first + i) = rd128 s.dev.cmd.hostMem (a + 16 * i)) ∧
              (∀ j, j < first ∨ first + n ≤ j → d.desc j = s.dev.desc j))) ∧
        (s.AcceptsAt pdFat 0x51 c o d0 → a + 16 * n ≤ 2 ^ 64 →
          ∃ d : Dev, exec (.raeRead c x) s = .next { s with dev := d.answer o .ok } ∧
            d = { d0 with cmd := { d0.cmd with hostMem := d.cmd.hostMem } } ∧
            (∀ i, i < n → rd128 d.cmd.hostMem (a + 16 * i) = s.dev.desc (first + i)) ∧
            (∀ b, b < a ∨ a + 16 * n ≤ b → rd8 d.cmd.hostMem b = rd8 s.dev.cmd.hostMem b)))

/-- R205, R211, R209: RAE_START queues, in order, the regions of its range that are not queued or active; outside MERGE mode it is
MODE_DENIED, a range that does not exist or a region without a valid descriptor is BAD_OPERAND, and an open or closing
region is BUSY. RAE_ABORT closes what is queued, and ends a running analysis with an ABORTED record of its region, which is
CLOSED. -/
def Sys2Proof.Stated.RaeStartAbort : Prop :=
  (∀ (s : State) (c : Tci) (o : Owner) (d0 : Dev), s.AcceptsAt pdFat 0x52 c o d0 →
    let refuse (st : Status) := exec (.raeStart c) s = .next { s with dev := d0.answer o st }
    (raeRange (c.w 1) = none → refuse .badOperand) ∧
    ∀ first n, raeRange (c.w 1) = some (first, n) →
      let rs := (List.range n).map (first + ·)
      let opened (r : Nat) : Prop := (s.dev.region r).st = .opened ∨ (s.dev.region r).st = .closing
      (s.dev.fcp.mode ≠ .mergeMode → refuse .modeDenied) ∧
      (s.dev.fcp.mode = .mergeMode → (∃ r ∈ rs, dscValid (s.dev.desc r) = false) → refuse .badOperand) ∧
      (s.dev.fcp.mode = .mergeMode → (∀ r ∈ rs, dscValid (s.dev.desc r) = true) → (∃ r ∈ rs, opened r) → refuse .busy) ∧
      (s.dev.fcp.mode = .mergeMode → (∀ r ∈ rs, dscValid (s.dev.desc r) = true ∧ ¬ opened r) →
        ∃ d : Dev, exec (.raeStart c) s = .next { s with dev := d.answer o .ok } ∧
          d.rae.queue = s.dev.rae.queue ++ rs.filter (fun r => !(s.dev.region r).inUse) ∧
          (∀ r, d.region r = if r ∈ rs ∧ (s.dev.region r).inUse = false then { s.dev.region r with st := .queued } else s.dev.region r) ∧
          d = { d0 with rae := { d0.rae with queue := d.rae.queue, reg := d.rae.reg } })) ∧
  (∀ (s : State) (c : Tci) (o : Owner) (d0 : Dev), s.AcceptsAt pdFat 0x53 c o d0 →
    ∃ d : Dev, exec (.raeAbort c) s = .next { s with dev := d.answer o .ok } ∧ d.rae.queue = [] ∧ d.rae.cur = none ∧
      (∀ r, r ∈ s.dev.rae.queue → (d.region r).st = .closed) ∧
      (∀ a, s.dev.rae.cur = some a → (d.region a.region).st = .closed ∧
        ∃ y, d.rae.out = [y] ∧ y.status = .aborted ∧ y.region = a.region ∧ y.next = .closed ∧ d.rae.st = .write) ∧
      (s.dev.rae.cur = none → s.dev.rae.out = [] → d.rae.out = [] ∧ d.rae.st = s.dev.rae.st) ∧
      d.rae.desc = s.dev.rae.desc ∧ d.fcp = s.dev.fcp ∧ d.eng = s.dev.eng ∧ d.tim = s.dev.tim)

/-- R213, R214: the RAE's ring registers are written only while it is idle with an empty queue and an empty ring, and RAE_RSIZE takes no
size above 8; each such write puts both pointers to 0. RAE_RTAIL moves within what RHEAD has reached; RAE_CTL takes any budget but
zero. A dropped write sets WERR. -/
def Sys2Proof.Stated.RaeRegisters : Prop :=
  ∀ (s : State) (w : Word), s.Writable pdFat →
    let rae (r : RaeState) := (.next { s with dev := { s.dev with rae := r } } : Host.Outcome State Fault Refusal)
    let r := s.dev.rae
    let free : Prop := r.st = .idle ∧ r.queue = [] ∧ r.rhead = r.rtail
    (free → exec (.raeRingWrite 0 w) s =
      rae { r with rbase := dword (word (w.toNat / 4096 * 4096)) (hi32 r.rbase), rhead := 0, rtail := 0 }) ∧
    (free → exec (.raeRingWrite 1 w) s = rae { r with rbase := dword (lo32 r.rbase) w, rhead := 0, rtail := 0 }) ∧
    (free → fld w 0 4 ≤ 8 → exec (.raeRingWrite 2 w) s = rae { r with log2u := fld w 0 4, rhead := 0, rtail := 0 }) ∧
    (free → 8 < fld w 0 4 → exec (.raeRingWrite 2 w) s = rae { r with werr := true }) ∧
    (¬ free → ∀ k, exec (.raeRingWrite k w) s = rae { r with werr := true }) ∧
    ((r.rhead - BitVec.ofNat 20 w.toNat).toNat ≤ (r.rhead - r.rtail).toNat →
      exec (.raeRtailWrite w) s = rae { r with rtail := BitVec.ofNat 20 w.toNat }) ∧
    ((r.rhead - r.rtail).toNat < (r.rhead - BitVec.ofNat 20 w.toNat).toNat →
      exec (.raeRtailWrite w) s = rae { r with werr := true }) ∧
    (fld w 0 16 ≠ 0 → exec (.raeCtlWrite w) s =
      rae { r with ringEn := bit w 17, autoEn := bit w 16, defBudget := BitVec.ofNat 16 w.toNat }) ∧
    (fld w 0 16 = 0 → exec (.raeCtlWrite w) s = rae { r with werr := true })

/-- The repair analysis engine: phases, records, commands, registers. -/
def Obligations.RepairEngine : Prop :=
  Sys2Proof.Stated.AnalysisBegins ∧ Sys2Proof.Stated.RepairAnalysis ∧ Sys2Proof.Stated.RaeRecords ∧ Sys2Proof.Stated.RaeDescriptors ∧ Sys2Proof.Stated.RaeStartAbort ∧ Sys2Proof.Stated.RaeRegisters

/-! ## Beat, ramps and clocks (02_beat_and_gci.md, 16_clocking.md) -/

/-- R31, R34, R37: at a beat boundary at which nothing else is due the count moves on by one, ECLK 0 begins, and exactly the
engines that wait for this (EPOCH, GCI), unrefused and without a stop, go on: each fetches on ECLK floor(FRAC × N / 65,536). -/
def Obligations.BeatBoundary : Prop :=
  ∀ (s : State) (per : BitVec 24), s.dev.live = true → s.dev.Calm → s.dev.time.reload = none → s.dev.time.gci + 1 ≠ 0 →
    let t := s.dev.time
    let here : Target := { epoch := t.epoch, gci := t.gci + 1 }
    ∃ d, exec (.beatBoundary per) s = .next { s with dev := d } ∧ d.time.gci = t.gci + 1 ∧ d.time.epoch = t.epoch ∧
      d.time.eclk = 0 ∧ d.time.base = t.base + t.mult ∧ d.time.period = per ∧ d.time.mult = t.mult ∧ d.time.ticks = t.ticks + 1 ∧
      (∀ n, n < 64 → d.engine n =
        (let e := s.dev.engine n
         if e.st = .wait ∧ e.waitg.refused = false ∧ e.waitg.target = here ∧ e.stops = [] then
           { (e.leave (t.base + t.mult + e.waitg.frac.toNat * t.mult / 65536)) with late := none }
         else e)) ∧
      d.tim = s.dev.tim ∧ d.evt = s.dev.evt ∧ d.cmd = s.dev.cmd ∧ d.fcp = s.dev.fcp ∧ d.mode = s.dev.mode ∧ d.rae = s.dev.rae ∧
      d.fab = s.dev.fab ∧ d.clk = s.dev.clk ∧ d.byt = s.dev.byt

/-- R42, R43, R44, R45: where the boundary would reach the target of a reload, the count takes its new value in the next epoch instead,
and the reload is over. Where the count would pass its end with an automatic reload announced, or on the root, it starts again
at zero in the next epoch. Each new epoch raises EV158 with its number. -/
def Sys2Proof.Stated.CountReload : Prop :=
  ∀ (s : State) (per : BitVec 24), s.dev.live = true → s.dev.Calm →
    let epoch := s.dev.time.epoch + 1
    let enters (d : Dev) (g : BitVec 48) : Prop := d.time.gci = g ∧ d.time.epoch = epoch ∧ d.time.reload = none ∧
      d.time.autoAnnounced = false ∧ d.time.eclk = 0 ∧
      ((s.dev.evtCfg 158).en = true → (d.evtLast 158).payload = payload .ok 1 epoch.toNat)
    (∀ r, s.dev.time.reload = some r → r.target = s.dev.time.gci + 1 →
      ∃ d, exec (.beatBoundary per) s = .next { s with dev := d } ∧ enters d r.newGci) ∧
    (s.dev.time.reload = none → s.dev.time.gci + 1 = 0 → s.dev.time.autoAnnounced = true ∨ s.dev.time.role = .root →
      ∃ d, exec (.beatBoundary per) s = .next { s with dev := d } ∧ enters d 0)

/-- R44, R28, R31, R306, R388: the root announces the automatic reload in the last 65,536 counts, and nothing else does. At the end of
its role window a device with a clock at BEAT_IN is the root with address 0, counts, and is aligned where its TPLLs are locked,
and one without is downstream; a device with a role keeps it. A tick without a beat counts a waiting power request down by one
beat. -/
def Sys2Proof.Stated.CountRoles : Prop :=
  (∀ s : State, s.dev.live = true →
    let late : Prop := s.dev.time.role = .root ∧ s.dev.time.started = true ∧ 0xFFFFFFFF0000 ≤ s.dev.time.gci.toNat
    (late → exec .autoReloadAnnounce s = .next { s with dev := { s.dev with time := { s.dev.time with autoAnnounced := true } } }) ∧
    (¬ late → exec .autoReloadAnnounce s = .next s)) ∧
  (∀ (s : State) (clock : Bool), s.dev.live = true → s.dev.time.role ≠ .undetermined → exec (.roleWindowEnd clock) s = .next s) ∧
  (∀ s : State, s.dev.live = true → s.dev.time.role = .undetermined → s.dev.byt.port = [] →
    (∃ d, exec (.roleWindowEnd true) s = .next { s with dev := d } ∧
      d = { s.dev with
        time := { s.dev.time with role := .root, started := true, shown := true }
        byt := { s.dev.byt with
          jstate := .root, addr := 0, depth := 0, aligned := s.dev.tpllsLocked, dir := d.byt.dir } } ∧
      (d.dirEnt 0).present = true ∧ (d.dirEnt 0).uid = s.dev.byt.uid ∧ (∀ a, a ≠ 0 → d.dirEnt a = s.dev.dirEnt a)) ∧
    exec (.roleWindowEnd false) s = .next { s with dev := { s.dev with time := { s.dev.time with role := .downstream } } }) ∧
  (∀ (s : State) (r : PwrReq), s.dev.live = true → s.dev.pwr.reqs = [r] → r.slot = none → r.agreed = true →
    r.applied = false → 2 ≤ r.due → s.dev.cfg.suWait = none → s.dev.noc.held = [] →
    ∃ d, exec .noBeatTick s = .next { s with dev := d } ∧ d.pwr.reqs = [{ r with due := r.due - 1 }] ∧
      d.time = { s.dev.time with ticks := s.dev.time.ticks + 1 } ∧ d.eng = s.dev.eng ∧ d.tim = s.dev.tim ∧ d.cmd = s.dev.cmd)

/-- The count reloads, and the role is decided. -/
def Obligations.CountAndRole : Prop :=
  Sys2Proof.Stated.CountReload ∧ Sys2Proof.Stated.CountRoles

/-- R48, R50, R52: a ramp whose segment has run out goes on to the next, or ends before an END and after the sixteenth, and the hold-off
of 4,096 beats begins; a measured beat more than 0.5 % off the profile ends it with RAMP_DEV and EV125. R47, R49: a segment word of a
slot that no ramp holds is written by halves, and a write of a held slot only sets WERR. -/
def Obligations.Ramps : Prop :=
  ∀ s : State, s.dev.live = true →
    let t := s.dev.time
    let dur := segDur (s.dev.seg t.rampSlot t.rampSeg) + 1
    let next := segKind (s.dev.seg t.rampSlot (t.rampSeg + 1))
    let ended : Dev := { s.dev with
      time := { t with rampHz := s.dev.profileNow, rampActive := false, rampBeat := 0, holdoff := 4096 } }
    (t.rampActive = false ∨ t.rampBeat < dur → exec .rampSegmentEnd s = .next s) ∧
    (t.rampActive = true → dur ≤ t.rampBeat →
      (t.rampSeg ≠ 15 → next ≠ 2 → exec .rampSegmentEnd s =
        .next { s with dev := { s.dev with time := { t with rampSeg := t.rampSeg + 1, rampBeat := t.rampBeat - dur } } }) ∧
      (t.rampSeg = 15 ∨ next = 2 → exec .rampSegmentEnd s = .next { s with dev := ended })) ∧
    (∀ meas : BitVec 24,
      let want := 10 ^ 15 * s.dev.profileNow.2
      let got := meas.toNat * s.dev.profileNow.1
      (t.rampActive = true → want < 200 * (max want got - min want got) → exec (.rampDevCheck meas) s = .next { s with
        dev := ({ ended with time := { ended.time with rampDev := true } } : Dev).fire 125 (payload .aborted 1 t.rampSeg) }) ∧
      (t.rampActive = false ∨ 200 * (max want got - min want got) ≤ want → exec (.rampDevCheck meas) s = .next s)) ∧
    (∀ (k : Fin 2) (n : Fin 16) (hi : Bool) (v : Word),
      (s.dev.rampLocked k = false → ∃ d, exec (.clkRampSegWrite k n hi v) s = .next { s with dev := d } ∧
        d.seg k n = (if hi then dword (lo32 (s.dev.seg k n)) v else dword v (hi32 (s.dev.seg k n))) ∧
        d = { s.dev with time := { t with segs := d.time.segs } } ∧
        ∀ (k' : Fin 2) (n' : Fin 16), (k', n') ≠ (k, n) → d.seg k' n' = s.dev.seg k' n') ∧
      (s.dev.rampLocked k = true → exec (.clkRampSegWrite k n hi v) s =
        .next { s with dev := { s.dev with time := { t with rampWerr := true } } }))

/-- R358, R359, R360: a PLL whose last four windows differ by at most one count, and a DLL after TPLL0 whose last four phase errors are at
most two steps, is LOCKED, the PLL with the band and control word found, and fires its event; the first band search after reset
fills the band table, and the table stays. R358: a search without a lock fires EV120 and goes on. R368: a loop in holdover that
expires fires EV126. R369, R370: a reference that returns lets a PLL track and a DLL acquire again. Other loops keep their
state, and a finding that does not fit changes nothing. -/
def Sys2Proof.Stated.LoopsLock : Prop :=
  ∀ (s : State) (i : Fin 6), s.dev.live = true →
    let l := s.dev.loop i
    let others (d : Dev) : Prop := (∀ j, j ≠ i.val → d.loop j = s.dev.loop j) ∧ d.eng = s.dev.eng ∧ d.time = s.dev.time
    let small (n : Nat) (x : BitVec 8) : Prop := x.toInt.natAbs ≤ n
    let measured (table : List (BitVec 16)) (x : Loop) : Prop :=
      (l.searched = true → x.bandTable = l.bandTable) ∧ x.searched = true ∧
      (l.searched = false → ∀ k, k < 64 → Store.get (fun _ => 0) x.bandTable k = table.getD k 0)
    (∀ band cw d1 d2 d3 diff table,
      let fits : Prop := s.dev.kind i = 1 ∧ l.state ≠ .locked ∧ l.state ≠ .holdover ∧ small 1 d1 ∧ small 1 d2 ∧ small 1 d3 ∧ small 1 diff
      (fits → ∃ d, exec (.lock i band cw d1 d2 d3 diff table) s = .next { s with dev := d } ∧
        d.loop i = { l with
          state := .locked, band := band, cw := cw, diff := diff, everLocked := true, searched := true, bandTable := (d.loop i).bandTable } ∧
        measured table (d.loop i) ∧ others d ∧
        (i.val < 4 → (s.dev.evtCfg (116 + i)).en = true → (d.evtLast (116 + i)).payload = payload .ok 1 band.toNat) ∧
        (4 ≤ i.val → (s.dev.evtCfg 124).en = true → (d.evtLast 124).payload = payload .ok 1 i)) ∧
      (¬ fits → exec (.lock i band cw d1 d2 d3 diff table) s = .next s)) ∧
    (∀ d1 d2 d3 diff,
      let fits : Prop := s.dev.kind i = 2 ∧ l.state ≠ .locked ∧ (s.dev.loop 0).state = .locked ∧ small 2 d1 ∧ small 2 d2 ∧ small 2 d3 ∧
        small 2 diff
      (fits → ∃ d, exec (.dllLock i d1 d2 d3 diff) s = .next { s with dev := d } ∧
        d.loop i = { l with state := .locked, diff := diff } ∧ others d ∧
        ((s.dev.evtCfg (116 + i)).en = true → (d.evtLast (116 + i)).payload = payload .ok 1 l.band.toNat)) ∧
      (¬ fits → exec (.dllLock i d1 d2 d3 diff) s = .next s)) ∧
    (∀ table,
      let fits : Prop := s.dev.kind i = 1 ∧ (l.state = .search ∨ l.state = .acquire ∨ l.state = .off)
      (fits → ∃ x, exec (.bandFail i table) s = .next { s with dev := (s.dev.setLoop i x).fire 120 (payload .timeout 1 i) } ∧
        x = { l with state := .search, bsFail := true, searched := true, bandTable := x.bandTable } ∧ measured table x) ∧
      (¬ fits → exec (.bandFail i table) s = .next s)) ∧
    (l.state = .holdover →
      exec (.holdExpired i) s = .next { s with dev := (s.dev.setLoop i { l with holdExp := true }).fire 126 (payload .timeout 1 i) } ∧
      exec (.referenceReturn i) s = .next { s with
        dev := s.dev.setLoop i { l with state := if s.dev.kind i = 2 then .acquire else .track } }) ∧
    (l.state ≠ .holdover → exec (.holdExpired i) s = .next s ∧ exec (.referenceReturn i) s = .next s)

/-- R359, R360, R366, R367, R368, R369, R96: a locked loop that loses its reference, whose count differs by 4 or more, or whose phase error
is 8 steps or more, goes into holdover with its loss bit and cause and fires its event; a smaller finding changes nothing. In OM2 a
loss of TPLL0 takes the other TPLLs with it. The moving engines that a TPLL feeds get the stop cause LOCK, and other engines keep
their state. A TPLL that tracks in vain searches again. A suppressed edge is counted, and is a loss of a TPLL that is not in
holdover. -/
def Sys2Proof.Stated.LoopsLoseLock : Prop :=
  ∀ (s : State) (i : Fin 6), s.dev.live = true →
    let l := s.dev.loop i
    let lost (k : Nat) : Prop := k = i.val ∨ (i.val = 0 ∧ s.dev.mode.mode = 2 ∧ k < 4)
    let fed (n : Nat) : Prop := ∃ k, k < 4 ∧ lost k ∧ ∃ c ∈ s.dev.driven n, tpllOf c = k
    let loses (cause : Nat) (d : Dev) : Prop :=
      (∀ k, lost k → (d.loop k).state = .holdover ∧ (d.loop k).loss = true ∧ (d.loop k).cause = cause) ∧
      (∀ k, ¬ lost k → d.loop k = s.dev.loop k) ∧
      (let e := if i.val < 4 then 112 + i.val else 118 + i.val
       (s.dev.evtCfg e).en = true → (d.evtLast e).payload = payload .aborted 1 (256 * cause + i)) ∧
      (∀ n, n < 64 → (s.dev.engine n).st.moving = true → fed n → 2 ∈ (d.engine n).stops ∧ (d.engine n).st = (s.dev.engine n).st) ∧
      (∀ n, (s.dev.engine n).st.moving = false ∨ ¬ fed n → d.engine n = s.dev.engine n) ∧ d.tim = s.dev.tim ∧ d.fcp = s.dev.fcp
    (∀ (cause : LossCause) (diff : BitVec 8) (cw : BitVec 16),
      let n := diff.toInt.natAbs
      (l.state = .locked → s.dev.kind i = 1 → cause = .difference → 4 ≤ n → ∃ d, exec (.lockLoss i cause diff cw) s =
        .next { s with dev := d } ∧ loses 1 d ∧ (d.loop i).diff = diff ∧ (d.loop i).cw = cw) ∧
      (l.state = .locked → s.dev.kind i = 1 → cause = .noReference → ∃ d, exec (.lockLoss i cause diff cw) s =
        .next { s with dev := d } ∧ loses 2 d ∧ (d.loop i).cw = cw) ∧
      (l.state = .locked → s.dev.kind i = 2 → cause = .dllPhase → 8 ≤ n → ∃ d, exec (.lockLoss i cause diff cw) s =
        .next { s with dev := d } ∧ loses 4 d ∧ (d.loop i).diff = diff ∧ (d.loop i).cw = l.cw) ∧
      (l.state ≠ .locked ∨ (cause = .difference ∧ (s.dev.kind i ≠ 1 ∨ n < 4)) ∨ (cause = .noReference ∧ s.dev.kind i ≠ 1) ∨
        (cause = .dllPhase ∧ (s.dev.kind i ≠ 2 ∨ n < 8)) → exec (.lockLoss i cause diff cw) s = .next s)) ∧
    (i.val < 4 → l.state = .track → ∃ d, exec (.trackTimeout i) s = .next { s with dev := d } ∧
      d.loop i = { l with state := if s.dev.kind i = 0 then .off else if s.dev.kind i = 2 then .acquire else .search } ∧
      (∀ j, j ≠ i.val → d.loop j = s.dev.loop j) ∧ d.eng = s.dev.eng ∧ d.evt = s.dev.evt ∧ d.tim = s.dev.tim) ∧
    (4 ≤ i.val ∨ l.state ≠ .track → exec (.trackTimeout i) s = .next s) ∧
    (l.state.open = false → exec (.fmaxTrip i) s = .next s) ∧
    (l.state.open = true → ∃ d, exec (.fmaxTrip i) s = .next { s with dev := d } ∧
      (d.loop i).trips = satAdd 65535 l.trips 1 ∧ (d.loop i).fmaxTrip = true ∧
      (i.val < 4 → l.state ≠ .holdover → loses 3 d) ∧
      (4 ≤ i.val ∨ l.state = .holdover → (d.loop i).state = l.state ∧ (∀ j, j ≠ i.val → d.loop j = s.dev.loop j) ∧ d.eng = s.dev.eng) ∧
      (l.fmaxAt = none → (s.dev.evtCfg 121).en = true → (d.evtLast 121).payload = payload .refused 1 i))

/-- R364, R365, R335: TIM_SPREAD takes a depth up to 10 and a seed other than zero, which apply at the next apex with the depth that
the mode puts in force, and refuses others; between apexes the modulator's LFSR steps once for each of 3,200 reference cycles.
TIM_SET_MULT refuses an N outside 8 to 30 or above the grade's maximum, then one that the present or a staged mode does not allow,
then while an engine is not halted or a ramp runs or is staged; otherwise it changes N and locks the TPLLs anew, and answers when
they are locked. -/
def Sys2Proof.Stated.SpreadAndMultiplier : Prop :=
  (∀ (s : State) (c : Tci) (o : Owner) (d0 : Dev), s.Accepts 0x21 c o d0 →
    let depth := fld (c.w 1) 0 4
    let seed := fld (c.w 2) 0 23
    (depth ≤ 10 → seed ≠ 0 → exec (.timSpread c) s = .next { s with dev := ({ d0 with clk := { d0.clk with
      spreadDepth := BitVec.ofNat 4 depth, spreadSeed := BitVec.ofNat 23 seed, spreadPend := true } } : Dev).answer o .ok }) ∧
    (10 < depth ∨ seed = 0 → exec (.timSpread c) s = .next { s with dev := d0.answer o .badOperand })) ∧
  (∀ s : State, s.dev.live = true →
    let depth : BitVec 4 := if s.dev.mode.mode = 5 then 10 else if s.dev.mode.mode = 2 then 0 else s.dev.clk.spreadDepth
    let seed := if s.dev.clk.spreadPend then s.dev.clk.spreadSeed else (List.range 3200).foldl (fun x _ => lfsrNext x) s.dev.clk.lfsr
    exec .spreadApex s = .next { s with dev := { s.dev with
      clk := { s.dev.clk with spreadEff := depth, lfsr := seed, spreadPend := false } } }) ∧
  (∀ (s : State) (c : Tci) (o : Owner) (d0 : Dev), s.Accepts 0x20 c o d0 →
    let n := fld (c.w 1) 0 5
    let fast : Prop := eclkLe n s.dev.time.period.toNat (if s.dev.fuse.grade3 then 3000000000 else 2400000000) = true
    let modes : Prop := s.dev.eclkIn n s.dev.mode.mode = true ∧ ∀ m, s.dev.pendMode = some m → s.dev.eclkIn n m = true
    let free : Prop := s.dev.allHalted = true ∧ s.dev.rampBusy = false
    (n < 8 ∨ 30 < n ∨ ¬ fast → exec (.timSetMult c) s = .next { s with dev := d0.answer o .badOperand }) ∧
    (8 ≤ n → n ≤ 30 → fast → ¬ modes → exec (.timSetMult c) s = .next { s with dev := d0.answer o .modeDenied }) ∧
    (8 ≤ n → n ≤ 30 → fast → modes → ¬ free → exec (.timSetMult c) s = .next { s with dev := d0.answer o .busy }) ∧
    (8 ≤ n → n ≤ 30 → fast → modes → free →
      ∃ d, exec (.timSetMult c) s = .next { s with dev := d } ∧ d.time = { s.dev.time with mult := n } ∧ d.mode.settled = false ∧
        d.mode.mode = s.dev.mode.mode ∧ d.clk.multOwners = s.dev.clk.multOwners ++ [o] ∧ d.cmd = d0.cmd ∧
        (∀ i, i < 4 → d.loop i = { s.dev.loop i with
          state := if s.dev.kind i = 0 then (s.dev.loop i).state else if s.dev.kind i = 2 then .acquire else .search }) ∧
        (∀ i, 4 ≤ i → d.loop i = s.dev.loop i) ∧ d.eng = s.dev.eng ∧ d.tim = s.dev.tim ∧ d.evt = s.dev.evt))

/-- Clock loops lock, lose lock and hold over; spread and multiplier. -/
def Obligations.ClockLoops : Prop :=
  Sys2Proof.Stated.LoopsLock ∧ Sys2Proof.Stated.LoopsLoseLock ∧ Sys2Proof.Stated.SpreadAndMultiplier

/-! ## Breeze and the timing sets (06_prism_timing.md, 07_breeze_calibration.md) -/

/-- R151 to R156: arming the TDC, a capture, an injected pulse and a loopback sample. A channel that may be armed and whose turn it
is arms the TDC of its quad; a capture of the armed channel, with a transition within 256 ECLK of the arm or in a sweep, disarms the
TDC and gives one sample of the armed entry; an injected pulse gives one sample each of entries 0 and 1; a loopback sample of a
pulse goes to entry 4; where the reference check fails, the entries that were served are discarded and the quad's TDC fault bit is
set. An arm lapses 256 ECLK later where no transition came. Each other form changes nothing. -/
def Sys2Proof.Stated.BreezeSamples : Prop :=
  ∀ (s : State) (c : Fin 64), s.dev.live = true →
    let q := c.val / 4
    let x := s.dev.channel c
    let inTime (a : CapArm) (y : Channel) : Bool :=
      match y.hit with
      | some t => decide (t ≤ (64 * (a.since + 256) : Nat))
      | none => false
    let adds (v : Int) (e : CorrEntry) : CorrEntry := if e.count < 256 then { e with count := e.count + 1, sum := e.sum + v } else e
    let drops (e : CorrEntry) : CorrEntry := { e with count := 0, sum := 0 }
    let entries (d : Dev) (f : Fin 5 → CorrEntry → CorrEntry) : Prop := d.eng = s.dev.eng ∧ ∀ (c' : Fin 64) (t : Fin 5),
      d.corr c' t = if c' = c then f t (s.dev.corr c' t) else s.dev.corr c' t
    let others (d : Dev) : Prop := (∀ c' : Fin 64, c' ≠ c → d.channel c' = s.dev.channel c') ∧
      ∀ q' : Fin 16, q'.val ≠ q → d.arm q' = s.dev.arm q'
    (∀ (t : Fin 4) ok,
      (s.dev.mayArm c = true → s.dev.tdcTurn c = true → ∃ d : Dev, exec (.breezeSample c (.arm t) ok) s = .next { s with dev := d } ∧
        d.arm q = some { ch := c, typ := t, since := s.dev.now } ∧ d.channel c = { x with armTyp := some t.val, hit := none } ∧
        Store.get (fun _ => 0) d.cal.lastServed q = c.val % 4 ∧ entries d (fun _ e => e) ∧ others d) ∧
      (¬ (s.dev.mayArm c = true ∧ s.dev.tdcTurn c = true) → exec (.breezeSample c (.arm t) ok) s = .next s)) ∧
    (∀ (a : CapArm) (v : Int) (ok : Bool), s.dev.arm q = some a →
      (a.ch = c.val → s.dev.measures c = true → (inTime a x || (x.hit.isNone && s.dev.sweeping c)) = true →
        ∃ d : Dev, exec (.breezeSample c (.capture v) ok) s = .next { s with dev := d } ∧ d.arm q = none ∧
          d.channel c = { x with armTyp := none, hit := none } ∧ others d ∧
          entries d (fun t e => if t.val = a.typ.val then (if ok = true then adds v e else drops e) else e) ∧
          (ok = false → bit d.cal.tdcFault q = true)) ∧
      (¬ (a.ch = c.val ∧ s.dev.measures c = true ∧ (inTime a x || (x.hit.isNone && s.dev.sweeping c)) = true) →
        exec (.breezeSample c (.capture v) ok) s = .next s)) ∧
    (s.dev.arm q = none → ∀ v ok, exec (.breezeSample c (.capture v) ok) s = .next s) ∧
    (∀ (r f : Int) (ok : Bool),
      (s.dev.mayInject c = true → s.dev.tdcTurn c = true →
        ∃ d : Dev, exec (.breezeSample c (.inject r f) ok) s = .next { s with dev := d } ∧ others d ∧ d.arm q = none ∧
          entries d (fun t e => if t = 0 then (if ok = true then adds r e else drops e)
            else if t = 1 then (if ok = true then adds f e else drops e) else e) ∧
          (ok = true → d.channel c = { x with lastD := some (64 * (s.dev.now + 1) : Nat), pulse := some s.dev.now } ∧
            Store.get (fun _ => 0) d.cal.lastServed q = c.val % 4) ∧
          (ok = false → d.channel c = x ∧ bit d.cal.tdcFault q = true)) ∧
      (¬ (s.dev.mayInject c = true ∧ s.dev.tdcTurn c = true) → exec (.breezeSample c (.inject r f) ok) s = .next s)) ∧
    (∀ (v : Int) (ok : Bool),
      let own := decide (x.pulse = some s.dev.now)
      (s.dev.mayMeasure c = true → (own || s.dev.mayInject c) = true →
        ∃ d : Dev, exec (.breezeSample c (.loopback v) ok) s = .next { s with dev := d } ∧ others d ∧
          entries d (fun t e => if t = 4 then adds v e else e) ∧
          d.channel c = { x with pulse := none, lastD := if own = true then x.lastD else some (64 * (s.dev.now + 1) : Nat) }) ∧
      (¬ (s.dev.mayMeasure c = true ∧ (own || s.dev.mayInject c) = true) → exec (.breezeSample c (.loopback v) ok) s = .next s)) ∧
    (∀ q : Fin 16, (s.dev.arm q = none → exec (.armLapse q) s = .next s) ∧ ∀ a, s.dev.arm q = some a →
      let y := s.dev.channel a.ch
      (inTime a y = true ∨ s.dev.now < a.since + 256 → exec (.armLapse q) s = .next s) ∧
      (inTime a y = false → a.since + 256 ≤ s.dev.now → exec (.armLapse q) s =
        .next { s with dev := (s.dev.setArm q none).setChannel a.ch { y with armTyp := none, hit := none } }))

/-- R155, R163, R161, R162, R165, R53, R36: the 256th sample of an entry turns into a target, which in a sweep of the channel is its
correction at once and otherwise is judged against the mode's range; a due step boundary moves each valid correction in range of a
channel in traffic by one LSB and lets every other channel jump, but not in a hold-off and not where the step is cancelled. -/
def Sys2Proof.Stated.BreezeSteps : Prop :=
  ∀ (s : State), s.dev.live = true →
    (∀ (c : Fin 64) (t : Fin 5),
      let e := s.dev.corr c t
      let v := e.corr - roundDiv e.sum 512
      let far (v : Int) := decide ((s.dev.modeCfg s.dev.mode.mode).orl ≤ (v - e.corr).natAbs)
      (e.count ≠ 256 → exec (.measurementDone c t) s = .next s) ∧
      (e.count = 256 → ∃ (d : Dev) (target : Int), exec (.measurementDone c t) s = .next { s with dev := d } ∧
        (-2048 ≤ v → v ≤ 2047 → target = v) ∧ d.eng = s.dev.eng ∧
        (∀ (c' : Fin 64) (t' : Fin 5), (c', t') ≠ (c, t) → d.corr c' t' = s.dev.corr c' t') ∧
        d.corr c t = (if s.dev.sweeping c = true then { corr := target, target := target, oor := false, mvalid := true }
          else { corr := e.corr, target := target, mvalid := true, oor := if s.dev.inTraffic c then far target else e.oor }) ∧
        (s.dev.sweeping c = false → d.cal.sweep = s.dev.cal.sweep) ∧
        (∀ w, s.dev.cal.sweep = some w → s.dev.sweeping c = true →
          d.cal.sweep = some { w with got := (5 * c.val + t.val) :: w.got }))) ∧
    (s.dev.cal.stepDue = none → exec .stepBoundary s = .next s) ∧
    (∀ traffic, s.dev.cal.stepDue = some traffic → ∃ d : Dev, exec .stepBoundary s = .next { s with dev := d } ∧
      d.cal.stepDue = none ∧ d.eng = s.dev.eng ∧ d.tim = s.dev.tim ∧ ∀ (c : Fin 64) (t : Fin 5),
        let e := s.dev.corr c t
        d.corr c t =
          if s.dev.stepsOn = false ∨ s.dev.cal.holdoff = true ∨ bit s.dev.cal.cancel c = true then e
          else if bit traffic c = false then { e with corr := e.target, oor := false }
          else if e.mvalid = true ∧ e.oor = false then
            { e with corr := if e.corr < e.target then e.corr + 1 else if e.target < e.corr then e.corr - 1 else e.corr }
          else e)

/-- R172, R62, R53, R220: a sweep of the enabled channels starts from CAL_SWEEP, and in OM0 repeated, and takes them out of their safe
state; under SAFE_N it is cut at once; CAL_SWEEP is BUSY while a sweep runs or a staged bulk apply holds one of the channels. The
sweep ends with what it measured: each measured entry takes its corrected value, is in range and valid, the channels return to
their safe state, and the response is OK where every entry of every channel was measured and ABORTED otherwise. -/
def Sys2Proof.Stated.Sweeps : Prop :=
  ∀ (s : State), s.dev.live = true →
    let m := s.dev.cal.sweepEn
    let starts (d0 d : Dev) (o : Option Owner) : Prop :=
      d.cal.sweep = some { swept := m, owner := o } ∧ d.cal.ent = d0.cal.ent ∧ d.eng = d0.eng ∧ ∀ c : Fin 64,
        d.channel c = if bit m c = true then { d0.channel c with inSafe := false } else d0.channel c
    (s.dev.mode.mode = 0 → s.dev.cal.sweep = none → m ≠ 0 → s.dev.cal.holdoff = false →
      (s.dev.pin.safeN = false → ∃ d, exec .sweepRepeat s = .next { s with dev := d } ∧ starts s.dev d none) ∧
      (s.dev.pin.safeN = true → ∃ d : Dev, exec .sweepRepeat s = .next { s with dev := d } ∧ d.cal.sweep = none ∧
        d.cal.ent = s.dev.cal.ent ∧ d.eng = s.dev.eng ∧ ∀ c : Fin 64, bit m c = true → (d.channel c).inSafe = true)) ∧
    (s.dev.mode.mode ≠ 0 ∨ s.dev.cal.sweep ≠ none ∨ m = 0 ∨ s.dev.cal.holdoff = true → exec .sweepRepeat s = .next s) ∧
    (∀ (c : Tci) (o : Owner) (d0 : Dev), s.Accepts 0x30 c o d0 →
      (d0.cal.sweep = none → d0.bulkStaged d0.cal.sweepEn = false →
        (s.dev.pin.safeN = false → ∃ d, exec (.calSweep c) s = .next { s with dev := d } ∧ starts d0 d (some o)) ∧
        (s.dev.pin.safeN = true → ∃ d1 : Dev, d1.cal.sweep = none ∧ d1.cal.ent = d0.cal.ent ∧
          exec (.calSweep c) s = .next { s with dev := d1.answer o (if m = 0 then .ok else .aborted) })) ∧
      (d0.cal.sweep ≠ none ∨ d0.bulkStaged d0.cal.sweepEn = true →
        exec (.calSweep c) s = .next { s with dev := d0.answer o .busy })) ∧
    (∀ rs : List SweepRes,
      (s.dev.cal.sweep = none ∨ s.dev.cal.holdoff = true → exec (.sweepDone rs) s = .next s) ∧
      ∀ w, s.dev.cal.sweep = some w → s.dev.cal.holdoff = false → (rs.map fun r => (r.ch, r.typ)).Nodup →
        ∃ d : Dev, d.cal.sweep = none ∧ d.eng = s.dev.eng ∧
          (∀ c : Fin 64, bit w.swept c = true → (d.channel c).inSafe = true) ∧
          (∀ c : Fin 64, bit w.swept c = false → d.channel c = s.dev.channel c) ∧
          (∀ r ∈ rs, bit w.swept r.ch = true → ∃ v : Int,
            (-2048 ≤ (s.dev.corr r.ch r.typ).corr - r.err → (s.dev.corr r.ch r.typ).corr - r.err ≤ 2047 →
              v = (s.dev.corr r.ch r.typ).corr - r.err) ∧
            d.corr r.ch r.typ = { s.dev.corr r.ch r.typ with corr := v, target := v, oor := false, mvalid := true }) ∧
          (∀ (c : Fin 64) (t : Fin 5), bit w.swept c = false ∨ (∀ r ∈ rs, (r.ch, r.typ) ≠ (c, t)) → d.corr c t = s.dev.corr c t) ∧
          ∃ st : Status, exec (.sweepDone rs) s = .next { s with dev := d.answer? w.owner st } ∧
            (st = .ok ↔ ∀ (c : Fin 64) (t : Fin 5), bit w.swept c = true →
              (5 * c.val + t.val) ∈ w.got ∨ ∃ r ∈ rs, r.ch = c ∧ r.typ = t) ∧ (st = .ok ∨ st = .aborted))

/-- R169, R170, R53, R167: a due OM2 window delays each engine that was in RUN by 512 ECLK from the end of its vector in progress or
the boundary: what is in flight, what is decided later and its next instructions; its registers stay, and E of a channel that asks
for it is low until 32 LSB before the end. The check, where windows are not stolen, sets CAL_MISS for a channel that was in traffic
throughout a full interval and saw no long BRZ; 4,096 beats after a ramp each rescaled correction becomes CORR and TARGET. Each
that is not due changes nothing. -/
def Sys2Proof.Stated.BreezeWindows : Prop :=
  ∀ (s : State), s.dev.live = true →
    let fresh (d : Dev) : Prop := d.cal.winDue = none ∧ d.cal.intvFull = true ∧
      ∀ c : Fin 64, Store.get om2Reset d.cal.om2 c = { throughout := s.dev.inTraffic c, brz := false }
    (s.dev.cal.winDue = none ∨ s.dev.cal.steal = false → exec .om2Window s = .next s) ∧
    (s.dev.cal.winDue = none ∨ s.dev.cal.steal = true → exec .windowCheck s = .next s) ∧
    (∀ run, s.dev.cal.winDue = some run → s.dev.cal.steal = true → ∃ d : Dev, exec .om2Window s = .next { s with dev := d } ∧
      fresh d ∧ d.cal.ent = s.dev.cal.ent ∧ d.evt = s.dev.evt ∧
      (∀ n : Fin 64,
        let e := s.dev.engine n
        let start := max e.vecEnd s.dev.time.base
        let x := d.engine n
        if bit run n = true ∧ e.st = .run then
          x.winAt = some start ∧ x.vecEnd = start + 512 ∧ x.a = e.a ∧ x.st = .run ∧
            x.flight = e.flight.map (fun v => { v with start := v.start + 512 }) ∧
            x.decisions = e.decisions.map (fun y => if start ≤ y.arrives then { y with arrives := y.arrives + 512 } else y) ∧
            (if start ≤ e.issueAt then x.late = none ∧ x.issueAt = e.issueAt + 512
              else x.late = some start ∧ x.issueAt = e.issueAt ∧ x.slotAt = e.slotAt)
        else x = e) ∧
      (∀ n c : Fin 64, bit run n = true → (s.dev.engine n).st = .run → c.val ∈ s.dev.driven n →
        (∀ n' : Fin 64, c.val ∈ s.dev.driven n' → n' = n) → d.channel c =
          if bit s.dev.cal.winz c = true ∧ (s.dev.channel c).e = true then
            { s.dev.channel c with lastE := some (64 * ((max (s.dev.engine n).vecEnd s.dev.time.base : Nat) + 512) - 32 : Int) }
          else s.dev.channel c)) ∧
    (∀ run, s.dev.cal.winDue = some run → s.dev.cal.steal = false → ∃ d : Dev, exec .windowCheck s = .next { s with dev := d } ∧
      fresh d ∧ d.cal.ent = s.dev.cal.ent ∧ d.eng = s.dev.eng ∧ d.tim = s.dev.tim ∧ ∀ c : Fin 64,
        let x := Store.get om2Reset s.dev.cal.om2 c
        bit d.cal.miss c = (bit s.dev.cal.miss c || (s.dev.cal.intvFull && x.throughout && s.dev.inTraffic c && !x.brz))) ∧
    (s.dev.cal.holdoff = false ∨ s.dev.time.rampActive = true ∨ s.dev.time.holdoff ≠ 0 → exec .holdoffEnd s = .next s) ∧
    (s.dev.cal.holdoff = true → s.dev.time.rampActive = false → s.dev.time.holdoff = 0 →
      ∃ d : Dev, exec .holdoffEnd s = .next { s with dev := d } ∧ d.cal.holdoff = false ∧ d.cal.refPer = s.dev.time.period ∧
        d.eng = s.dev.eng ∧ ∀ (c : Fin 64) (t : Fin 5), ∃ v : Int,
          (-2048 ≤ s.dev.effCorr c t → s.dev.effCorr c t ≤ 2047 → v = s.dev.effCorr c t) ∧
          d.corr c t = { s.dev.corr c t with corr := v, target := v, mvalid := false })

/-- Breeze measures, steps and sweeps. -/
def Obligations.Breeze : Prop :=
  Sys2Proof.Stated.BreezeSamples ∧ Sys2Proof.Stated.BreezeSteps ∧ Sys2Proof.Stated.Sweeps ∧ Sys2Proof.Stated.BreezeWindows

/-- R174, R133, R134, R148, R220: a write of a correction outside traffic, sweeps and staged bulk applies sets CORR and TARGET to its
signed value, and otherwise WERR; a mode's limits take 1 to 8; a word of a shadow timing set changes alone and clears SVALID, and is
dropped with WERR where the set is staged; TIM_TSCHK judges the shadow as it stands, and answers when it is done unless the shadow
was written since; TIM_SWAP exchanges valid shadows with the active copies, and otherwise sets WERR and leaves them; a channel
configuration gives the safe state and the strobe mask at once, and slew and swing where the engine is halted and none is staged. -/
def Obligations.TimingRegisterWrites : Prop :=
  ∀ (s : State) (c : Fin 64),
    let x := s.dev.channel c
    let calDrop (i : Instr) : Prop := exec i s = .next { s with dev := { s.dev with cal := { s.dev.cal with werr := true } } }
    (∀ (t : Fin 5) (w : Word), s.dev.live = true →
      (s.dev.inTraffic c = false → s.dev.cal.sweep = none → s.dev.bulkStaged (setBit 0 c) = false →
        ∃ d : Dev, exec (.calCorrWrite c t w) s = .next { s with dev := d } ∧ d.eng = s.dev.eng ∧ d.tim = s.dev.tim ∧
          (let v := (BitVec.ofNat 12 w.toNat).toInt
           d.corr c t = { s.dev.corr c t with corr := v, target := v, oor := false, mvalid := false }) ∧
          ∀ (c' : Fin 64) (t' : Fin 5), (c', t') ≠ (c, t) → d.corr c' t' = s.dev.corr c' t') ∧
      (s.dev.inTraffic c = true ∨ s.dev.cal.sweep ≠ none ∨ s.dev.bulkStaged (setBit 0 c) = true → calDrop (.calCorrWrite c t w))) ∧
    (∀ (m : Fin 8) (w : Word), s.dev.live = true →
      (1 ≤ fld w 0 4 → fld w 0 4 ≤ 8 → fld w 6 26 = 0 → ∃ d : Dev, exec (.calModecfgWrite m w) s = .next { s with dev := d } ∧
        d.modeCfg m = { stepEn := bit w 5, measEn := bit w 4, orl := fld w 0 4 } ∧ d.cal.ent = s.dev.cal.ent ∧
        d.eng = s.dev.eng ∧ d.tim = s.dev.tim ∧ ∀ m' : Fin 8, m' ≠ m → d.modeCfg m' = s.dev.modeCfg m') ∧
      (fld w 0 4 = 0 ∨ 8 < fld w 0 4 ∨ fld w 6 26 ≠ 0 → calDrop (.calModecfgWrite m w))) ∧
    (s.Writable (pdEq c) → s.dev.quadTest c = false →
      let goes (i : Instr) (y : Channel) : Prop := exec i s = .next { s with dev := s.dev.setChannel c y }
      (∀ (k : Fin 64) (j : Fin 4) (w : Word), s.dev.setStaged c k = false → ∃ y, goes (.timShadowWrite c k j w) y ∧
        (∀ j' : Fin 4, nfld (y.shadow k).toNat (32 * j') 32 = if j' = j then w.toNat else nfld (x.shadow k).toNat (32 * j') 32) ∧
        (∀ k' : Fin 64, k' ≠ k → y.shadow k' = x.shadow k' ∧ bit y.svalid k' = bit x.svalid k') ∧ y.act = x.act ∧
        bit y.svalid k = false ∧
        y.check = x.check.map fun v => if v.set = k.val then { v with dirty := true } else v) ∧
      (∀ (k : Fin 64) (j : Fin 4) (w : Word), s.dev.setStaged c k = true →
        goes (.timShadowWrite c k j w) { x with werr := true }) ∧
      (∀ w : Word,
        let k := fld w 0 6
        let denied : Prop := tsCheck (x.shadow k) = .ok ∧ tsDnrz (x.shadow k) = true ∧ s.dev.dnrzDenied = true
        (x.check = none → denied → goes (.timTschkWrite c w) { x with check := some { set := k, status := .modeDenied } }) ∧
        (x.check = none → ¬ denied →
          goes (.timTschkWrite c w) { x with check := some { set := k, status := tsCheck (x.shadow k) } }) ∧
        (x.check ≠ none → goes (.timTschkWrite c w) { x with werr := true })) ∧
      (∀ (hi : Bool) (w : Word),
        let named (k : Fin 64) : Prop := (32 ≤ k.val ↔ hi = true) ∧ bit w (k.val % 32) = true
        let moving := (s.dev.engine (s.dev.driver c)).st.moving
        let staged : Prop := ∃ k, named k ∧ s.dev.setStaged c k = true
        let invalid : Prop := ∃ k, named k ∧ bit x.svalid k = false
        let denied : Prop := s.dev.dnrzDenied = true ∧ ∃ k, named k ∧ tsDnrz (x.shadow k) = true
        (moving = true ∨ staged → goes (.timSwapWrite c hi w) { x with werr := true }) ∧
        (moving = false → ¬ staged → invalid → goes (.timSwapWrite c hi w) { x with werr := true, vstatus := .badOperand }) ∧
        (moving = false → ¬ staged → ¬ invalid → denied →
          goes (.timSwapWrite c hi w) { x with werr := true, vstatus := .modeDenied }) ∧
        (moving = false → ¬ staged → ¬ invalid → ¬ denied → ∃ y, goes (.timSwapWrite c hi w) y ∧ ∀ k : Fin 64,
          (named k → y.active k = x.shadow k ∧ y.shadow k = x.active k ∧ bit y.svalid k = false) ∧
          (¬ named k → y.active k = x.active k ∧ y.shadow k = x.shadow k ∧ bit y.svalid k = bit x.svalid k))) ∧
      (∀ w : Word, ∃ d : Dev, exec (.timChcfgWrite c w) s = .next { s with dev := d } ∧
        (d.channel c).smask = bit w 0 ∧ (d.channel c).chSafe = BitVec.ofNat 2 (fld w 4 2) ∧ d.eng = s.dev.eng ∧
        (∀ c' : Fin 64, c' ≠ c → d.channel c' = s.dev.channel c') ∧
        (if (s.dev.engine (s.dev.driver c)).st.halted = true ∧ s.dev.cfgStaged c = false then
          (d.channel c).slew = BitVec.ofNat 2 (fld w 2 2) ∧ (d.channel c).swing = bit w 1 ∧ (d.channel c).werr = x.werr
        else (d.channel c).slew = x.slew ∧ (d.channel c).swing = x.swing ∧
          ((d.channel c).werr = true ↔ x.werr = true ∨ x.slew ≠ BitVec.ofNat 2 (fld w 2 2) ∨ x.swing ≠ bit w 1)))) ∧
    (s.dev.live = true →
      (x.check = none → exec (.tschkDone c) s = .next { s with dev := s.dev.setChannel c x }) ∧
      ∀ v : TsCheck, x.check = some v →
        ∃ y, exec (.tschkDone c) s = .next { s with dev := s.dev.setChannel c y } ∧ y.check = none ∧ y.vstatus = v.status ∧
          y.vset = v.set ∧
          (v.set < 64 → bit y.svalid v.set = (v.status == .ok && !v.dirty)) ∧ y.shd = x.shd ∧ y.act = x.act ∧
          ∀ k : Fin 64, k.val ≠ v.set → bit y.svalid k = bit x.svalid k)

/-! ## The engines from outside (04_yunor_engines.md) -/

/-- R332, R333: ENG_START and ENG_RESUME, with their checks in order: an empty mask or a follower is BAD_OPERAND, a device out of step
OUT_OF_STEP, a closed domain FENCED; an engine that does not stand ready, a lock, an unconfigured device, or a channel without a
locked clock or under test BUSY; else the start waits for its boundary 1 µs later. ENG_HALT requests the stop cause HALT of each
named engine that moves, and answers at once where none does; ENG_RELEASE waits for the next boundary. -/
def Sys2Proof.Stated.EngineCommands : Prop :=
  ∀ (s : State) (c : Tci) (o : Owner) (d0 : Dev),
    let goes (i : Instr) (d : Dev) : Prop := exec i s = .next { s with dev := d }
    let named (n : Fin 64) : Prop := bit (c.w64 1) n = true
    (∀ resume : Bool,
      let i : Instr := if resume = true then .engResume c else .engStart c
      let stands (e : Engine) : Prop := e.st = .stopped ∨ resume = false ∧ e.st = .idle
      let bad : Prop := c.w64 1 = 0 ∨ ∃ n, named n ∧ (s.dev.engine n).st = .follower
      let oos : Prop := s.dev.txn.oosTxn = true ∨ s.dev.txn.oosBeat = true
      let shut (k : Nat) : Prop := (∃ n, named n ∧ k ∈ s.dev.driven n) ∧ (s.dev.domain (pdEq k)).closed = true
      let busy : Prop := s.dev.engLock = true ∨ s.dev.cfg.done = false ∨
        (∃ n, named n ∧ (¬ stands (s.dev.engine n) ∨ s.dev.startPends n = true ∨ s.dev.gangStaged n = true)) ∨
        ∃ n, named n ∧ ∃ k ∈ s.dev.driven n, (s.dev.loop (tpllOf k)).state ≠ .locked ∨ s.dev.quadTest k = true
      s.Accepts (if resume = true then 0x11 else 0x10) c o d0 →
        (bad → goes i (d0.answer o .badOperand)) ∧
        (¬ bad → oos → goes i (d0.answer o .outOfStep)) ∧
        (¬ bad → ¬ oos → (∃ k, shut k) → ∃ k, shut k ∧ goes i ((d0.fencedAnswer (pdEq k)).answer o .fenced)) ∧
        (¬ bad → ¬ oos → (∀ k, ¬ shut k) → busy → goes i (d0.answer o .busy)) ∧
        (¬ bad → ¬ oos → (∀ k, ¬ shut k) → ¬ busy → goes i { d0 with eng := { s.dev.eng with starts := s.dev.eng.starts ++
          [{ mask := c.w64 1, resume := resume, entry := BitVec.ofNat 12 (fld (c.w 3) 0 12), due := s.dev.boundariesFor 1000,
             owner := o }] } })) ∧
    (s.Accepts 0x12 c o d0 →
      ((∀ k, named k → (s.dev.engine k).st.moving = false) → goes (.engHalt c) (d0.complete o .ok 0 0)) ∧
      ((∃ k, named k ∧ (s.dev.engine k).st.moving = true) →
        ∃ (d : Dev) (m : DWord), goes (.engHalt c) d ∧ d.eng.halts = s.dev.eng.halts ++ [{ mask := m, left := m, owner := o }] ∧
          ∀ k : Fin 64, bit m k = (bit (c.w64 1) k && (s.dev.engine k).st.moving) ∧
            (bit m k = true → 11 ∈ (d.engine k).stops ∧ (d.engine k).a = (s.dev.engine k).a ∧
              (d.engine k).st = (s.dev.engine k).st ∧ (d.engine k).mem = (s.dev.engine k).mem) ∧
            (bit m k = false → d.engine k = s.dev.engine k))) ∧
    (s.Accepts 0x13 c o d0 →
      goes (.engRelease c) { d0 with eng := { s.dev.eng with releases := s.dev.eng.releases ++ [(c.w64 1, o)] } })

/-- R83, R84, R334: ENG_PAGE_SWAP of a halted engine with a valid shadow page exchanges its pages and enters the new one; ENG_REFILL
takes the shadow page's validity and reserves it, with its deadline; ENG_STREAM empties the FIFO and waits for its fetches. Each
check that fails answers with its status, in order. -/
def Sys2Proof.Stated.PageCommands : Prop :=
  ∀ (s : State) (c : Tci) (o : Owner) (d0 : Dev),
    let goes (i : Instr) (d : Dev) : Prop := exec i s = .next { s with dev := d }
    let n := fld (c.w 1) 0 6
    let e := s.dev.engine n
    let fenced (k : Nat) : Dev := (d0.fencedAnswer k).answer o .fenced
    let others (d : Dev) : Prop := ∀ k, k ≠ n → d.engine k = s.dev.engine k
    (s.Accepts 0x14 c o d0 →
      let shut : Prop := (s.dev.domain (pdEq n)).closed = true
      let busy : Prop := e.st.halted = false ∨ s.dev.startPends n = true ∨ s.dev.pageStaged n = true ∨ s.dev.gangStaged n = true
      let bad : Prop := e.a.svalid = false ∨ e.refill ≠ none
      (shut → goes (.engPageSwap c) (fenced (pdEq n))) ∧
      (¬ shut → busy → goes (.engPageSwap c) (d0.answer o .busy)) ∧
      (¬ shut → ¬ busy → bad → goes (.engPageSwap c) (d0.answer o .badOperand)) ∧
      (¬ shut → ¬ busy → ¬ bad → ∃ d : Dev, goes (.engPageSwap c) (d.answer o .ok) ∧
        (d.engine n).a = { e.a with active := !e.a.active, svalid := false, pc := BitVec.ofNat 12 (fld (c.w 1) 16 12),
                                    repLeft := 0, mloop := none, lbuf := none } ∧
        (d.engine n).mem = e.mem ∧ (d.engine n).st = e.st ∧ d.tim = s.dev.tim ∧ d.cmd = d0.cmd ∧ others d)) ∧
    (s.Accepts 0x15 c o d0 →
      let nv := bit (c.w 1) 8
      let src := if nv = true then pdNvs else pdVmi
      let count := fld (c.w 4) 0 13
      let timed := bit (c.w 6) 16
      let due : Target := { epoch := BitVec.ofNat 8 (fld (c.w 6) 24 8),
                            gci := BitVec.ofNat 48 ((c.w 5).toNat + fld (c.w 6) 0 16 * 2 ^ 32) }
      let shut (k : Nat) : Prop := (s.dev.domain k).closed = true
      let bad : Prop := count = 0 ∨ 4096 < count ∨ (c.w64 2).toNat % 8 ≠ 0 ∨ timed = false ∧ (c.w 5 ≠ 0 ∨ c.w 6 ≠ 0)
      let early : Prop := timed = true ∧ s.dev.targetStatus due ≠ .ok
      let busy : Prop := e.refill ≠ none ∨ s.dev.pageStaged n = true
      (shut (pdEq n) → goes (.engRefill c) (fenced (pdEq n))) ∧
      (¬ shut (pdEq n) → shut src → goes (.engRefill c) (fenced src)) ∧
      (¬ shut (pdEq n) → ¬ shut src →
        (bad → goes (.engRefill c) (d0.answer o .badOperand)) ∧
        (¬ bad → early → goes (.engRefill c) (d0.answer o (s.dev.targetStatus due))) ∧
        (¬ bad → ¬ early → busy → goes (.engRefill c) (d0.answer o .busy)) ∧
        (¬ bad → ¬ early → ¬ busy → ∃ d : Dev, goes (.engRefill c) d ∧ (d.engine n).a = { e.a with svalid := false } ∧
          (d.engine n).refill = some { fromNv := nv, page := !e.a.active, addr := c.w64 2, count := count,
                                       deadline := if timed = true then some due else none, owner := some o } ∧
          (d.engine n).mem = e.mem ∧ (d.engine n).st = e.st ∧ d.cmd = d0.cmd ∧ others d))) ∧
    (s.Accepts 0x17 c o d0 →
      let bad : Prop := c.w 1 ≠ BitVec.ofNat 32 n ∨ c.w 4 = 0 ∨ (c.w64 2).toNat % 64 ≠ 0 ∨ e.st = .follower
      let beyond : Prop := s.dev.vmiBytes < (c.w64 2).toNat + (c.w 4).toNat
      let shut : Prop := s.dev.domOn pdVmi = false ∨ (s.dev.domain pdVmi).closed = true ∨ s.dev.vmi.ready = false
      let busy : Prop := ¬ (e.st.halted = true ∨ e.st = .wait) ∨ (s.dev.stream n).left ≠ 0
      (bad → goes (.engStream c) (d0.answer o .badOperand)) ∧
      (¬ bad → beyond → goes (.engStream c) (d0.answer o .noRoute)) ∧
      (¬ bad → ¬ beyond → shut → goes (.engStream c) (d0.answer o .fenced)) ∧
      (¬ bad → ¬ beyond → ¬ shut → busy → goes (.engStream c) (d0.answer o .busy)) ∧
      (¬ bad → ¬ beyond → ¬ shut → ¬ busy → ∃ d : Dev, goes (.engStream c) d ∧ d.engine n = { e with fifo := [] } ∧ others d ∧
        d.vmi.mem = s.dev.vmi.mem ∧ (∀ k, k ≠ n → d.stream k = s.dev.stream k) ∧
        d.stream n = { next := (c.w64 2).toNat, left := (c.w 4).toNat, owner := some o }))

/-- R84, R85, R87, R88: a turn of a quad's refill port moves up to 64 instructions of the engine whose turn it is to its page, or
notes the error of its source, or waits for it; a refill that is done makes the shadow page valid and answers OK, and one that met
an error answers MEDIA_ERROR; a deadline that passes requests the stop cause UNDERRUN_PAGE of its leader, once. A turn of a stream adds
up to 64 bytes to the engine's FIFO, the low nibble of each first. -/
def Sys2Proof.Stated.Refills : Prop :=
  (∀ (s : State) (q : Fin 16), s.dev.live = true →
    let turn := ([1, 2, 3, 4, 5].map fun i => (Store.get (fun _ => 4) s.dev.eng.served q + i) % 5).find? fun i =>
      decide (i < 4) && s.dev.refillWants (4 * q + i)
    (turn = none → exec (.refillTransfer q) s = .next s) ∧
    ∀ (i : Nat) (r : Refill), turn = some i →
      let n := 4 * q.val + i
      let e := s.dev.engine n
      let k := min 64 (r.count - r.moved)
      let a := r.addr.toNat + 8 * r.moved
      let got := (s.dev.refillBytes q r.fromNv a (8 * k)).2
      e.refill = some r →
      ∃ d : Dev, exec (.refillTransfer q) s = .next { s with dev := d } ∧ Store.get (fun _ => 4) d.eng.served q = i ∧
        (∀ m, m ≠ n → d.engine m = s.dev.engine m) ∧
        (got = none → d.engine n = e) ∧
        (got = some none → d.engine n = { e with refill := some { r with err := true } }) ∧
        (∀ bs, got = some (some bs) →
          (r.fromNv = false → bs = rdBytes s.dev.vmi.mem a (8 * k) ∧ s.dev.vmiStatus a (8 * k) = .ok) ∧
          (r.fromNv = true → bs = (s.dev.nvBytes (24 + q) a (8 * k)).2.2) ∧
          (d.engine n).refill = some { r with moved := r.moved + k } ∧ (d.engine n).a = e.a ∧ (d.engine n).st = e.st ∧
          (∀ j, j < k → Store.get (fun _ => 0) (d.engine n).mem (memIndex r.page (r.moved + j)) =
            BitVec.ofNat 64 (ofLeBytes ((bs.drop (8 * j)).take 8))) ∧
          ∀ x, x < memIndex r.page r.moved ∨ memIndex r.page r.moved + k ≤ x →
            Store.get (fun _ => 0) (d.engine n).mem x = Store.get (fun _ => 0) e.mem x)) ∧
  (∀ (s : State) (n : Fin 64), s.dev.live = true →
    let e := s.dev.engine n
    (e.refill = none → exec (.refillDone n) s = .next s ∧ exec (.refillDeadline n) s = .next s) ∧ ∀ r, e.refill = some r →
      (r.err = false → r.moved < r.count → exec (.refillDone n) s = .next s) ∧
      (r.err = false → r.count ≤ r.moved → ∃ d : Dev, exec (.refillDone n) s = .next { s with dev := d.answer? r.owner .ok } ∧
        (d.engine n).refill = none ∧ (d.engine n).a = (if e.a.active = r.page then e.a else { e.a with svalid := true }) ∧
        (d.engine n).mem = e.mem ∧ (d.engine n).st = e.st ∧ ∀ m, m ≠ n.val → d.engine m = s.dev.engine m) ∧
      (r.err = true → ∃ d : Dev, exec (.refillDone n) s = .next { s with dev := d.answer? r.owner .mediaError } ∧
        d.engine n = { e with refill := none } ∧ ∀ m, m ≠ n.val → d.engine m = s.dev.engine m) ∧
      (r.late = true ∨ r.err = true ∨ r.moved = r.count ∨ r.deadline ≠ some s.dev.nowTarget →
        exec (.refillDeadline n) s = .next s) ∧
      (r.late = false → r.err = false → r.moved ≠ r.count → r.deadline = some s.dev.nowTarget →
        let l := s.dev.leader n
        ∃ d : Dev, exec (.refillDeadline n) s = .next { s with dev := d } ∧ (d.engine n).refill = some { r with late := true } ∧
          (d.engine n).mem = e.mem ∧ (d.engine n).a = e.a ∧ (d.engine n).st = e.st ∧
          (∀ m, m ≠ n.val → m ≠ l → d.engine m = s.dev.engine m) ∧
          ((s.dev.engine l).st.moving = true → 5 ∈ (d.engine l).stops) ∧
          ((s.dev.engine l).st.moving = false → (d.engine l).stops = (s.dev.engine l).stops))) ∧
  (∀ (s : State) (n : Fin 64), s.dev.live = true →
    let turn : Prop := s.dev.vmi.ready = true ∧ s.dev.domOn pdVmi = true ∧ s.dev.streamTurn = some n.val
    (¬ turn → exec (.streamFetch n) s = .next { s with dev := s.dev.inject s.otp }) ∧
    (turn →
      let x := s.dev.stream n
      let k := min 64 x.left
      ∃ d : Dev, exec (.streamFetch n) s =
          .next { s with dev := (if x.left = k then d.answer? x.owner .ok else d).inject s.otp } ∧
        d.stream n = { next := x.next + k, left := x.left - k, owner := if x.left = k then none else x.owner } ∧
        d.engine n = { s.dev.engine n with fifo := (s.dev.engine n).fifo ++ (rdBytes s.dev.vmi.mem x.next k).flatMap fun b =>
          [BitVec.ofNat 4 b.toNat, BitVec.ofNat 4 (b.toNat / 16)] } ∧
        d.vmi.mem = s.dev.vmi.mem ∧ d.vmi.last = n.val ∧ ∀ m, m ≠ n.val → d.engine m = s.dev.engine m))

/-- R89, R90: a gang is formed of aligned, halted engines that overlap no other gang: each but the leader follows, and the leader takes
the MAP; a gang is dissolved, and its followers are idle. A misaligned or overlapping gang, and a dissolution of none, is
BAD_OPERAND; an engine that moves or is to start is BUSY, as one that a staged action holds; a closed domain is FENCED. -/
def Sys2Proof.Stated.Gangs : Prop :=
  ∀ (s : State) (c : Tci) (o : Owner) (d0 : Dev), s.Accepts 0x16 c o d0 →
    let l := fld (c.w 1) 0 6
    let m := fld (c.w 1) 8 3
    let map := BitVec.ofNat 4 (fld (c.w 1) 12 4)
    let goes (d : Dev) : Prop := exec (.engGang c) s = .next { s with dev := d }
    let outcome (span : List Nat) (ok : Prop) : Prop :=
      ((∃ k ∈ span, (s.dev.domain (pdEq k)).closed = true) →
        ∃ k ∈ span, (s.dev.domain (pdEq k)).closed = true ∧ goes ((d0.fencedAnswer (pdEq k)).answer o .fenced)) ∧
      ((∀ k ∈ span, (s.dev.domain (pdEq k)).closed = false) →
        ((∃ k ∈ span, s.dev.gangStaged k = true ∨ s.dev.pageStaged k = true) → goes (d0.answer o .busy)) ∧
        ((∀ k ∈ span, s.dev.gangStaged k = false ∧ s.dev.pageStaged k = false) → ok))
    (bit (c.w 1) 31 = false →
      let busy : Prop := ∃ k, l ≤ k ∧ k < l + 2 ^ m ∧ ((s.dev.engine (s.dev.leader k)).st.moving = true ∨ s.dev.startPends k = true)
      (6 < m ∨ l % 2 ^ m ≠ 0 → s.dev.gangOverlap s.dev.openActs l m = true) ∧
      (s.dev.gangOverlap s.dev.openActs l m = true → goes (d0.answer o .badOperand)) ∧
      (s.dev.gangOverlap s.dev.openActs l m = false → m = 0 ∨ s.dev.mode.mode = 3 →
        (busy → goes (d0.answer o .busy)) ∧
        (¬ busy → outcome ((List.range (2 ^ m)).map (l + ·)) (∃ d : Dev, goes (d.answer o .ok) ∧ ∀ k, d.engine k =
          if k < l ∨ l + 2 ^ m ≤ k then s.dev.engine k
          else if k = l then
            { s.dev.engine k with
              sizeLog2 := m, a := { (s.dev.engine k).a with map := map }, ckpt := { (s.dev.engine k).ckpt with map := map } }
          else { s.dev.engine k with sizeLog2 := m, st := .follower })))) ∧
    (bit (c.w 1) 31 = true →
      let none : Prop := (s.dev.engine l).sizeLog2 = 0 ∨ (s.dev.engine l).st = .follower
      let busy : Prop := (s.dev.engine l).st.halted = false ∨ ∃ k ∈ s.dev.driven l, s.dev.startPends k = true
      (none → goes (d0.answer o .badOperand)) ∧
      (¬ none → busy → goes (d0.answer o .busy)) ∧
      (¬ none → ¬ busy → outcome (s.dev.driven l) (∃ d : Dev, goes (d.answer o .ok) ∧ ∀ k, d.engine k =
        if k ∈ s.dev.driven l then
          { s.dev.engine k with sizeLog2 := 0, st := if k = l then (s.dev.engine l).st else .idle }
        else s.dev.engine k)))

/-- Refills, page swaps and gangs. -/
def Obligations.RefillsAndGangs : Prop :=
  Sys2Proof.Stated.Refills ∧ Sys2Proof.Stated.Gangs

/-- R80, R81, R82, R92, R93, R94, R100: the windows of an engine. Half an instruction of the shadow page, or of the active page of an
engine that does not run, is written: the low half waits, the high half stores both; the shadow page loses SVALID and a stopped
engine whose active page is loaded is idle. A write to ENG_HALT requests the stop cause HALT of an engine that moves; the state
registers of a halted engine take what is written; a pin map entry and a scramble mask of a channel whose engine does not move
change alone. What may not be written sets WERR only. -/
def Sys2Proof.Stated.EngineWindows : Prop :=
  ∀ (s : State) (n : Fin 64), s.Writable (pdEq n) →
    let e := s.dev.engine n
    let sets (i : Instr) (e' : Engine) : Prop := exec i s = .next { s with dev := s.dev.setEngine n e' }
    let drops (i : Instr) : Prop := sets i { e with werr := true }
    let others (d : Dev) : Prop := ∀ m, m ≠ n.val → d.engine m = s.dev.engine m
    (∀ (i : Fin 8192) (hi : Bool) (v : Word),
      let shadow : Prop := ¬ (4096 ≤ i.val ↔ e.a.active = true)
      let no : Prop := ¬ shadow ∧ (e.st.moving = true ∨ e.st = .follower) ∨ shadow ∧ (e.refill ≠ none ∨ s.dev.pageStaged n = true)
      let low := match e.epmLatch with
        | some (j, w) => if j = i.val then w else lo32 (Store.get (fun _ => 0) e.mem i)
        | none => lo32 (Store.get (fun _ => 0) e.mem i)
      (no → drops (.epmWrite n i hi v)) ∧
      (¬ no → ∃ d : Dev, exec (.epmWrite n i hi v) s = .next { s with dev := d } ∧ others d ∧
        (shadow → (d.engine n).a = { e.a with svalid := false } ∧ (d.engine n).st = e.st) ∧
        (¬ shadow → (d.engine n).a = e.a) ∧
        (hi = false → (d.engine n).epmLatch = some (i.val, v) ∧ (d.engine n).mem = e.mem ∧ (d.engine n).st = e.st) ∧
        (hi = true → (d.engine n).epmLatch = none ∧ (d.engine n).mem = Store.put (fun _ => 0) e.mem i (dword low v) ∧
          (¬ shadow → (d.engine n).st = if e.st = .stopped then .idle else e.st)))) ∧
    (∀ v : Word, (bit v 0 = true → e.st.moving = true → ∃ d : Dev, exec (.engHaltWrite n v) s = .next { s with dev := d } ∧
        11 ∈ (d.engine n).stops ∧ (d.engine n).a = e.a ∧ (d.engine n).st = e.st ∧ (d.engine n).mem = e.mem ∧ others d) ∧
      (bit v 0 = false ∨ e.st.moving = false → exec (.engHaltWrite n v) s = .next s)) ∧
    (∀ v : Word, (e.refill = none → s.dev.pageStaged n = false → ∃ e', sets (.svalidWrite n v) e' ∧
        e'.a = { e.a with svalid := bit v 1 } ∧ e'.mem = e.mem ∧ e'.st = e.st) ∧
      (e.refill ≠ none ∨ s.dev.pageStaged n = true → drops (.svalidWrite n v))) ∧
    (∀ (off : Fin 4096) (v : Word),
      let takes (e' : Engine) : Prop := sets (.engStateWrite n off v) e'
      let v24 := BitVec.ofNat 24 v.toNat
      (e.stateWrite off v = none → exec (.engStateWrite n off v) s = .next s) ∧
      (e.st.halted = false → e.stateWrite off v ≠ none → drops (.engStateWrite n off v)) ∧
      (e.st.halted = true →
        (off.val = 0x008 → takes { e with a := { e.a with pc := BitVec.ofNat 12 v.toNat, repLeft := 0, mloop := none, lbuf := none } }) ∧
        (off.val = 0x030 → takes { e with a := { e.a with flags := BitVec.ofNat 16 v.toNat &&& 0x5FF } }) ∧
        (off.val = 0x034 → fld v 0 5 ≤ 16 → takes { e with a := { e.a with rsp := fld v 0 5 } }) ∧
        (off.val = 0x034 → 16 < fld v 0 5 → drops (.engStateWrite n off v)) ∧
        (off.val = 0x038 → takes { e with strmap := BitVec.ofNat 16 v.toNat }) ∧
        (∀ k : Fin 8, off.val = 0x040 + 4 * k.val → takes { e with a := e.a.setG k v }) ∧
        (∀ k : Fin 4, off.val = 0x060 + 4 * k.val → takes { e with a := e.a.setLc k v24 }) ∧
        (off.val = 0x070 → takes { e with a := { e.a with xa := v24 } }) ∧
        (off.val = 0x074 → takes { e with a := { e.a with ya := v24 } }) ∧
        (off.val = 0x078 → takes { e with a := { e.a with xmax := v24 } }) ∧
        (off.val = 0x07C → takes { e with a := { e.a with ymax := v24 } }) ∧
        (off.val = 0x080 → takes { e with a := { e.a with dg := dword v (hi32 e.a.dg) } }) ∧
        (off.val = 0x084 → takes { e with a := { e.a with dg := dword (lo32 e.a.dg) v } }) ∧
        (∀ k : Fin 16, off.val = 0x0C0 + 4 * k.val → takes { e with a :=
          { e.a with rstk := Store.put (fun _ => 0) e.a.rstk k (BitVec.ofNat 13 v.toNat) } }))) ∧
    (∀ (m : Fin 16) (v : Word),
      let no : Prop := pinOk v = false ∨ (s.dev.engine (s.dev.driver n)).st.moving = true ∨ s.dev.pinStaged n m = true
      (no → drops (.pinmapWrite n m v)) ∧
      (¬ no → sets (.pinmapWrite n m v) { e with pinmap := Store.put (fun _ => 0xC000) e.pinmap m (BitVec.ofNat 16 v.toNat) })) ∧
    (∀ (k : Fin 4) (v : Word),
      let no : Prop := k.val < 2 ∧ fld v 24 8 ≠ 0 ∨ (s.dev.engine (s.dev.driver n)).st.moving = true ∨ s.dev.scrStaged n = true
      (no → drops (.scrambleMaskWrite n k v)) ∧
      (¬ no → sets (.scrambleMaskWrite n k v)
        (if k = 0 then { e with scrx := BitVec.ofNat 24 v.toNat } else if k = 1 then { e with scry := BitVec.ofNat 24 v.toNat }
         else if k = 2 then { e with scrd := dword v (hi32 e.scrd) } else { e with scrd := dword (lo32 e.scrd) v })))

/-- Engine commands and the engine windows. -/
def Obligations.EngineCommands : Prop :=
  Sys2Proof.Stated.EngineCommands ∧ Sys2Proof.Stated.PageCommands ∧ Sys2Proof.Stated.EngineWindows

/-! ## Transactions (10_transactions.md) -/

/-- R217, R219, R226, R234, R237: TXN_OPEN takes the lowest FREE slot; TXN_STAGE appends its records to an OPEN slot in order, or none of
them and answers with the place of the first that fails: a malformed record is BAD_OPERAND, one whose object is held BUSY, one whose
domain is not On FENCED, and then its kind's own check; an abort, a release and a query answer by the slot's state; OUT_OF_STEP
clears once every engine stands. -/
def Sys2Proof.Stated.TransactionCommands : Prop :=
  ∀ (s : State) (c : Tci) (o : Owner) (d0 : Dev),
    let goes (i : Instr) (d : Dev) : Prop := exec i s = .next { s with dev := d }
    let t := fld (c.w 1) 0 3
    let x := s.dev.slot t
    let held := x.acts.length
    let n32 (n : Nat) : Word := BitVec.ofNat 32 n
    (s.Accepts 0x60 c o d0 →
      (∀ u : Fin 8, (s.dev.slot u).st = .free → (∀ v, v < u.val → (s.dev.slot v).st ≠ .free) →
        goes (.txnOpen c) ((d0.setSlot u { st := .opened, dNs := 500 }).complete o .ok (n32 u) 0)) ∧
      ((∀ v, v < 8 → (s.dev.slot v).st ≠ .free) → goes (.txnOpen c) (d0.answer o .busy))) ∧
    (s.Accepts 0x61 c o d0 →
      let fails (st : Status) (i : Nat) : Prop := goes (.txnStage c) (d0.complete o st (n32 i) (n32 held))
      (x.st = .free → fails .badOperand 0) ∧
      (x.st ≠ .free → x.st ≠ .opened → fails .busy 0) ∧
      (x.st = .opened →
        (∀ i, splitRecs c.words.length (c.words.drop 1) = .error i → fails .badOperand i) ∧
        (∀ rs, splitRecs c.words.length (c.words.drop 1) = .ok rs →
          (rs = [] → fails .badOperand 0) ∧
          (rs ≠ [] → 4096 < held + rs.length → fails .errLenExceeds 0) ∧
          (rs ≠ [] → held + rs.length ≤ 4096 → match Dev.stageAll t 0 rs d0 with
            | .error (i, st) => fails st i
            | .ok d => goes (.txnStage c) (d.complete o .ok 0 (n32 (held + rs.length)))) ∧
          (∀ r, rs = [r] → held < 4096 →
            (recAction r = none → fails .badOperand 0) ∧
            (∀ a, recAction r = some a →
              (s.dev.actHeld t a = true → fails .busy 0) ∧
              (s.dev.actHeld t a = false → s.dev.actFenced t a = true → fails .fenced 0) ∧
              (s.dev.actHeld t a = false → s.dev.actFenced t a = false → s.dev.actValid t a ≠ .ok →
                fails (s.dev.actValid t a) 0) ∧
              (s.dev.actHeld t a = false → s.dev.actFenced t a = false → s.dev.actValid t a = .ok → ∃ d : Dev,
                goes (.txnStage c) (d.complete o .ok 0 (n32 (held + 1))) ∧
                d.slot t = { x with acts := x.acts ++ [a], dNs := 500 + 4 * (held + 1) } ∧ d.eng = s.dev.eng ∧ d.tim = s.dev.tim ∧
                (∀ u, u ≠ t → d.slot u = s.dev.slot u) ∧
                d.txn.staging = wrWords s.dev.txn.staging (0x20000 * t + x.staged)
                  (r ++ List.replicate ((4 - r.length % 4) % 4) 0))))))) ∧
    (s.Accepts 0x63 c o d0 →
      let may : Prop := x.st = .opened ∨ x.st = .ready ∨ x.st = .committed ∧ x.kind = 1 ∧ x.delivering = false
      (may → ∃ d : Dev, goes (.txnAbort c) ((d.answer o .ok).inject s.otp) ∧ (d.slot t).st = .aborted ∧
        (d.slot t).cause = .aborted ∧ (d.slot t).acts = x.acts ∧ d.eng = s.dev.eng ∧ ∀ u, u ≠ t → d.slot u = s.dev.slot u) ∧
      (¬ may → goes (.txnAbort c) ((d0.answer o .busy).inject s.otp))) ∧
    (s.Accepts 0x64 c o d0 →
      (x.st = .applied ∨ x.st = .aborted ∨ x.st = .outstep → goes (.txnRelease c) ((d0.setSlot t {}).answer o .ok)) ∧
      (x.st = .free ∨ x.st = .opened ∨ x.st = .preparing ∨ x.st = .ready ∨ x.st = .voted ∨ x.st = .committed →
        goes (.txnRelease c) (d0.answer o .busy))) ∧
    (s.Accepts 0x65 c o d0 → goes (.txnQuery c) (d0.complete o .ok (n32 (2 ^ 28 * x.st.code + 2 ^ 26 * x.kind +
      2 ^ 16 * (if x.st = .aborted ∨ x.st = .outstep then x.cause.code else 0) + held)) (n32 x.detail))) ∧
    (s.Accepts 0x66 c o d0 →
      (s.dev.txn.oosTxn = true → s.dev.allHalted = true →
        goes (.txnClearOos c) (({ d0 with txn := { d0.txn with oosTxn := false } } : Dev).answer o .ok)) ∧
      (s.dev.txn.oosTxn = true → s.dev.allHalted = false → goes (.txnClearOos c) (d0.answer o .busy)) ∧
      (s.dev.txn.oosTxn = false → s.dev.txn.oosBeat = true → goes (.txnClearOos c) (d0.answer o .refused)) ∧
      (s.dev.txn.oosTxn = false → s.dev.txn.oosBeat = false → goes (.txnClearOos c) (d0.answer o .ok)))

/-- R223, R224, R225, R229, R230, R231, R232: TXN_COMMIT with its checks in order. Without power actions an IMMEDIATE commit is committed
for the first boundary that leaves its delivery time, and an AT_GCI commit for its target; with them the slot prepares until its
domains agree. A PREPARE commit makes the slot READY for its XID, and a DISTRIBUTED one asks its scope to vote, votes YES for the
device itself where it can, and decides at once where no other device takes part or too little time is left. -/
def Sys2Proof.Stated.TransactionCommits : Prop :=
  ∀ (s : State) (c : Tci) (o : Owner) (d0 : Dev), s.Accepts 0x62 c o d0 →
    let goes (d : Dev) : Prop := exec (.txnCommit c) s = .next { s with dev := d.inject s.otp }
    let t := fld (c.w 1) 0 3
    let kind := fld (c.w 1) 4 2
    let x := s.dev.slot t
    let dNs := 500 + 4 * x.acts.length
    let tgt : Target :=
      { epoch := BitVec.ofNat 8 (fld (c.w 3) 24 8), gci := BitVec.ofNat 48 ((c.w 2).toNat + fld (c.w 3) 0 16 * 2 ^ 32) }
    let soon : Target :=
      { epoch := s.dev.time.epoch, gci := s.dev.time.gci + BitVec.ofNat 48 (s.dev.boundariesFor dNs) }
    let y : TxnSlot := { x with kind := kind, target := if kind = 0 then soon else tgt, dNs := dNs, owner := some o }
    let late : Prop := kind = 1 ∧ s.dev.beatsTo tgt < s.dev.beatsOf dNs ∨
      kind = 2 ∧ s.dev.beatsTo tgt < s.dev.beatsOfPs (2 * s.dev.scopeLat (s.dev.resolve (commitScope c)) + 1000000)
    let others (d : Dev) : Prop := d.eng = s.dev.eng ∧ ∀ u, u ≠ t → d.slot u = s.dev.slot u
    (commitForm c = false → goes (d0.answer o .badOperand)) ∧
    (commitForm c = true → x.st ≠ .opened → goes (d0.answer o .busy)) ∧
    (commitForm c = true → x.st = .opened →
      (kind ≠ 0 → s.dev.targetStatus tgt ≠ .ok → goes (d0.answer o (s.dev.targetStatus tgt))) ∧
      (kind ≠ 0 → s.dev.targetStatus tgt = .ok → late → goes (d0.answer o .late)) ∧
      (kind = 0 ∨ kind = 1 ∧ s.dev.targetStatus tgt = .ok ∧ ¬ late →
        (s.dev.slotFences t = false → ∃ d : Dev, goes (d.answer o .ok) ∧ others d ∧ (d.slot t).st = .committed ∧
          (d.slot t).acts = x.acts ∧ (d.slot t).target = (if kind = 0 then soon else tgt) ∧
          (d.slot t).delivering = (decide (kind = 0) || decide (s.dev.beatsTo tgt ≤ s.dev.beatsOf (dNs + 1000)))) ∧
        (s.dev.slotFences t = true →
          let d1 := (d0.setSlot t { y with st := .preparing }).fenceSlot t
          goes (if d1.slotAgreed t = true then d1.decideLocal t else d1))) ∧
      (kind = 2 ∨ kind = 3 → s.dev.targetStatus tgt = .ok → ¬ late →
        (s.dev.xidHeld t (c.w 4) = true → goes (d0.answer o .busy)) ∧
        (s.dev.xidHeld t (c.w 4) = false →
          (kind = 3 → goes ((d0.setSlot t { y with st := .ready, xid := c.w 4, owner := none }).answer o .ok)) ∧
          (kind = 2 → s.dev.scopeStatus (commitScope c) ≠ .ok → goes (d0.answer o (s.dev.scopeStatus (commitScope c)))) ∧
          (kind = 2 → s.dev.scopeStatus (commitScope c) = .ok →
            let oos : Prop := s.dev.txn.oosTxn = true ∨ s.dev.txn.oosBeat = true
            let who := s.dev.resolve (commitScope c)
            let z : TxnSlot := { y with
              st := .preparing, xid := c.w 4, scope := commitScope c, participants := who, prepared := true,
              votes := [{ addr := s.dev.ownAddr, yes := true, dNs := dNs }] }
            ∃ d : Dev, goes d ∧
              (oos → others d ∧ (d.slot t).st = .aborted ∧ (d.slot t).cause = .outOfStep) ∧
              (¬ oos → s.dev.slotFences t = false → (∀ r ∈ s.dev.pwr.reqs, r.slot ≠ some t) →
                let timely := (s.dev.setSlot t z).inTime t
                (timely = false → (d.slot t).st = .aborted ∧ (d.slot t).cause = .late) ∧
                (timely = true → (∃ a ∈ who, a ≠ s.dev.ownAddr) → d.slot t = z) ∧
                (timely = true → (∀ a ∈ who, a = s.dev.ownAddr) → (d.slot t).st = .committed ∧ (d.slot t).target = tgt ∧
                  (d.slot t).acts = x.acts))))))

/-- R223, R135: delivery of a local AT_GCI commit starts D + 1 µs before its target; it loads each staged timing set into its shadow
copy, and clears its valid bit. R231, R232, R233: a coordinator counts the votes, decides COMMIT on the last YES, and ABORT on a NO, on
a missing vote or when the time left is too short; a participant that is READY for this PREPARE votes, NO where it cannot commit, and
follows a decision that reaches it in time; every other frame changes no slot. -/
def Sys2Proof.Stated.DistributedCommits : Prop :=
  ∀ (s : State) (t : Fin 8), s.dev.live = true →
    let x := s.dev.slot t
    let own := s.dev.ownAddr
    let goes (i : Instr) (d : Dev) : Prop := exec i s = .next { s with dev := d.inject s.otp }
    let others (d : Dev) : Prop := d.eng = s.dev.eng ∧ ∀ u, u ≠ t.val → d.slot u = s.dev.slot u
    let idle (i : Instr) : Prop := ∃ d : Dev, goes i d ∧ d.txn = s.dev.txn ∧ d.eng = s.dev.eng
    let first (P : TxnSlot → Prop) : Prop := P x ∧ ∀ u, u < t.val → ¬ P (s.dev.slot u)
    let oos : Prop := s.dev.txn.oosTxn = true ∨ s.dev.txn.oosBeat = true
    let starts : Prop := x.st = .committed ∧ x.kind = 1 ∧ x.delivering = false ∧
      s.dev.beatsTo x.target ≤ s.dev.beatsOf (x.dNs + 1000)
    let loads : Prop := x.st = .committed ∧ x.delivering = true ∧ x.delivered = false
    (starts → exec (.deliveryStart t) s = .next { s with dev := s.dev.setSlot t { x with delivering := true } }) ∧
    (¬ starts → exec (.deliveryStart t) s = .next s) ∧
    (¬ loads → exec (.deliveryDone t) s = .next s) ∧
    (loads → ∃ d : Dev, exec (.deliveryDone t) s = .next { s with dev := d } ∧ others d ∧ (d.slot t).delivered = true ∧
      (d.slot t).st = .committed ∧ (d.slot t).acts = x.acts ∧
      (∀ k c w, .tsWrite k c w ∈ x.acts → (∀ w', .tsWrite k c w' ∈ x.acts → w' = w) →
        (d.channel c).shadow k = w ∧ bit (d.channel c).svalid k = false) ∧
      (∀ k c, (∀ w, .tsWrite k c w ∉ x.acts) → (d.channel c).shadow k = (s.dev.channel c).shadow k) ∧
      ∀ c, (d.channel c).act = (s.dev.channel c).act) ∧
    (let silent := x.participants.filter fun a => !x.votes.any fun v => v.addr == a
     (silent = [] ∨ x.st ≠ .preparing ∨ x.kind ≠ 2 → goes (.voteTimeout t) s.dev) ∧
     (x.st = .preparing → x.kind = 2 → ∀ a ∈ silent, (∀ b ∈ silent, a ≤ b) → ∃ d : Dev, goes (.voteTimeout t) d ∧ others d ∧
       (d.slot t).st = .aborted ∧ (d.slot t).cause = .timeout ∧ (d.slot t).detail = a)) ∧
    (let late : Prop := x.st = .preparing ∧ x.kind = 2 ∧ s.dev.inTime t = false
     (¬ late → goes (.coordinatorLate t) s.dev) ∧
     (late → ∃ d : Dev, goes (.coordinatorLate t) d ∧ others d ∧ (d.slot t).st = .aborted ∧ (d.slot t).cause = .late)) ∧
    (∀ (p : Fin 4) (f : Frame),
      let comes : Prop := s.dev.hears p f = true ∧ (f.dir = .bcast ∧ s.dev.ownBack f = false ∨
        f.dir = .up ∧ s.dev.time.role = .root ∨ f.dir = .down ∧ f.dst.toNat = own)
      (∀ xid e g sc, f.msg = .prepare xid e g sc →
        let mine (y : TxnSlot) : Prop := y.kind = 3 ∧ y.xid = xid ∧ y.st = .ready
        let done (y : TxnSlot) : Prop := y.kind = 3 ∧ y.xid = xid ∧ (y.st = .voted ∨ y.st = .committed ∨ y.st = .applied ∨
          y.st = .outstep ∨ y.st = .ready ∧ y.prepared = true)
        let asked : Prop := s.dev.inScope sc = true ∧ ∀ u, u < 8 → ¬ done (s.dev.slot u)
        (¬ comes ∨ ¬ asked → idle (.prepare p f)) ∧
        (comes → asked → (∀ u, u < 8 → ¬ mine (s.dev.slot u)) → ∃ d : Dev, d.txn = s.dev.txn ∧ d.eng = s.dev.eng ∧
          goes (.prepare p f) (d.sendVote xid false .notPresent 0)) ∧
        (comes → asked → first mine →
          let no (st : Status) : Prop := ∃ d : Dev, goes (.prepare p f) (d.sendVote xid false st x.dNs) ∧ others d ∧
            (d.slot t).st = .aborted ∧ (d.slot t).cause = st ∧ (d.slot t).acts = x.acts
          (x.target ≠ ⟨e, g⟩ → no .badOperand) ∧
          (x.target = ⟨e, g⟩ → oos → no .outOfStep) ∧
          (x.target = ⟨e, g⟩ → ¬ oos → s.dev.slotFences t = false → (∀ r ∈ s.dev.pwr.reqs, r.slot ≠ some t.val) →
            (s.dev.targetStatus ⟨e, g⟩ ≠ .ok → no .late) ∧
            (s.dev.targetStatus ⟨e, g⟩ = .ok → ∃ d : Dev, goes (.prepare p f) (d.sendVote xid true .ok x.dNs) ∧ others d ∧
              d.slot t = { x with st := .voted, prepared := true, scope := sc })))) ∧
      (∀ xid yes st dNs, f.msg = .vote xid yes st dNs →
        let src := f.src.toNat
        let comes : Prop := s.dev.hears p f = true ∧
          (f.dir = .up ∧ s.dev.time.role = .root ∨ f.dir = .down ∧ f.dst.toNat = own)
        let mine (y : TxnSlot) : Prop := y.kind = 2 ∧ y.xid = xid ∧ y.st ≠ .opened
        let counts : Prop := x.st = .preparing ∧ src ∈ x.participants ∧ ∀ v ∈ x.votes, v.addr ≠ src
        (¬ comes ∨ (∀ u, u < 8 → ¬ mine (s.dev.slot u)) → idle (.vote p f)) ∧
        (comes → first mine → ¬ counts → idle (.vote p f)) ∧
        (comes → first mine → counts →
          let z : TxnSlot := { x with votes := x.votes ++ [{ addr := src, yes := true, dNs := dNs.toNat }] }
          let timely := (s.dev.setSlot t z).inTime t
          let full : Prop := ∀ a ∈ x.participants, a = src ∨ ∃ v ∈ x.votes, v.addr = a
          ∃ d : Dev, goes (.vote p f) d ∧ others d ∧
            (yes = false → (d.slot t).st = .aborted ∧ (d.slot t).cause = st ∧ (d.slot t).detail = src) ∧
            (yes = true → timely = false → (d.slot t).st = .aborted ∧ (d.slot t).cause = .late) ∧
            (yes = true → timely = true → full → (d.slot t).st = .committed ∧ (d.slot t).acts = x.acts ∧
              (d.slot t).target = x.target) ∧
            (yes = true → timely = true → ¬ full → d.slot t = z))) ∧
      (∀ xid commit cause detail sc, f.msg = .decision xid commit cause detail sc →
        let mine (y : TxnSlot) : Prop := y.kind = 3 ∧ y.xid = xid ∧ (y.st = .voted ∨ y.st = .outstep)
        let timely := s.dev.timeLeft x.target (1000 * x.dNs)
        (¬ comes ∨ (∀ u, u < 8 → ¬ mine (s.dev.slot u)) → idle (.decision p f)) ∧
        (comes → first mine → x.st = .outstep ∨ timely = false → idle (.decision p f)) ∧
        (comes → first mine → x.st = .voted → timely = true → ∃ d : Dev, goes (.decision p f) d ∧ others d ∧
          (d.slot t).acts = x.acts ∧ (d.slot t).target = x.target ∧
          (commit = true → (d.slot t).st = .committed) ∧
          (commit = false → (d.slot t).st = .aborted ∧ (d.slot t).cause = cause ∧ (d.slot t).detail = detail.toNat))))

/-- Transaction commands and distributed commits. -/
def Obligations.Transactions : Prop :=
  Sys2Proof.Stated.TransactionCommands ∧ Sys2Proof.Stated.TransactionCommits ∧ Sys2Proof.Stated.DistributedCommits

/-! ## The Byith link (11_byith_link.md)

What a row of the link makes the device send leaves in the order of R243 (`Dev.inRank`), or the packets that waited go on
afterwards (`Dev.inject`). -/

/-- R244, R247: a port trains through its stages, and starts again on a timeout, which is counted; HELLO is said as stage 3 begins and
gives the port what it knows of its partner; at its end the role of the port is chosen: on the root DOWNSTREAM, or BLOCKED where the
partner is a root or holds an address; elsewhere DOWNSTREAM to a partner without an address, UPSTREAM on the first port that may
be it, else BLOCKED. -/
def Sys2Proof.Stated.LinkTraining : Prop :=
  ∀ (s : State) (p : Fin 4), s.dev.live = true →
    let x := s.dev.port p
    let b := s.dev.byt
    let n := s.dev.portStage p
    let goes (i : Instr) (d : Dev) : Prop := exec i s = .next { s with dev := s.dev.inRank d } ∧ d.eng = s.dev.eng ∧
      ∀ q : Fin 4, q ≠ p → (d.port q) = s.dev.port q
    let idle (i : Instr) : Prop := exec i s = .next { s with dev := s.dev.inRank s.dev }
    let got (f : Frame) : Dev := if msgAcked f.msg = true then s.dev.sendAck p f else s.dev
    let moved (d : Dev) (k : Nat) : Prop := let y := d.port p
      y = { x with role := .training, stage := k, seq := y.seq, unacked := y.unacked }
    (s.dev.domOn pdBy = true → n = 1 → ∃ d, goes (.trainingStageDone p) d ∧ moved d 2 ∧ d.byt.sent = b.sent) ∧
    (s.dev.domOn pdBy = true → n = 2 → ∃ d f addr depth root free, goes (.trainingStageDone p) d ∧ moved d 3 ∧
      d.byt.sent = b.sent ++ [(p.val, f)] ∧ f.dir = .hop ∧ f.msg = .hello b.uid addr depth root free ∧
      (root = true ↔ s.dev.time.role = .root) ∧ (addr.isSome = true ↔ s.dev.time.role = .root ∨ b.jstate = .joined)) ∧
    (s.dev.domOn pdBy = true → n = 4 → x.role = .downstream → ∃ d, goes (.trainingStageDone p) d ∧
      d.port p = { x with stage := 0 } ∧ d.byt.sent = b.sent) ∧
    (s.dev.domOn pdBy = false ∨ (n ≠ 1 ∧ n ≠ 2 ∧ (n ≠ 4 ∨ x.role ≠ .downstream)) → idle (.trainingStageDone p)) ∧
    (x.stage = 0 → idle (.trainingTimeout p)) ∧
    (x.stage ≠ 0 → ∃ d, goes (.trainingTimeout p) d ∧ (d.port p).retrain = satAdd 65535 x.retrain 1 ∧ (d.port p).unacked = [] ∧
      (d.port p).role = (if x.enabled = true then .training else .down) ∧ (d.port p).stage = (if x.enabled = true then 1 else 0) ∧
      d.byt.upPort = (if b.upPort = some p.val then none else b.upPort)) ∧
    (∀ f uid addr depth root free, f.msg = .hello uid addr depth root free →
      (s.dev.hears p f = false → idle (.hello p f)) ∧
      (s.dev.hears p f = true →
        let y : Port := { x with partner := (addr.getD 0).toNat, partnerHolds := addr.isSome, partnerRoot := root,
                                 partnerDepth := depth.toNat, partnerUid := uid, hello := true }
        let again : Prop := x.stage ≠ 3 ∧ s.dev.time.role = .downstream ∧ b.upPort = none ∧ x.role = .downstream ∧ addr.isSome = true
        let chooses : Prop := x.stage = 3 ∨ again
        let quiet : Prop := b.upPort = none ∨ ∀ n, (s.dev.evtCfg n).byt = false
        let ends (z : Port) (up : Option Nat) : Prop := ∃ d, exec (.hello p f) s = .next { s with dev := s.dev.inRank d } ∧
          d.eng = s.dev.eng ∧ d.byt.upPort = up ∧ (quiet → d.port p = z ∧ d.byt.sent = (got f).byt.sent ∧
            ∀ q : Fin 4, q ≠ p → d.port q = s.dev.port q) ∧
          { d.port p with seq := z.seq, unacked := z.unacked } = z ∧
          (∀ q : Fin 4, q ≠ p → { d.port q with seq := (s.dev.port q).seq, unacked := (s.dev.port q).unacked } = s.dev.port q) ∧
          (up = b.upPort → d.byt.depth = b.depth ∧ d.byt.jstate = b.jstate) ∧
          (up ≠ b.upPort → d.byt.depth = depth.toNat + 1 ∧ d.byt.jstate = .training)
        (¬ chooses ∨ s.dev.time.role = .undetermined → ends y b.upPort) ∧
        (chooses → s.dev.time.role = .root → root = true ∨ addr.isSome = true →
          ends { y with role := .blocked, stage := 0 } b.upPort) ∧
        (chooses → s.dev.time.role = .root → root = false → addr = none →
          ends { y with role := .downstream, stage := 4 } b.upPort) ∧
        (chooses → s.dev.time.role = .downstream → addr = none → ends { y with role := .downstream, stage := 0 } b.upPort) ∧
        (chooses → s.dev.time.role = .downstream → addr.isSome = true →
          (b.upPort = none → x.fix.getD p = p.val →
            ends { y with role := .upstream, stage := 4, echoCount := 0, echoSum := 0 } (some p.val)) ∧
          (b.upPort ≠ none ∨ x.fix.getD p ≠ p.val → ends { y with role := .blocked, stage := 0 } b.upPort))))

/-- R245, R248, R249: 256 echoes give the upstream latency, the first of them ends training and the device asks to join; the root
gives a UID its address, the lowest free one where it held none, or refuses, and every other device passes the request on; the
device takes its own address, and a refused one asks again. -/
def Sys2Proof.Stated.LinkJoin : Prop :=
  ∀ (s : State) (p : Fin 4), s.dev.live = true →
    let x := s.dev.port p
    let b := s.dev.byt
    let goes (i : Instr) (d : Dev) : Prop := exec i s = .next { s with dev := s.dev.inRank d } ∧ d.eng = s.dev.eng
    let idle (i : Instr) : Prop := exec i s = .next { s with dev := s.dev.inRank s.dev }
    let got (f : Frame) : Dev := if msgAcked f.msg = true then s.dev.sendAck p f else s.dev
    (∀ t, (∀ q, b.upPort = some q → s.dev.domOn pdBy = true → ∃ d f, goes (.echoSend t) d ∧
        d.byt.sent = b.sent ++ [(q, f)] ∧ f.dir = .hop ∧ f.msg = .echoReq t) ∧
      (b.upPort = none ∨ s.dev.domOn pdBy = false → idle (.echoSend t))) ∧
    (∀ f t turn, f.msg = .echoReq t → (s.dev.hears p f = false → idle (.echoReq p f turn)) ∧
      (s.dev.hears p f = true → ∃ d a g, goes (.echoReq p f turn) d ∧
        d.byt.sent = b.sent ++ [(p.val, a), (p.val, g)] ∧ a.msg = .ack ∧ a.seq = f.seq ∧ g.dir = .hop ∧ g.msg = .echoRsp t turn)) ∧
    (∀ f t turn rtt, f.msg = .echoRsp t turn → (s.dev.hears p f = false → idle (.echoRsp p f rtt)) ∧ (s.dev.hears p f = true →
      let sum := x.echoSum + (125 * ((rtt.toNat : Int) - (turn.toNat : Int)) + 32 * x.asym.toInt)
      let mean := (roundDiv sum 65536).toNat
      (b.upPort ≠ some p.val → goes (.echoRsp p f rtt) (got f)) ∧
      (b.upPort = some p.val →
        (x.echoCount < 255 → ∃ d, goes (.echoRsp p f rtt) d ∧
          d.port p = { x with echoCount := x.echoCount + 1, echoSum := sum }) ∧
        (255 ≤ x.echoCount → x.stage = 4 → ∃ d, goes (.echoRsp p f rtt) d ∧ (d.port p).latValid = true ∧
          (d.port p).latPs = mean ∧ (d.port p).stage = 0 ∧ (d.port p).echoCount = 0 ∧ d.byt.jstate = .joining) ∧
        (255 ≤ x.echoCount → x.stage ≠ 4 → ∃ d, goes (.echoRsp p f rtt) d ∧ d.port p = { x with
          echoCount := 0, echoSum := 0, latNew := if mean = x.latPs then x.latNew else some mean })))) ∧
    (∀ f uid parent depth lat, f.msg = .joinReq uid parent depth lat →
      let refuses : Prop := 12 < depth.toNat ∨ s.dev.tpllsLocked = false ∨ s.dev.freeAddr uid = none
      (s.dev.hears p f = false → idle (.joinReq p f)) ∧
      (s.dev.hears p f = true →
        (s.dev.time.role ≠ .root →
          let lat' := if parent.toNat = s.dev.ownAddr then lat + BitVec.ofNat 20 (s.dev.dirEnt s.dev.ownAddr).latPs else lat
          goes (.joinReq p f) ((got f).putUp { f with msg := .joinReq uid parent depth lat' })) ∧
        (s.dev.time.role = .root → refuses →
          goes (.joinReq p f) ((got f).sayParent parent.toNat uid (.joinRefuse uid .refused))) ∧
        (s.dev.time.role = .root → ¬ refuses → ∀ a, s.dev.freeAddr uid = some a → ∃ d, goes (.joinReq p f) d ∧
          d.dirEnt a = { present := true, depth := depth.toNat, parent := parent.toNat, latPs := lat.toNat, uid := uid } ∧
          ∀ k, k ≠ a → d.dirEnt k = s.dev.dirEnt k))) ∧
    (∀ uid a, 0 < a → a < 1024 → (∀ e ∈ b.dir, e.2.uid ≠ uid) →
      (s.dev.dirEnt a).present = false → (∀ k, 0 < k → k < a → (s.dev.dirEnt k).present = true) →
      s.dev.freeAddr uid = some a) ∧
    (∀ f uid a, f.msg = .joinAck uid a →
      let mine : Prop := b.upPort = some p.val ∧ uid = b.uid ∧ s.dev.time.role = .downstream ∧ b.jstate ≠ .joined
      (s.dev.hears p f = false → idle (.joinAck p f)) ∧
      (s.dev.hears p f = true →
        (f.dir = .down → f.dst.toNat ≠ s.dev.ownAddr → goes (.joinAck p f) ((got f).putDown f)) ∧
        (f.dir = .down → f.dst.toNat = s.dev.ownAddr → goes (.joinAck p f) ((got f).sayParent s.dev.ownAddr uid f.msg)) ∧
        (f.dir ≠ .down → mine → ∃ d, goes (.joinAck p f) d ∧ d.byt.addr = a.toNat ∧ d.byt.jstate = .joined ∧
          d.byt.loadNext = true ∧ d.byt.good = 0 ∧ d.byt.missing = 0 ∧ d.byt.upPort = b.upPort ∧ d.byt.dir = b.dir) ∧
        (f.dir ≠ .down → ¬ mine → goes (.joinAck p f) (got f)))) ∧
    (∀ f uid st, f.msg = .joinRefuse uid st →
      let mine : Prop := b.upPort = some p.val ∧ uid = b.uid ∧ b.jstate = .joining
      (s.dev.hears p f = false → idle (.joinRefuse p f)) ∧
      (s.dev.hears p f = true →
        (f.dir = .down → f.dst.toNat ≠ s.dev.ownAddr → goes (.joinRefuse p f) ((got f).putDown f)) ∧
        (f.dir = .down → f.dst.toNat = s.dev.ownAddr →
          goes (.joinRefuse p f) ((got f).sayParent s.dev.ownAddr uid (.joinRefuse uid st))) ∧
        (f.dir ≠ .down → mine → ∃ d, goes (.joinRefuse p f) d ∧ d.byt.jstate = .refused ∧ d.byt.addr = b.addr ∧
          d.byt.upPort = b.upPort) ∧
        (f.dir ≠ .down → ¬ mine → goes (.joinRefuse p f) (got f)))) ∧
    ((b.jstate = .refused → goes .joinRetry (({ s.dev with byt := { b with jstate := .joining } } : Dev).sayJoin)) ∧
      (b.jstate ≠ .refused → idle .joinRetry))

/-- R241, R242, R255, R256, R261: an ACK ends the wait of its frame; a frame without one is sent again up to four times, and then its
port goes down; a port that goes down trains again while it is enabled, and where it was the upstream the device is no longer
aligned and holds no address; dropped frames and ignored blocks are counted, and the 16th drop within 1 ms raises the port's event, at
most once per ms. BYT_PORT_CTL enables, disables and retrains a port. -/
def Sys2Proof.Stated.LinkPorts : Prop :=
  ∀ (s : State) (p : Fin 4),
    let x := s.dev.port p
    let b := s.dev.byt
    let after (i : Instr) (d : Dev) : Prop := exec i s = .next { s with dev := d.inject s.otp }
    let ranks (i : Instr) (d : Dev) : Prop := exec i s = .next { s with dev := s.dev.inRank d }
    let down (d : Dev) (on : Bool) : Prop := (d.port p).role = (if on = true then .training else .down) ∧
      (d.port p).stage = (if on = true then 1 else 0) ∧ (d.port p).unacked = [] ∧ (d.port p).enabled = on ∧
      (b.upPort = some p.val → d.byt.upPort = none ∧ d.byt.aligned = false ∧ d.byt.eligible = false ∧ d.byt.addr = 0) ∧
      (∀ q : Fin 4, q ≠ p → (d.port q).role = (s.dev.port q).role ∧ (d.port q).stage = (s.dev.port q).stage)
    (s.dev.live = true →
      (x.role = .down ∨ x.role = .training → after (.portDown p) s.dev) ∧
      (x.role = .upstream ∨ x.role = .downstream ∨ x.role = .blocked →
        ∃ d, after (.portDown p) d ∧ down d x.enabled) ∧
      (∀ f, f.msg = .ack → (s.dev.hears p f = false → ranks (.ack p f) s.dev) ∧
        (s.dev.hears p f = true → ranks (.ack p f) (s.dev.updPort p fun y =>
          { y with unacked := y.unacked.filter fun t => t.frame.seq != f.seq }))) ∧
      (∀ seq, (x.unacked.find? (fun t => t.frame.seq == seq) = none → after (.ackTimeout p seq) s.dev) ∧
        ∀ t, x.unacked.find? (fun t => t.frame.seq == seq) = some t →
          (t.resends < 4 → ∃ d, after (.ackTimeout p seq) d ∧ d.byt.sent = b.sent ++ [(p.val, t.frame)] ∧ d.eng = s.dev.eng ∧
            d.port p = { x with unacked := x.unacked.map fun u =>
              if (u.frame.seq == seq) = true then { u with resends := u.resends + 1 } else u } ∧
            ∀ q : Fin 4, q ≠ p → d.port q = s.dev.port q) ∧
          (4 ≤ t.resends → ∃ d, after (.ackTimeout p seq) d ∧ down d x.enabled)) ∧
      (∀ r : Received,
        (x.role = .down → ranks (.badFrame p r) s.dev) ∧
        (x.role ≠ .down → ∃ d, ranks (.badFrame p r) d ∧ d.eng = s.dev.eng ∧ (d.port p).role = x.role ∧
          (d.port p).frames = satAdd 65535 x.frames ((receivedBad r).1 + (receivedBad r).2) ∧
          (b.upPort = none ∨ (∀ n, (s.dev.evtCfg n).byt = false) →
            d.byt.sent = b.sent ∧ ∀ q : Fin 4, q ≠ p → d.port q = s.dev.port q)) ∧
        (x.role ≠ .down → receivedBad r = (1, 0) →
          let now := s.dev.time.ticks
          let ms := s.dev.beatsOf 1000000
          let drops := (now :: x.drops).take 16
          let fires : Prop := drops.length = 16 ∧ now < drops.getD 15 0 + ms ∧ ∀ t, x.dropEv = some t → t + ms ≤ now
          let n := satAdd 65535 x.frames 1
          (¬ fires → ∃ d, ranks (.badFrame p r) d ∧ d.port p = { x with frames := n, drops := drops } ∧ d.evt = s.dev.evt) ∧
          (fires → ranks (.badFrame p r) ((s.dev.updPort p fun _ =>
            { x with frames := n, drops := drops, dropEv := some now }).fire (152 + p) (payload .streamError 1 n)))))) ∧
    (∀ (c : Tci) (o : Owner) (d0 : Dev), s.AcceptsAt pdBy 0xC2 c o d0 → fld (c.w 1) 0 2 = p →
      let k := fld (c.w 1) 2 2
      (k = 0 → x.enabled = true → after (.bytPortCtl c) (d0.answer o .ok)) ∧
      (k = 0 → x.enabled = false → ∃ d : Dev, after (.bytPortCtl c) (d.answer o .ok) ∧
        (d.port p).enabled = true ∧ (d.port p).role = .training ∧ (d.port p).stage = 1 ∧ d.eng = s.dev.eng) ∧
      (k = 1 → ∃ d : Dev, after (.bytPortCtl c) (d.answer o .ok) ∧ down d false) ∧
      (k = 2 → x.enabled = false → after (.bytPortCtl c) (d0.answer o .ok)) ∧
      (k = 2 → x.enabled = true → ∃ d : Dev, after (.bytPortCtl c) (d.answer o .ok) ∧ down d true) ∧
      (k = 3 → after (.bytPortCtl c) (d0.answer o .badOperand)))

/-- Joining the tree and training ports. -/
def Obligations.LinkJoin : Prop :=
  Sys2Proof.Stated.LinkTraining ∧ Sys2Proof.Stated.LinkJoin ∧ Sys2Proof.Stated.LinkPorts

/-- R43, R250, R251, R253, R256, R258: a device whose beat is locked sends the marker of its last multiple of 256 on every downstream
port. A marker on the upstream port places its edge; the first after a join loads the count, sixteen good ones in a row align the
device, one that differs puts an aligned device OUT_OF_STEP, one that says HOLD takes ALIGNED away, and so does the fourth missing
one; BYT_REALIGN starts anew; R42: only the root takes BYT_EPOCH_RELOAD, for a target that leaves time for the tree. -/
def Obligations.MarkersAndCount : Prop :=
  ∀ (s : State),
    let b := s.dev.byt
    let t := s.dev.time
    let ranks (i : Instr) (d : Dev) : Prop := exec i s = .next { s with dev := s.dev.inRank d }
    (∀ offset, s.dev.live = true →
      let on : Prop := t.started = true ∧ s.dev.beatLocked = true ∧ s.dev.domOn pdBy = true
      let g := t.gci.toNat - t.gci.toNat % 256
      let announce := g % 65536 == 0 || b.newEpoch
      (¬ on → ranks (.markSend offset) s.dev) ∧
      (on → ∃ d m rest, ranks (.markSend offset) d ∧ d.eng = s.dev.eng ∧ d.time = t ∧
        m.gci = BitVec.ofNat 48 g ∧ m.epoch = t.epoch ∧ m.offset = offset ∧ m.announce = announce ∧
        m.auto = t.autoAnnounced ∧ m.rld = (t.reload.isSome || t.autoAnnounced) ∧
        (∀ r, t.reload = some r → m.rldGci = r.target ∧ m.newGci = r.newGci) ∧
        m.hold = (b.hold || s.dev.tpllHoldover || (t.role == .downstream && b.upPort.isNone)) ∧
        d.byt.sent = b.sent ++ (s.dev.downPorts.map fun p =>
          (p, { s.dev.ownFrame .hop 0 (.mark m) with seq := (s.dev.port p).seq })) ++ rest ∧
        ((announce = false ∨ t.role ≠ .root) → (b.sumIntv = 0 ∨ g / 256 % b.sumIntv.toNat ≠ 0) → rest = []))) ∧
    (∀ (p : Fin 4) (f : Frame) m (arr : BitVec 32), s.dev.live = true → f.msg = .mark m →
      let after (d : Dev) : Prop := exec (.mark p f arr) s = .next { s with dev := d.inject s.otp }
      let x := s.dev.port p
      let placed : Dev := s.dev.updPort p fun y => { y with latPs := y.latNew.getD y.latPs, latNew := none }
      let k := (placed.placeEdge p m arr).1
      let near := (placed.placeEdge p m arr).2
      let here : Prop := s.dev.hears p f = true ∧ b.upPort = some p.val ∧ t.role = .downstream
      let keeps (d : Dev) : Prop := d.port p = { x with latPs := x.latNew.getD x.latPs, latNew := none } ∧ d.byt.missing = 0
      let still (d : Dev) : Prop := keeps d ∧ d.eng = s.dev.eng ∧ d.time = t ∧ d.txn = s.dev.txn
      let r := markReload m k
      let same : Prop := markCount m k = (t.epoch, t.gci) ∧ (t.reload = r.1 ∨ t.reload = none ∧ r.1 ≠ none) ∧
        (t.autoAnnounced = r.2 ∨ t.autoAnnounced = false)
      (¬ here → after s.dev) ∧
      (here → m.hold = true → ∃ d, after d ∧ d.byt.aligned = false ∧ d.byt.hold = true ∧ d.byt.good = 0 ∧ d.eng = s.dev.eng ∧
        d.time = t ∧ d.byt.missing = 0) ∧
      (here → m.hold = false → b.hold = true → ∃ d, after d ∧ d.byt.hold = false ∧ d.byt.aligned = b.aligned ∧
        d.byt.jstate = (if b.jstate = .joined then .joining else b.jstate) ∧ d.eng = s.dev.eng ∧ d.time = t) ∧
      (here → m.hold = false → b.hold = false →
        (b.loadNext = true → ∃ d, after d ∧ (d.time.epoch, d.time.gci) = markCount m k ∧ d.time.started = true ∧
          d.time.reload = r.1 ∧ d.time.autoAnnounced = r.2 ∧ d.byt.loadNext = false ∧ d.byt.missing = 0 ∧
          d.byt.good = if near = true then 1 else 0) ∧
        (b.loadNext = false → t.started = false → ∃ d, after d ∧ still d ∧ d.byt.good = b.good ∧ d.byt.aligned = b.aligned) ∧
        (b.loadNext = false → t.started = true → ¬ same →
          (b.aligned = false ∨ s.dev.txn.oosBeat = true → ∃ d, after d ∧ still d ∧ d.byt.aligned = b.aligned ∧
            d.byt.good = if b.aligned = true then b.good else 0) ∧
          (b.aligned = true → s.dev.txn.oosBeat = false → ∃ d, after d ∧ d.txn.oosBeat = true ∧ d.byt.eligible = false ∧
            d.time = t ∧ ∀ n : Fin 64, (d.engine n).a = (s.dev.engine n).a ∧
              ((s.dev.engine n).st.moving = true → 3 ∈ (d.engine n).stops))) ∧
        (b.loadNext = false → t.started = true → same →
          let good := if near = true then b.good + 1 else 0
          (b.aligned = true ∨ good < 16 ∨ b.jstate ≠ .joined → ∃ d, after d ∧ keeps d ∧ d.eng = s.dev.eng ∧ d.txn = s.dev.txn ∧
            d.time = { t with reload := r.1, autoAnnounced := r.2 } ∧ d.byt.aligned = b.aligned ∧
            d.byt.good = if b.aligned = true then b.good else good) ∧
          (b.aligned = false → 16 ≤ good → b.jstate = .joined → ∃ d, after d ∧ d.byt.aligned = true ∧ d.eng = s.dev.eng ∧
            d.time = { t with reload := r.1, autoAnnounced := r.2, shown := true } ∧
            d.txn.oosBeat = (s.dev.txn.oosBeat && !b.realigning))))) ∧
    (s.dev.live = true →
      (b.upPort = none ∨ t.role ≠ .downstream → ranks .markMissing s.dev) ∧
      (∀ p, b.upPort = some p → t.role = .downstream → ∃ d, ranks .markMissing d ∧ d.byt.missing = min (b.missing + 1) 4 ∧
        d.byt.aligned = (b.aligned && decide (b.missing < 3)) ∧ d.byt.good = 0 ∧ d.eng = s.dev.eng ∧ d.time = t)) ∧
    (∀ (c : Tci) (o : Owner) (d0 : Dev), s.AcceptsAt pdBy 0xC1 c o d0 →
      (s.dev.txn.oosBeat = true → s.dev.allHalted = true → ∃ d : Dev, exec (.bytRealign c) s = .next { s with dev := d.answer o .ok } ∧
        d.byt.aligned = false ∧ d.byt.loadNext = true ∧ d.byt.realigning = true ∧ d.byt.eligible = false ∧
        d.time = { t with started := false, shown := false, reload := none, autoAnnounced := false } ∧ d.eng = s.dev.eng) ∧
      (s.dev.txn.oosBeat = true → s.dev.allHalted = false → exec (.bytRealign c) s = .next { s with dev := d0.answer o .busy }) ∧
      (s.dev.txn.oosBeat = false → exec (.bytRealign c) s = .next { s with dev := d0.answer o .ok })) ∧
    (∀ (c : Tci) (o : Owner) (d0 : Dev), s.AcceptsAt pdBy 0xC0 c o d0 →
      let tells (d : Dev) : Prop := exec (.bytEpochReload c) s = .next { s with dev := d }
      let g : Target := { epoch := t.epoch, gci := BitVec.ofNat 48 ((c.w 1).toNat + fld (c.w 2) 0 16 * 2 ^ 32) }
      let new := BitVec.ofNat 48 ((c.w 3).toNat + fld (c.w 4) 0 16 * 2 ^ 32)
      let busy : Prop := t.reload ≠ none ∨ t.autoAnnounced = true
      let late : Prop := s.dev.targetStatus g ≠ .ok ∨ s.dev.beatsTo g < s.dev.beatsOfPs (2 * s.dev.treeLat + 1000000)
      (t.role ≠ .root → tells (d0.answer o .refused)) ∧
      (t.role = .root → busy → tells (d0.answer o .busy)) ∧
      (t.role = .root → ¬ busy → late → tells (d0.answer o .late)) ∧
      (t.role = .root → ¬ busy → ¬ late →
        tells (({ d0 with time := { t with reload := some { target := g.gci, newGci := new } } } : Dev).answer o .ok)))

/-- R246, R254, R255, R260: on the root READY and NOTREADY of a present device set and clear its readiness, LEAVE frees its address
with all below it, a SUMMARY replaces its sender's, and a forwarded event joins the ring or is counted as dropped where it is full; every
other device passes each of them on. The entries of a TOPO frame replace those of their addresses in every device that it reaches. A
word of a group bitmap is written alone. -/
def Obligations.DirectoryAndData : Prop :=
  ∀ (s : State),
    let b := s.dev.byt
    let ranks (i : Instr) (d : Dev) : Prop := exec i s = .next { s with dev := s.dev.inRank d }
    let after (i : Instr) (d : Dev) : Prop := exec i s = .next { s with dev := d.inject s.otp }
    let onlyDir (d : Dev) (a : Nat) (e : DirEnt) : Prop := d.dirEnt a = e ∧ (∀ k, k ≠ a → d.dirEnt k = s.dev.dirEnt k) ∧
      d.eng = s.dev.eng ∧ d.txn = s.dev.txn
    (∀ (p : Fin 4) (f : Frame), s.dev.live = true →
      let here : Prop := s.dev.hears p f = true ∧ s.dev.time.role = .root
      let passes (d : Dev) : Prop := d = (if s.dev.hears p f = true then
        (if msgAcked f.msg = true then s.dev.sendAck p f else s.dev).putUp f else s.dev)
      (∀ a, f.msg = .ready a →
        (here → ∃ d, ranks (.ready p f) d ∧
          onlyDir d a.toNat (if (s.dev.dirEnt a.toNat).present = true then { s.dev.dirEnt a.toNat with ready := true }
            else s.dev.dirEnt a.toNat)) ∧
        (¬ here → ∃ d, ranks (.ready p f) d ∧ passes d)) ∧
      (∀ a r, f.msg = .notReady a r →
        (here → ∃ d, ranks (.notready p f) d ∧
          onlyDir d a.toNat { s.dev.dirEnt a.toNat with ready := false, eligible := false }) ∧
        (¬ here → ∃ d, ranks (.notready p f) d ∧ passes d)) ∧
      (∀ a, f.msg = .leave a →
        (here → ∃ d, after (.leave p f) d ∧ ∀ k,
          d.dirEnt k = if (s.dev.dirEnt a.toNat).present = true ∧ k ∈ s.dev.subtree a.toNat then
            { s.dev.dirEnt k with present := false, eligible := false, ready := false } else s.dev.dirEnt k) ∧
        (¬ here → ∃ d, after (.leave p f) d ∧ passes d)) ∧
      (∀ w, f.msg = .summary w →
        (here → ∃ d, ranks (.summary p f) d ∧ Store.get (fun _ => (0 : QWord)) d.byt.sumTab f.src.toNat = w ∧
          (∀ k, k ≠ f.src.toNat → Store.get (fun _ => (0 : QWord)) d.byt.sumTab k = Store.get (fun _ => 0) b.sumTab k) ∧
          d.eng = s.dev.eng ∧ d.byt.dir = b.dir) ∧
        (¬ here → ∃ d, ranks (.summary p f) d ∧ passes d)) ∧
      (∀ w, f.msg = .event w →
        (here → ∃ d, ranks (.event p f) d ∧ d.eng = s.dev.eng ∧ d.byt.dir = b.dir ∧
          ((b.fwdHead - b.fwdTail).toNat < 128 → d.byt.fwdHead = b.fwdHead + 1 ∧ d.byt.fwdDrop = b.fwdDrop ∧
            Store.get (fun _ => 0) d.byt.fwdRing (b.fwdHead.toNat % 128) = w) ∧
          (128 ≤ (b.fwdHead - b.fwdTail).toNat → d.byt.fwdHead = b.fwdHead ∧ d.byt.fwdRing = b.fwdRing ∧
            d.byt.fwdDrop = satAdd 65535 b.fwdDrop 1)) ∧
        (¬ here → ∃ d, ranks (.event p f) d ∧ passes d))) ∧
    (∀ (p : Fin 4) (f : Frame) (l : List TopoEnt) ann, s.dev.live = true → f.msg = .topo l ann →
      (s.dev.hears p f = false → after (.topo p f) s.dev) ∧
      (s.dev.hears p f = true → (l.map (·.addr)).Nodup → ∃ d, after (.topo p f) d ∧
        (∀ e ∈ l, d.dirEnt e.addr.toNat = { s.dev.dirEnt e.addr.toNat with
          present := e.present, eligible := e.eligible, depth := e.depth.toNat, parent := e.parent.toNat, latPs := e.latPs.toNat }) ∧
        (∀ k, (∀ e ∈ l, e.addr.toNat ≠ k) → d.dirEnt k = s.dev.dirEnt k) ∧
        (∀ e ∈ l, e.addr.toNat = s.dev.ownAddr → b.jstate = .joined → d.byt.eligible = (e.present && e.eligible)))) ∧
    (∀ (g : Fin 256) (k : Fin 32) (w : Word), s.Writable pdBy → ∃ d : Dev, exec (.bytGroupWrite g k w) s = .next { s with dev := d } ∧
      (let old := Store.get (fun _ => (0 : BitVec 1024)) b.group g
       let new := Store.get (fun _ => (0 : BitVec 1024)) d.byt.group g
       fld new (32 * k) 32 = w.toNat ∧ ∀ j : Fin 32, j ≠ k → fld new (32 * j) 32 = fld old (32 * j) 32) ∧
      (∀ g' : Fin 256, g' ≠ g → Store.get (fun _ => (0 : BitVec 1024)) d.byt.group g' = Store.get (fun _ => 0) b.group g') ∧
      d.byt.dir = b.dir ∧ d.eng = s.dev.eng)

/-! ## Configuration and the fabric (12_fabric.md, 13_configuration.md) -/

/-- R291, R300, R303, R305, R310, R311, R318, Table 13-7: CFG_LOAD with its checks in order. A wrong operand, a load in progress, a mode
or a domain that forbids it is answered with CFG_ERRPOS as it stands; it waits for a DMA channel and for Bus Master Enable; a stream
too short, a source that cannot be read and a header that fails end the load with that status; an accepted header starts pass 1,
and a FULL load puts every region in hold. CFG_ABORT ends a load in its passes, CFG_SWAP waits for its boundary, a free key slot
takes its key and a failed program spoils it, and ENCONLY is set. -/
def Sys2Proof.Stated.ConfigurationCommands : Prop :=
  ∀ (s : State) (c : Tci) (o : Owner) (d0 : Dev),
    let goes (i : Instr) (d : Dev) : Prop := exec i s = .next { s with dev := d }
    let errPos : Word := BitVec.ofNat 32 s.dev.cfg.errPos.toNat
    (∀ x : Dma, s.Accepts 0x70 c o d0 →
      let src := fld (c.w 1) 0 2
      let addr := (c.w64 2).toNat
      let len := (c.w 4).toNat
      let bad : Prop := c.w 1 ≠ BitVec.ofNat 32 src ∨ src = 3 ∨ src = 0 ∧ addr % 16 ≠ 0
      let waits : Prop := d0.freeChan = none ∨ src = 0 ∧ d0.cmd.bme = false
      let got := d0.sourceBytes o src addr 64
      let l := loadOf o src addr len got.2.2
      let fails (st : Status) : Prop := ∃ d : Dev, goes (.cfgLoad c x) (d.complete o st 0xFFFFFF 0) ∧ d.cfg.load = none ∧
        d.cfg.lstatus = st ∧ d.cfg.errPos = 0xFFFFFF ∧ d.cfg.plane = s.dev.cfg.plane
      (bad → goes (.cfgLoad c x) (d0.complete o .badOperand errPos 0)) ∧
      (¬ bad → s.dev.cfg.load ≠ none → goes (.cfgLoad c x) (d0.complete o .busy errPos 0)) ∧
      (¬ bad → s.dev.cfg.load = none → waits → goes (.cfgLoad c x) (d0.park c o)) ∧
      (¬ bad → s.dev.cfg.load = none → ¬ waits →
        (len < 64 → fails .shortStream) ∧
        (64 ≤ len → src = 0 → x ≠ .done → fails (dmaStatus x)) ∧
        (64 ≤ len → src ≠ 0 ∨ x = .done →
          (got.2.1 = true → fails .mediaError) ∧
          (got.2.1 = false → got.1.loadStatus l ≠ .ok →
            goes (.cfgLoad c x) (got.1.complete o (got.1.loadStatus l) errPos 0)) ∧
          (got.2.1 = false → got.1.loadStatus l = .ok →
            (headerStatus s.otp got.2.2 ≠ .ok → fails (headerStatus s.otp got.2.2)) ∧
            (headerStatus s.otp got.2.2 = .ok → ∃ d : Dev, goes (.cfgLoad c x) d ∧ d.cfg.load = some l ∧ d.cfg.lfull = l.full ∧
              d.cfg.prog = 0 ∧ d.cfg.plane = s.dev.cfg.plane ∧ d.cfg.active = s.dev.cfg.active ∧
              (l.full = false → d.cfg.lregion = l.region ∧ d.cfg.done = s.dev.cfg.done ∧ d.eng = s.dev.eng) ∧
              (l.full = true → l.toActive = false ∧ d.cfg.done = false ∧ d.cfg.blank = true ∧ d.fab.outRel = false ∧
                ∀ n : Fin 16, (d.fabRegion n).hold = true ∧ (d.fabRegion n).gsr = true)))))) ∧
    (s.Accepts 0x72 c o d0 →
      (∀ l, s.dev.cfg.load = some l → l.pass ≤ 2 → ∃ d : Dev, goes (.cfgAbort c) (d.answer o .ok) ∧ d.cfg.load = none ∧
        d.cfg.lstatus = .aborted ∧ d.cfg.errPos = 0xFFFFFF ∧ d.cfg.plane = s.dev.cfg.plane ∧ d.eng = s.dev.eng) ∧
      ((∀ l, s.dev.cfg.load = some l → 2 < l.pass) → goes (.cfgAbort c) (d0.answer o .ok))) ∧
    (s.Accepts 0x71 c o d0 →
      let n := fld (c.w 1) 0 4
      let st := s.dev.swapStatus n (s.dev.regionHeld n)
      (c.w 1 ≠ BitVec.ofNat 32 n → goes (.cfgSwap c) (d0.answer o .badOperand)) ∧
      (c.w 1 = BitVec.ofNat 32 n → st = .ok → goes (.cfgSwap c) { d0 with cfg := { s.dev.cfg with
        swaps := s.dev.cfg.swaps ++ [{ region := n, due := s.dev.boundariesFor 1000, owner := o }] } }) ∧
      (c.w 1 = BitVec.ofNat 32 n → st ≠ .ok → goes (.cfgSwap c) (d0.answer o st))) ∧
    (s.Accepts 0x73 c o d0 →
      let k := fld (c.w 1) 0 1
      let slot := Store.get (fun _ => ({} : KeySlot)) s.otp.keys k
      let put (key : Option (BitVec 256)) : Otp :=
        { s.otp with keys := Store.put (fun _ => {}) s.otp.keys k { key := key, gens := slot.gens + 1 } }
      let both (v : Verify) (otp : Otp) (st : Status) : Prop :=
        exec (.cfgKeyProg c v) s = .next { s with otp := otp, dev := d0.answer o st }
      let taken : Prop := slot.key ≠ none ∨ 4 ≤ slot.gens
      (∀ v, c.w 1 ≠ BitVec.ofNat 32 k → both v s.otp .badOperand) ∧
      (∀ v, c.w 1 = BitVec.ofNat 32 k → taken → both v s.otp .refused) ∧
      (c.w 1 = BitVec.ofNat 32 k → ¬ taken → both .failed (put none) .mediaError ∧ ∀ n, ∃ key : BitVec 256,
        both (.passed n) (put (some key)) .ok ∧ ∀ i : Fin 8, fld key (32 * i) 32 = (c.w (2 + i)).toNat)) ∧
    (s.Accepts 0x74 c o d0 →
      exec (.cfgEnconly c) s = .next { s with otp := { s.otp with encOnly := true }, dev := d0.answer o .ok })

/-- R290, R293, R295 to R302, R309: pass 1 of a load judges the stream, with the frame of the first failure, and starts pass 2, which
takes the valid mark of what it writes; pass 2 reads the stream again, and where it is the same a region's plane, or every shadow
plane of a FULL load, is written, valid and marked with its SID; a FULL load then makes these planes active and starts up. A load
whose source must wait, and one that is not in that pass, changes nothing. -/
def Sys2Proof.Stated.LoadPasses : Prop :=
  ∀ (s : State), s.dev.live = true →
    let goes (i : Instr) (d : Dev) : Prop := exec i s = .next { s with dev := d }
    let c := s.dev.cfg
    ((∀ l, c.load = some l → l.pass ≠ 1 ∨ s.dev.passWaits l = true) → ∀ bad x, exec (.loadPass1Done bad x) s = .next s) ∧
    ((∀ l, c.load = some l → l.pass ≠ 2 ∨ s.dev.passWaits l = true) → ∀ bad x, exec (.loadPass2Done bad x) s = .next s) ∧
    ∀ l : Load, c.load = some l → s.dev.passWaits l = false →
      let need := streamLen l.frames l.keysel
      let got := s.dev.sourceBytes l.owner l.src (l.addr + 64) need
      let unread (x : Dma) : Status := if l.src = 0 ∧ x ≠ .done then dmaStatus x else .mediaError
      let fails (i : Instr) (st : Status) (pos : Nat) : Prop := ∃ d : Dev,
        goes i (d.complete l.owner st (BitVec.ofNat 32 (BitVec.ofNat 24 pos).toNat) 0) ∧ d.cfg.load = none ∧ d.cfg.lstatus = st ∧
        d.cfg.errPos = BitVec.ofNat 24 pos ∧ d.cfg.plane = c.plane ∧ d.cfg.active = c.active ∧ d.eng = s.dev.eng
      (l.pass = 1 → ∀ (bad : Option Nat) (x : Dma),
        let i : Instr := .loadPass1Done bad x
        (l.len < 64 + need → fails i .shortStream 0xFFFFFF) ∧
        (64 + need ≤ l.len →
          (∀ k, bad = some k → fails i (unread x) k) ∧
          (bad = none → got.2.1 = true → fails i .mediaError 0xFFFFFF) ∧
          (bad = none → got.2.1 = false →
            let fs := l.frameList s.otp got.2.2
            let im := Image.takeAll l.full fs.1 0 l.image
            let d1 := got.1.setProg l.frames
            let glob := if l.full = true then d1.globBad (globOf im.1.glb l.su l.tpllWait) else none
            let border := borderStatus (d1.loadCand l im.1)
            (∀ k, im.2 = some k → fails i .streamError k) ∧
            (∀ k, im.2 = none → fs.2 = some k → fails i .streamError k) ∧
            (im.2 = none → fs.2 = none →
              (im.1.complete l.full = false → fails i .streamError 0xFFFFFF) ∧
              (im.1.complete l.full = true → ∀ k, glob = some k → fails i .badOperand (im.1.glbAt.getD k 0xFFFFFF)) ∧
              (im.1.complete l.full = true → glob = none → border ≠ .ok → fails i border 0xFFFFFF) ∧
              (im.1.complete l.full = true → glob = none → border = .ok → ∃ d, goes i d ∧
                d.cfg.load = some { l with pass := 2, seen := got.2.2 } ∧ d.cfg.active = c.active ∧ d.cfg.prog = 0 ∧
                (l.full = true → d.cfg.glob.valid = false ∧ ∀ n : Fin 16, (d.plane n (s.dev.loadPlane l n)).valid = false) ∧
                (l.full = false → (d.plane l.region (s.dev.loadPlane l l.region)).valid = false ∧
                  (l.toActive = false → d.eng = s.dev.eng ∧ d.fab = s.dev.fab) ∧
                  (l.toActive = true → (d.fabRegion l.region).hold = true ∧ (d.fabRegion l.region).gsr = true))))))) ∧
      (l.pass = 2 → ∀ (bad : Option Nat) (x : Dma),
        let i : Instr := .loadPass2Done bad x
        let per := if l.keysel = 0 then 65536 else 65552
        let im := (Image.takeAll l.full (l.frameList s.otp l.seen).1 0 l.image).1
        let wrote (p : Plane) (n : Nat) : Prop := p = { Store.get planeReset im.planes n with valid := true, sid := l.sid }
        (∀ k, firstDiff l.seen got.2.2 0 = some k → fails i .streamError (k / per * 512 + k % per / 128)) ∧
        (firstDiff l.seen got.2.2 0 = none → ∀ k, bad = some k → fails i (unread x) k) ∧
        (firstDiff l.seen got.2.2 0 = none → bad = none →
          (l.full = false → ∃ d : Dev, goes i (d.complete l.owner .ok (BitVec.ofNat 32 c.errPos.toNat) 0) ∧ d.cfg.load = none ∧
            d.cfg.lstatus = .ok ∧ d.cfg.prog = l.frames ∧ d.cfg.active = c.active ∧ d.eng = s.dev.eng ∧
            wrote (d.plane l.region (s.dev.loadPlane l l.region)) l.region ∧
            (∀ n p, p < 2 → (n, p) ≠ (l.region, s.dev.loadPlane l l.region) → d.plane n p = s.dev.plane n p) ∧
            (l.toActive = true → d.cfg.checked = c.checked) ∧
            (l.toActive = false → d.fab.mem = s.dev.fab.mem ∧ ∀ n : Fin 16,
              bit d.cfg.checked n = (bit c.checked n || decide (n.val = l.region)))) ∧
          (l.full = true → l.toActive = false → ∃ d, goes i d ∧ d.cfg.load = some { l with pass := 3, seen := [] } ∧
            d.cfg.active = ~~~c.active ∧ d.cfg.stored = ~~~c.active ∧ d.cfg.checked = 0xFFFF ∧ d.cfg.nocfg = false ∧
            d.cfg.startup = true ∧ d.cfg.suStep = 0 ∧ d.cfg.blank = false ∧ ∀ n : Fin 16,
              wrote (d.actPlane n) n ∧ (d.shdPlane n).valid = false)))

/-- R306, R307, R309, R292, R282: a start-up step acts as soon as it can and, after its delay, gives way to the next, the last of which
brings user mode; the background check marks a shadow plane, region 0 first, and one that fails loses its validity; the selections
reach the store; the hold of a region that can run ends with its reset. What is not due changes nothing. -/
def Sys2Proof.Stated.StartUpAndHolds : Prop :=
  ∀ (s : State), s.dev.live = true →
    let goes (i : Instr) (d : Dev) : Prop := exec i s = .next { s with dev := d }
    let c := s.dev.cfg
    let step := (suSteps c.su).getD c.suStep (0, 0)
    let moves (d : Dev) : Prop := d.cfg.suWait = none ∧ d.cfg.suStep = c.suStep + 1 ∧
      (c.suStep < 3 → d.cfg.done = c.done ∧ d.cfg.startup = true) ∧ (3 ≤ c.suStep → d.cfg.done = true ∧ d.cfg.startup = false)
    let ready (n : Nat) : Prop := (s.dev.actPlane n).valid = true ∧ s.dev.domOn (pdRg n) = true
    (c.startup = false ∨ (∃ k, c.suWait = some (k + 1)) ∨ c.suWait = none ∧ s.dev.suCan step.1 = false →
      exec .startupStep s = .next s) ∧
    (c.startup = true → c.suWait = some 0 → ∃ d, goes .startupStep d ∧ moves d ∧ d.fab = s.dev.fab ∧ d.eng = s.dev.eng) ∧
    (c.startup = true → c.suWait = none → s.dev.suCan step.1 = true → ∃ d, goes .startupStep d ∧
      (step.2 = 0 → moves d) ∧
      (step.2 ≠ 0 → d.cfg.suWait = some step.2 ∧ d.cfg.suStep = c.suStep ∧ d.cfg.startup = true ∧ d.cfg.done = c.done) ∧
      (step.1 = 0 → d.fab = s.dev.fab ∧ d.eng = s.dev.eng) ∧
      (step.1 = 1 → d.fab.writeEn = s.dev.fab.writeEn ∧ d.fab.outRel = s.dev.fab.outRel ∧ d.eng = s.dev.eng ∧ ∀ n : Fin 16,
        d.fabRegion n = (if (s.dev.fabRegion n).boot = true ∧ (s.dev.actPlane n).valid = true ∧ s.dev.domOn (pdRg n) = true then
          { s.dev.fabRegion n with gsr := false } else s.dev.fabRegion n)) ∧
      (step.1 = 2 → d.fab = { s.dev.fab with writeEn := true } ∧ d.eng = s.dev.eng) ∧
      (step.1 = 3 → d.fab.outRel = true ∧ d.fab.writeEn = s.dev.fab.writeEn ∧ ∀ n : Fin 16,
        ((s.dev.fabRegion n).boot = true → ready n →
          d.fabRegion n = { s.dev.fabRegion n with hold := false, boot := false }) ∧
        ((s.dev.fabRegion n).boot = true → ¬ ready n → d.fabRegion n = { s.dev.fabRegion n with boot := false }) ∧
        ((s.dev.fabRegion n).boot = false → d.fabRegion n = s.dev.fabRegion n))) ∧
    (∀ (r : Fin 16) (ok : Bool),
      let due : Prop := c.done = true ∧ bit c.checked r = false ∧ s.dev.loadTouches r = false ∧
        ∀ k, k < r.val → bit c.checked k = true ∨ s.dev.loadTouches k = true
      (¬ due → exec (.shadowCheck r ok) s = .next s) ∧
      (due → ∃ d, goes (.shadowCheck r ok) d ∧ d.eng = s.dev.eng ∧ d.cfg.active = c.active ∧
        (∀ k : Fin 16, bit d.cfg.checked k = (bit c.checked k || decide (k = r))) ∧
        d.shdPlane r = { s.dev.shdPlane r with valid := ok && (s.dev.shdPlane r).valid } ∧
        (∀ n : Fin 16, d.actPlane n = s.dev.actPlane n ∧ (n ≠ r → d.shdPlane n = s.dev.shdPlane n)))) ∧
    (∃ d, goes .activeStore d ∧ d.cfg.storing = 0 ∧ d.cfg.active = c.active ∧ d.cfg.plane = c.plane ∧ d.eng = s.dev.eng ∧
      ∀ r : Fin 16, bit d.cfg.stored r = if bit c.storing r then bit c.active r else bit c.stored r) ∧
    (∀ (r : Fin 16),
      let x := s.dev.fabRegion r
      let may : Prop := x.hold = true ∧ s.dev.fab.outRel = true ∧ c.blank = false ∧ ready r ∧ s.dev.activeLoad r = false
      (¬ may → exec (.holdEnd r) s = .next s) ∧
      (may → ∃ d, goes (.holdEnd r) d ∧ d.fabRegion r = { x with hold := false, gsr := false, boot := false, loadHold := false } ∧
        d.eng = s.dev.eng ∧ d.cfg = c ∧ ∀ k : Fin 16, k ≠ r → d.fabRegion k = s.dev.fabRegion k))

/-- Configuration loads, start-up and holds. -/
def Obligations.Configuration : Prop :=
  Sys2Proof.Stated.ConfigurationCommands ∧ Sys2Proof.Stated.LoadPasses ∧ Sys2Proof.Stated.StartUpAndHolds

/-- R267, R268, R271, R272, R279, R281: a net that stands changes nothing. At an edge of a running net, rising or falling as the half takes
it, each flip-flop of a half that has left reset and is enabled takes its D input, and under set-reset its INIT, at once where the
reset is asynchronous; a word cell's accumulator takes its output at a rising edge where its micro-instruction asks for it; a memory
port writes its enabled lanes, and its read data is the old word, the new one, or what it was, by its mode. -/
def Sys2Proof.Stated.FabricEdges : Prop :=
  ∀ (s : State), s.dev.live = true →
    let goes (i : Instr) (d : Dev) : Prop := exec i s = .next { s with dev := d } ∧ d.eng = s.dev.eng ∧ d.cfg = s.dev.cfg
    let out (n net : Nat) (more : Bool) : Prop := n < 16 ∧ (s.dev.fabRegion n).gsr = false ∧ s.dev.tested (pdRg n) = false ∧
      (s.dev.actPlane n).valid = true ∧ 2 ≤ Store.get (fun _ => 0) s.dev.fab.edges (32 * n + net) + b2n more
    (∀ (k : Fin 32) rising ins, s.dev.netRuns k = false → exec (.globalNetEdge k rising ins) s = .next s) ∧
    (∀ (k : Fin 32) (rising : Bool) (tile : Nat) (h : Fin 2) (ce sr : Bool), s.dev.netRuns k = true →
      let ins : List FabIn := [.half tile h ce sr]
      let n := tile / 768
      let i := 2 * (tile % 768) + h
      let own := s.dev.elem n 4 i % 32
      let runs : Prop := out n own (rising && own == k)
      let clocked : Prop := own = k ∧ (s.dev.elem n 5 i % 2 = 0 ↔ rising = true)
      let enabled := s.dev.tilePin tile (64 + 2 * h) ce
      let resets := s.dev.tilePin tile (65 + 2 * h) sr
      ∃ d, goes (.globalNetEdge k rising ins) d ∧ d.fab.mem = s.dev.fab.mem ∧ d.fab.acc = s.dev.fab.acc ∧
        (∀ t f, t ≠ tile → f < 16 → d.ffVal t f = s.dev.ffVal t f) ∧ ∀ j : Fin 8,
          let f := 8 * h.val + j
          (runs → resets = true → clocked ∨ s.dev.elem n 6 i % 2 = 1 → d.ffVal tile f = s.dev.ffInit tile f) ∧
          (runs → ¬ (resets = true ∧ (clocked ∨ s.dev.elem n 6 i % 2 = 1)) → clocked → enabled = true →
            d.ffVal tile f = s.dev.ffD ins tile f) ∧
          (¬ runs ∨ ¬ (resets = true ∧ (clocked ∨ s.dev.elem n 6 i % 2 = 1)) ∧ ¬ (clocked ∧ enabled = true) →
            d.ffVal tile f = s.dev.ffVal tile f)) ∧
    (∀ (k : Fin 32) (tile : Nat) a b ctl ce cin, s.dev.netRuns k = true →
      let ins : List FabIn := [.cell tile a b ctl ce cin]
      let n := tile / 768
      let takes : Prop := s.dev.elem n 9 (tile % 768) % 32 = k ∧ out n k true ∧ s.dev.tilePin tile 102 ce = true ∧
        nfld (s.dev.micro ins tile) 1 1 = 1
      ∃ d, goes (.globalNetEdge k true ins) d ∧ d.fab.mem = s.dev.fab.mem ∧ d.fab.ff = s.dev.fab.ff ∧
        (takes → d.acc tile = (s.dev.cellOut ins 8 tile).1) ∧ (¬ takes → d.acc tile = s.dev.acc tile) ∧
        ∀ t, t ≠ tile → d.acc t = s.dev.acc t) ∧
    (∀ (k : Fin 32) (r : Fin 16) (b : Fin 24) (p : Fin 2) (en : Bool) we addr data, s.dev.netRuns k = true →
      let ins : List FabIn := [.mem r b p en we addr data false]
      let port := 2 * b.val + p.val
      let m := 24 * r.val + b.val
      let shape := s.dev.elem r 12 port % 7
      let mode := s.dev.elem r 13 port % 3
      let bits := shapeBits shape (addr.toNat % 2 ^ shapeAddr shape)
      let acts : Prop := s.dev.elem r 11 port % 32 = k ∧ out r k true
      let may := en && !s.dev.gated r && (shape != 6 || p == 0)
      let on := en && (shape != 6 || p == 1 || may)
      let writes (j : Nat) : Prop := may = true ∧ bit we (laneOf shape j) = true
      let old := s.dev.memPort m p
      ∃ d, goes (.globalNetEdge k true ins) d ∧ d.fab.ff = s.dev.fab.ff ∧ d.fab.acc = s.dev.fab.acc ∧
        (¬ acts → d.fab.mem = s.dev.fab.mem) ∧
        (acts → (∀ j, j < bits.length → (writes j → d.memBit m (bits.getD j 0) = bit data j) ∧
            (¬ writes j → d.memBit m (bits.getD j 0) = s.dev.memBit m (bits.getD j 0))) ∧
          (∀ x, x < 36864 → x ∉ bits → d.memBit m x = s.dev.memBit m x) ∧
          (d.memPort m p).q2 = old.q ∧
          (on = false → (d.memPort m p).q = old.q) ∧
          (on = true → (∀ j, j < bits.length → ¬ writes j) ∨ mode = 1 →
            (d.memPort m p).q = ofBools (bits.map fun x => s.dev.memBit m x)) ∧
          (on = true → (∃ j, j < bits.length ∧ writes j) → mode = 0 →
            (d.memPort m p).q = ofBools (bits.map fun x => d.memBit m x)) ∧
          (on = true → (∃ j, j < bits.length ∧ writes j) → mode = 2 → (d.memPort m p).q = old.q)))

/-- R280, R283, R284, R285, R95, R288: a line that rises raises its event, and a word that logic writes for an engine sets its FXIN
flag, but not while their region is in hold; FAB_GCLK and FAB_RCTL take legal images and answer any other with WERR. -/
def Sys2Proof.Stated.FabricLines : Prop :=
  ∀ (s : State), s.dev.live = true →
    let goes (i : Instr) (d : Dev) : Prop := exec i s = .next { s with dev := d }
    let drops (i : Instr) : Prop := goes i { s.dev with fab := { s.dev.fab with werr := true } }
    (∀ (l : Fin 32) (v : Bool),
      (s.dev.inHold (l / 2) = true → exec (.eventLine l v) s = .next s) ∧
      (s.dev.inHold (l / 2) = false → ∃ d, goes (.eventLine l v) d ∧ Store.get (fun _ => false) d.fab.line l = v ∧
        d.eng = s.dev.eng ∧ (∀ k : Fin 32, k ≠ l → Store.get (fun _ => false) d.fab.line k = Store.get (fun _ => false) s.dev.fab.line k) ∧
        (v = true → Store.get (fun _ => false) s.dev.fab.line l = false → (s.dev.evtCfg (80 + l)).en = true →
          (d.evtLast (80 + l)).payload = payload .ok 1 l ∧ bit d.evt.stat (80 + l) = true) ∧
        (v = false ∨ Store.get (fun _ => false) s.dev.fab.line l = true → d.evt = s.dev.evt))) ∧
    (∀ (n : Fin 64) (w : DWord),
      let e := s.dev.engine n
      (s.dev.inHold (n / 4) = false → ∃ e', goes (.fxinWrite n w) (s.dev.setEngine n e') ∧ e'.fxin = w ∧
        e'.a = { e.a with flags := setBit e.a.flags 10 } ∧ e'.st = e.st ∧ e'.mem = e.mem) ∧
      (s.dev.inHold (n / 4) = true → exec (.fxinWrite n w) s = .next s)) ∧
    (∀ (k : Fin 32) (w : Word),
      let src := fld w 24 4
      let bad : Prop := 7 ≤ src ∨ 2 ≤ src ∧ src ≤ 5 ∧ fld w 0 8 < 3 ∨
        (s.dev.mode.mode = 5 ∨ s.dev.pendMode = some 5) ∧ s.dev.gclkFast w = true
      (bad → drops (.fabGclkWrite k w)) ∧
      (¬ bad → ∃ d, goes (.fabGclkWrite k w) d ∧ d.gclk k = w &&& 0x8F0000FF ∧ (∀ j : Fin 32, j ≠ k → d.gclk j = s.dev.gclk j) ∧
        d.eng = s.dev.eng ∧ d.fab.werr = s.dev.fab.werr)) ∧
    (∀ (n : Fin 16) (w : Word),
      let bad : Prop := fld w 17 15 ≠ 0 ∨ ∃ i : Fin 6, fld w (2 * i) 2 = 3
      (bad → drops (.fabRctlWrite n w)) ∧
      (¬ bad → ∃ d, goes (.fabRctlWrite n w) d ∧ d.fabRegion n = { s.dev.fabRegion n with rctl := w &&& 0x1FFFF } ∧
        (∀ j : Fin 16, j ≠ n → d.fabRegion j = s.dev.fabRegion j) ∧ d.eng = s.dev.eng ∧ d.fab.werr = s.dev.fab.werr))

/-- Edges of the fabric's global nets. -/
def Obligations.FabricEdges : Prop :=
  Sys2Proof.Stated.FabricEdges ∧ Sys2Proof.Stated.FabricLines

/-! ## The network on chip (15_steward_and_noc.md) -/

/-- R346, R347, R348, R351, Tables 15-6, 15-8 and 15-9: a request that its way lets through to a memory of PD_AON reads it, writes the
enabled bytes, or does its atomic on the old value that it returns; each but a posted write takes its tag and is answered once.
R353: a target whose edge is closed answers FENCED. -/
def Sys2Proof.Stated.NocRequests : Prop :=
  ∀ (s : State) (p : Packet) (a : Nat), s.dev.live = true →
    let o := srcRouter p.src.toNat
    let line := a / 16 * 16
    let m := s.dev.stw.sram
    let clear : Prop := srcDomain p.src.toNat = none ∧ p.src ≠ 7 ∧ p.src.toNat < 44 ∧ p.dx.toNat ≤ 5 ∧ p.dy.toNat ≤ 5 ∧
      (s.dev.way (6 * p.dy.toNat + p.dx.toNat) 12 (6 * o.2 + o.1) 0).2 = none
    let free : Prop := s.dev.tagSt (tagKey p) = .free
    let sram : Prop := clear ∧ targetOf p.dx.toNat p.dy.toNat p.addr.toNat = .sram a
    let answers (i : Instr) (st : Status) (data : List QWord) (mem : List Host.Cell → Prop) : Prop :=
      ∃ d r, exec i s = .next { s with dev := d } ∧ d.noc.sent = s.dev.noc.sent ++ [r] ∧ r.tag = p.tag ∧ r.src = p.src ∧
        r.status.toNat = st.code ∧ r.data = data ∧ d.tagSt (tagKey p) = .outstanding ∧ mem d.stw.sram ∧ d.eng = s.dev.eng ∧
        d.cmd.hostMem = s.dev.cmd.hostMem ∧ d.vmi.mem = s.dev.vmi.mem
    let lineIs (v : QWord) (m' : List Host.Cell) : Prop :=
      rd128 m' line = v ∧ ∀ b, b < line ∨ line + 16 ≤ b → rd8 m' b = rd8 m b
    let cellIs (w v : Nat) (m' : List Host.Cell) : Prop :=
      ofLeBytes (rdBytes m' a w) = v ∧ ∀ b, b < a ∨ a + w ≤ b → rd8 m' b = rd8 m b
    (sram → free → p.len ≠ 0 →
      answers (.read p) .ok ((List.range p.len.toNat).map fun i => rd128 m (line + 16 * i)) (· = m)) ∧
    (∀ v, sram → free → p.len = 1 → p.be = 0xFFFF → p.data = [v] → answers (.write p) .ok [] (lineIs v)) ∧
    (∀ v, sram → p.len = 1 → p.be = 0xFFFF → p.data = [v] → ∃ d, exec (.writePosted p) s = .next { s with dev := d } ∧
      lineIs v d.stw.sram ∧ d.noc.sent = s.dev.noc.sent ∧ d.noc.tags = s.dev.noc.tags ∧ d.eng = s.dev.eng) ∧
    (∀ (x : QWord) (w : Nat), sram → free → p.len = 1 → p.data = [x] → a % w = 0 → (p.be = 0x000F ∧ w = 4 ∨ p.be = 0x00FF ∧ w = 8) →
      let old := ofLeBytes (rdBytes m a w)
      let v := fld x 0 (8 * w)
      let was : List QWord := [BitVec.ofNat 128 old]
      answers (.atomicOr p) .ok was (cellIs w (old ||| v)) ∧
      answers (.atomicAdd p) .ok was (cellIs w ((old + v) % 2 ^ (8 * w))) ∧
      answers (.atomicSwap p) .ok was (cellIs w v) ∧
      answers (.atomicCas p) .ok was (cellIs w (if old = fld x 64 (8 * w) then v else old))) ∧
    (sram → free → s.dev.flushWaits p = false → answers (.flush p) .ok [] (· = m)) ∧
    (clear → free → targetOf p.dx.toNat p.dy.toNat p.addr.toNat = .nv → s.dev.tested pdNvs = false →
      (s.dev.domain pdNvs).closed = true → answers (.read p) .fenced [] (· = m) ∧ answers (.write p) .fenced [] (· = m))

/-- R19, R20, R24, R346 to R351, R353, R354, R436, R284, Table 15-9: a request whose tag is in use, of a fabric port that is shut, or
from inside a domain that is not On is not sent; one from inside a domain that is fenced or under test waits. A request that is sent
takes its tag, and every probe on its way sees it. An unused SRC gives BAD_OPCODE, a DX or DY of 6 or 7 and a NONE entry give NO_ROUTE
(the order of these two is the model's choice, log 17). At the edge of its target it is held while the domain is under test, answered
with FENCED where the edge is closed, held where it reads or writes vector memory while streams come first, and otherwise served. A
packet with a reserved CMD, or with an unused SRC, is answered with BAD_OPCODE; a command that tells of none changes nothing. -/
def Sys2Proof.Stated.NocArrivals : Prop :=
  ∀ (s : State) (p : Packet), s.dev.live = true →
    let src := p.src.toNat
    let o := srcRouter src
    let router := 6 * o.2 + o.1
    let sent (cmd : Nat) (d : Dev) : Dev := if cmd = 2 then d else d.setTag (tagKey p) .outstanding
    let taken (cmd : Nat) : Prop := cmd ≠ 2 ∧ s.dev.tagSt (tagKey p) ≠ .free
    let wait (d : Dev) (n cmd : Nat) : Dev := { d with noc := { d.noc with held := d.noc.held ++ [(n, cmd, p)] } }
    let noRoute (cmd r : Nat) (d : Dev) : Dev := (d.fire 194 (payload .noRoute 1 r)).reply cmd p .noRoute []
    (∀ x ∈ [(Instr.read p, 0), (.write p, 1), (.writePosted p, 2), (.atomicOr p, 5), (.atomicAdd p, 6), (.atomicSwap p, 7),
        (.atomicCas p, 8), (.flush p, 9)],
      let cmd : Nat := x.2
      let goes (d : Dev) : Prop := exec x.1 s = .next { s with dev := d }
      let shut : Prop := 40 ≤ src ∧ src ≤ 43 ∧ s.dev.portShut (src - 40) = true
      let units : Nat := if cmd = 0 ∨ cmd = 9 then 0 else p.len.toNat
      (taken cmd ∨ shut → exec x.1 s = .next s) ∧
      (∀ n, ¬ taken cmd → ¬ shut → srcDomain src = some n →
        ((s.dev.domain n).st ≠ .on → exec x.1 s = .next s) ∧
        ((s.dev.domain n).st = .on → (s.dev.domain n).closed = true ∨ s.dev.tested n = true → goes (wait s.dev n cmd))) ∧
      (¬ taken cmd → ¬ shut →
        (∀ n, srcDomain src = some n → (s.dev.domain n).st = .on ∧ (s.dev.domain n).closed = false ∧ s.dev.tested n = false) →
        let d := sent cmd s.dev
        let d1 := d.observe [⟨router, 0, 7⟩] cmd units p
        let w := d.way (6 * p.dy.toNat + p.dx.toNat) 12 router 0
        let d2 := d.observe w.1 cmd units p
        let place := targetOf p.dx.toNat p.dy.toNat p.addr.toNat
        let known : Prop := src ≠ 7 ∧ src < 44
        let inGrid : Prop := p.dx.toNat ≤ 5 ∧ p.dy.toNat ≤ 5
        let arrives : Prop := known ∧ inGrid ∧ w.2 = none
        (¬ known → goes (d1.reply cmd p .badOpcode [])) ∧
        (known → ¬ inGrid → goes (noRoute cmd router d1)) ∧
        (∀ k, known → inGrid → w.2 = some k → goes (noRoute cmd k d2)) ∧
        (arrives → place.domain = none → goes (d2.serve cmd p s.otp place)) ∧
        (∀ n, arrives → place.domain = some n →
          (d2.tested n = true → goes (d2.holdRequest n cmd p)) ∧
          (d2.tested n = false → (d2.domain n).closed = true → goes ((d2.fencedAnswer n).reply cmd p .fenced [])) ∧
          (d2.tested n = false → (d2.domain n).closed = false →
            (d2.streamHolds place = true → goes (wait d2 42 cmd)) ∧
            (d2.streamHolds place = false → goes (d2.serve cmd p s.otp place)))))) ∧
    (∀ (r : Fin 36) (cmd : Fin 16),
      let bad : Prop := 9 < cmd.val ∨ src = 7 ∨ 44 ≤ src
      (¬ bad ∨ taken cmd → exec (.nocReservedCmd r cmd p) s = .next s) ∧
      (bad → ¬ taken cmd →
        let d := (sent cmd s.dev).observe [⟨r, 0, 7⟩] cmd p.len.toNat p
        exec (.nocReservedCmd r cmd p) s = .next { s with dev := d.reply cmd p .badOpcode [] }))

/-- R284, R346, R347, R351, R318, R432, Tables 15-6, 15-8 and 15-9: what a target answers to a request that its edge lets in. A fabric
port whose region takes nothing answers BUSY. A FLUSH is answered with OK once no earlier write of its initiator to the router is
incomplete, and waits until then. A LEN above the target's is answered with ERR_LEN_EXCEEDS and EV195, a READ of no unit with
BAD_OPERAND. Registers, the FAT and the NV store take no atomic; registers take accesses of whole words in one unit, EPM windows in up
to four; the FAT and the NV store are read only; host memory waits for Bus Master Enable; a fabric port gets the request into its
buffer; and where nothing is, a read gives zeros and the access counts as undecoded. A memory reads its units, writes the enabled
bytes, and does an atomic of one unit on an aligned word or double word, with the old value as its answer. Every answer but that of a
posted write is one packet to the initiator; a posted write that fails counts. -/
def Sys2Proof.Stated.NocTargets : Prop :=
  ∀ (d : Dev) (cmd : Nat) (p : Packet) (otp : Otp) (t : Place),
    let n := p.len.toNat
    let no (st : Status) (d : Dev) : Dev := d.reply cmd p st []
    let atomic : Prop := 5 ≤ cmd ∧ cmd ≤ 8
    let wait (k : Nat) : Dev := { d with noc := { d.noc with held := d.noc.held ++ [(k, cmd, p)] } }
    let fits : Prop := d.shutPlace t = false ∧ cmd ≠ 9 ∧ n ≤ t.maxLen ∧ (cmd = 0 → n ≠ 0)
    (d.shutPlace t = true → d.serve cmd p otp t = no .busy d) ∧
    (d.shutPlace t = false → cmd = 9 → d.serve cmd p otp t = if d.flushWaits p then wait 41 else no .ok d) ∧
    (d.shutPlace t = false → cmd ≠ 9 →
      (t.maxLen < n → d.serve cmd p otp t = no .errLenExceeds (d.fire 195 (payload .errLenExceeds 1 p.src.toNat))) ∧
      (cmd = 0 → n = 0 → d.serve cmd p otp t = no .badOperand d)) ∧
    (fits → ∀ off, t = .unit off ∨ t = .epm off →
      let r := d.unitsRead otp off p
      (cmd = 0 → d.serve cmd p otp t = r.2.reply 0 p .ok r.1) ∧
      (atomic → d.serve cmd p otp t = no .badOpcode d) ∧
      (cmd ≠ 0 → ¬ atomic → t = .unit off → d.timBusy off = true → d.serve cmd p otp t = no .busy d) ∧
      (cmd ≠ 0 → ¬ atomic → t = .epm off ∨ d.timBusy off = false →
        d.serve cmd p otp t = no .ok (d.unitsWrite off p otp))) ∧
    (fits → ∀ off, t = .fat off →
      (cmd = 0 → d.serve cmd p otp t =
        (((List.range n).map (off / 16 + ·)).foldl Dev.fatReadEffect d).reply 0 p .ok ((List.range n).map fun i => d.fatRead128 (off / 16 + i))) ∧
      (cmd ≠ 0 → d.serve cmd p otp t = no .badOpcode d)) ∧
    (fits → t = .nv → d.serve cmd p otp t = if cmd = 0 then d.nvsRead p else no .badOpcode d) ∧
    (fits → ∀ a, t = .hostMem a →
      (atomic → d.serve cmd p otp t = no .badOpcode d) ∧
      (¬ atomic → d.serve cmd p otp t = if d.cmd.bme then d.serveMem cmd p t else wait 40)) ∧
    (fits → ∀ a, t = .vector a → d.serve cmd p otp t =
      match d.vmiStatus (a / 16 * 16) (16 * max 1 n) with
      | .ok => d.serveMem cmd p t
      | .fenced => no .fenced (d.fencedAnswer pdVmi)
      | st => no st (d.vmiErr st)) ∧
    (fits → ∀ a, t = .sram a ∨ t = .staging a → d.serve cmd p otp t = d.serveMem cmd p t) ∧
    (fits → ∀ port, t = .fabric port →
      (atomic → d.serve cmd p otp t = no .badOpcode d) ∧
      (¬ atomic → d.serve cmd p otp t =
        { d with fab := { d.fab with inbox := d.fab.inbox ++ [(1 + p.data.length, port, cmd, p)] } })) ∧
    (fits → t = .nowhere → d.serve cmd p otp t = d.undecoded.reply cmd p .ok (if cmd = 0 then List.replicate n 0 else [])) ∧
    (let m := (d.space t).1
     let a := (d.space t).2
     let unit (i : Nat) : Nat := a / 16 * 16 + 16 * i
     let old (w : Nat) : Nat := ofLeBytes (rdBytes m a w)
     (cmd = 0 → d.serveMem cmd p t = d.reply 0 p .ok ((List.range n).map fun i => rd128 m (unit i))) ∧
     (cmd = 1 ∨ cmd = 2 → d.serveMem cmd p t = no .ok (d.setSpace ((List.range n).foldl (fun m i =>
        wrMasked m (unit i) (if i = 0 then p.be else 0xFFFF) (p.data.getD i 0)) m) t)) ∧
     (atomic → ∀ w, p.be = 0x000F ∧ w = 4 ∨ p.be = 0x00FF ∧ w = 8 →
        (a % w = 0 → n = 1 → d.serveMem cmd p t = (d.setSpace (wrBytes m a (leBytes w
          (atomicNew cmd (8 * w) (old w) (p.data.headD 0)))) t).reply cmd p .ok [BitVec.ofNat 128 (old w)]) ∧
        (a % w ≠ 0 ∨ n ≠ 1 → d.serveMem cmd p t = no .badOperand d)) ∧
     (atomic → p.be ≠ 0x000F → p.be ≠ 0x00FF → d.serveMem cmd p t = no .badOperand d)) ∧
    ∀ (st : Status) (data : List QWord),
      (cmd ≠ 2 → ∃ r : Packet, d.reply cmd p st data = { d with noc := { d.noc with sent := d.noc.sent ++ [r] } } ∧ r.tag = p.tag ∧
        r.src = p.src ∧ r.status.toNat = st.code ∧ r.data = data ∧ r.addr = p.addr ∧ r.len = BitVec.ofNat 6 data.length) ∧
      (cmd = 2 → st = .ok → d.reply cmd p st data = d) ∧
      (cmd = 2 → st ≠ .ok → d.reply cmd p st data =
        ({ d with noc := { d.noc with postDrop := satAdd 0xFFFFFFFF d.noc.postDrop 1 } }).fire 196 (payload st 1 p.src.toNat))

/-- Requests of the network on chip and their answers. -/
def Obligations.NocRequests : Prop :=
  Sys2Proof.Stated.NocRequests ∧ Sys2Proof.Stated.NocArrivals ∧ Sys2Proof.Stated.NocTargets

/-- R348, R352, R284, R475: a response that reaches its initiator is seen by the probes on its way. One whose tag is not in use changes
nothing more; one that comes after the timeout frees the tag, counts in NOC_LATE and raises EV197. One in time frees the tag; it counts
in NOC_LATE where the initiator's domain is Off, is dropped at a fabric port in hold, and ends an access of the JTAG bridge. A timeout
blocks the tag and raises EV192. -/
def Sys2Proof.Stated.NocTags : Prop :=
  ∀ (s : State), s.dev.live = true →
    let goes (i : Instr) (d : Dev) : Prop := exec i s = .next { s with dev := d }
    (∀ (origin : Fin 36) (p : Packet) (ok : Bool),
      let i : Instr := if ok then .resp origin p else .errResp origin p
      let src := p.src.toNat
      let q := srcRouter src
      let k := tagKey p
      let d := s.dev.observe (s.dev.way (6 * q.2 + q.1) 12 origin 0).1 (if ok then 3 else 4) (if ok then p.len.toNat else 0) p
      let freed := d.setTag k .free
      let off : Prop := ∃ n, srcDomain src = some n ∧ (d.domain n).st = .off
      let dropped : Prop := 40 ≤ src ∧ src ≤ 43 ∧ d.inHold (src - 34) = true
      let late (x : Dev) : Dev := { x with noc := { x.noc with late := satAdd 0xFFFFFFFF x.noc.late 1 } }
      (d.tagSt k = .free → goes i d) ∧
      (d.tagSt k = .timedOut → goes i ((late ((d.answered p).setTag k .free)).fire 197 (payload .timeout 1 src))) ∧
      (d.tagSt k = .outstanding →
        (off → goes i (late (freed.answered p))) ∧
        (¬ off → dropped → goes i ((freed.answered p).updFabRegion (src - 34) fun r => { r with rspDrop := true })) ∧
        (¬ off → ¬ dropped →
          (src ≠ 0 → src ≠ 6 → goes i (freed.answered p)) ∧
          (src = 0 → ∀ x ∈ freed.fab.delivered.find? (fun x => x.2.1 == 0 && tagKey x.2.2 == k), goes i (Dev.answered (if ok
            then freed.returned [dataWord x.2.2.addr.toNat p.data] else freed.bump.returned [Config.errRead freed.fresh]) p)) ∧
          (src = 0 → freed.fab.delivered.find? (fun x => x.2.1 == 0 && tagKey x.2.2 == k) = none →
            (∀ x ∈ freed.heldRead k, goes i ((freed.bump.returned (laneFill x.be (Config.errRead freed.fresh))).answered p)) ∧
            (freed.heldRead k = none →
              goes i (Dev.answered (if ok then freed else freed.bump.returned [Config.errRead freed.fresh]) p))) ∧
          (src = 6 →
            let value := if ok && !freed.tap.write then dataWord freed.tap.addr.toNat p.data else freed.tap.data
            let status := if ok then 0 else p.status
            let tap := { freed.tap with busy := false, status := status, data := value }
            goes i (({ freed with tap := tap }).answered p))))) ∧
    (∀ (src : Fin 64) (tag : Fin 1024),
      let k := 1024 * src.val + tag.val
      (s.dev.tagSt k ≠ .outstanding → exec (.nocTimeout src tag) s = .next s) ∧
      (s.dev.tagSt k = .outstanding →
        let d := (s.dev.setTag k .timedOut).fire 192 (payload .timeout 1 src)
        (src.val ≠ 0 → src.val ≠ 6 → goes (.nocTimeout src tag) d) ∧
        (src.val = 6 → goes (.nocTimeout src tag) { d with tap := { d.tap with busy := false, status := 8 } }) ∧
        (src.val = 0 → ∃ d' v, goes (.nocTimeout src tag) d' ∧ d'.tagSt k = .timedOut ∧ d' = d.bump.returned v)))

/-- R349, R350, R354, R355, R220: a check of route tables is started by its second word, unless one runs, which sets WERR; its end finds
every named router's tables good, or gives the first entry that is not. A swap exchanges the tables of the named routers where none is
held by a transaction and every shadow copy is valid, and is dropped with WERR otherwise. A shadow word is written where no transaction
holds the router and no reserved field is set, and makes the copy not valid; it is dropped with WERR otherwise. A write of LENS_CTL sets
MODE and POST, and with ARM clears the probe's counters and starts it. -/
def Sys2Proof.Stated.NocTables : Prop :=
  ∀ (s : State), s.dev.live = true →
    let n := s.dev.noc
    let goes (i : Instr) (d : Dev) : Prop := exec i s = .next { s with dev := d }
    let nocIs (i : Instr) (n' : NocState) : Prop := goes i { s.dev with noc := n' }
    let werr : NocState := { n with werr := true }
    let word (t : Store Word) (r p i : Nat) : Word := Store.get rtReset t (rtKey r p i)
    (∀ w, (n.check ≠ none → nocIs (.nocRtCheck w) werr) ∧
      (n.check = none → ∃ m, nocIs (.nocRtCheck w) { n with check := some m } ∧ fld m 0 32 = n.checkLo.toNat ∧ fld m 32 4 = fld w 0 4)) ∧
    (n.check = none → exec .routeCheckDone s = .next s) ∧
    (∀ m, n.check = some m →
      let good (r p q : Nat) : Prop := entryOk r q (rtEntry n.shd r p q) = true
      ((∀ r p q, bit m r = true → r < 36 → p < 5 → q < 36 → good r p q) → nocIs .routeCheckDone
        { n with check := none, vstatus := .ok, svalid := n.svalid ||| m, vrouter := 0, vport := 0, vdest := 0 }) ∧
      (∀ r p q, bit m r = true → r < 36 → p < 5 → q < 36 → ¬ good r p q →
        (∀ r' p' q', bit m r' = true → p' < 5 → q' < 36 →
          (r' < r ∨ r' = r ∧ (p' < p ∨ p' = p ∧ q' < q)) → good r' p' q') →
        nocIs .routeCheckDone { n with check := none, vstatus := .badOperand, vrouter := r, vport := p, vdest := q })) ∧
    (∀ w,
      let named (r : Nat) : Prop := r < 32 ∧ bit n.swapLo r = true ∨ 32 ≤ r ∧ r < 36 ∧ bit w (r - 32) = true
      let may (r : Nat) : Prop := s.dev.routerHeld r = false ∧ bit n.svalid r = true
      (∀ r, named r → ¬ may r → nocIs (.nocRtSwap w) werr) ∧
      ((∀ r, named r → may r) → ∃ act shd sv, nocIs (.nocRtSwap w) { n with act := act, shd := shd, svalid := sv } ∧
        ∀ (r : Fin 36) (p i : Fin 5),
          (named r → word act r p i = word n.shd r p i ∧ word shd r p i = word n.act r p i ∧ bit sv r = false) ∧
          (¬ named r → word act r p i = word n.act r p i ∧ word shd r p i = word n.shd r p i ∧ bit sv r = bit n.svalid r))) ∧
    (∀ (r : Fin 36) (p i : Fin 5) (w : Word),
      let reserved : Prop := i = 4 ∧ fld w 16 16 ≠ 0
      (s.dev.routerHeld r = true ∨ reserved → nocIs (.nocShadowTableWrite r p i w) werr) ∧
      (s.dev.routerHeld r = false → ¬ reserved → ∃ shd sv, nocIs (.nocShadowTableWrite r p i w) { n with shd := shd, svalid := sv } ∧
        word shd r p i = w ∧ bit sv r = false ∧ (∀ r' : Fin 36, r' ≠ r → bit sv r' = bit n.svalid r') ∧
        ∀ (r' : Fin 36) (p' i' : Fin 5), (r', p', i') ≠ (r, p, i) → word shd r' p' i' = word n.shd r' p' i')) ∧
    (∀ (k : Fin 8) (w : Word), ∃ ls, nocIs (.lensArm k w) { n with lens := ls } ∧
      let x : Lens := { s.dev.lens k with mode := fld w 30 2, post := BitVec.ofNat 7 w.toNat }
      Store.get lensReset ls k =
        (if bit w 29 then { x with pkt := 0, units := 0, wptr := 0, st := 1, left := 0, fired := false } else x) ∧
      ∀ j, j ≠ k.val → Store.get lensReset ls j = s.dev.lens j)

/-- Tags, route tables and Lens probes. -/
def Obligations.NocTagsAndTables : Prop :=
  Sys2Proof.Stated.NocTags ∧ Sys2Proof.Stated.NocTables

/-! ## Power domains (17_power_domains.md) -/

/-- R353, R380 to R382, R384, R388, Tables 17-3 and 17-4: PWR_SET answers the status of its checks. One that passes drains each named
domain that is On and is to leave it, and closes its edge; with none to drain it agrees at once. A fence completes when nothing is
outstanding at the domain: the request that drains it ends with REFUSED where the domain refuses, with WAKE_PENDING where a wake
is latched or a level that wakes is asserted, and agrees when its last domain does; a PWR_SET then applies at the first boundary 1 µs
later. A drain that takes too long ends the request with REFUSED. PWR_QUERY reads the states. -/
def Sys2Proof.Stated.PowerRequests : Prop :=
  ∀ (s : State),
    let goes (i : Instr) (d : Dev) : Prop := exec i s = .next { s with dev := d }
    (∀ (c : Tci) (o : Owner) (d0 : Dev), s.Accepts 0x80 c o d0 →
      let set : BitVec 40 := BitVec.ofNat 40 ((c.w 2).toNat + fld (c.w 3) 0 8 * 2 ^ 32)
      let code := fld (c.w 1) 0 2
      let st := d0.pwrCheck code set (fld (c.w 3) 8 24 != 0) (d0.mode.mode :: d0.pendMode.toList)
      (st ≠ .ok → goes (.pwrSet c) (({ d0 with pwr := { d0.pwr with lstatus := st } }).answer o st)) ∧
      (st = .ok →
        let goal : DomSt := if code = 0 then .on else if code = 1 then .retention else .off
        let leaving : List Nat := if code = 0 then [] else (bitsOf set).filter d0.domOn
        let r : PwrReq := { owner := some o, goal := goal, set := set, draining := ofBits 40 leaving, fenced := leaving }
        (leaving ≠ [] → ∃ d : Dev, goes (.pwrSet c) d ∧ d.pwr.reqs = d0.pwr.reqs ++ [r] ∧
          (∀ n, n ∈ leaving → d.domain n = { d0.domain n with closed := true, told := false, latch := false }) ∧
          (∀ n, n ∉ leaving → d.domain n = d0.domain n) ∧ d = { d0 with pwr := { d0.pwr with dom := d.pwr.dom, reqs := d.pwr.reqs } }) ∧
        (leaving = [] → goes (.pwrSet c) { d0 with pwr := { d0.pwr with
          reqs := d0.pwr.reqs ++ [{ r with agreed := true, due := d0.boundariesFor 1000 }] } }))) ∧
    (∀ (c : Tci) (o : Owner) (d0 : Dev), s.Accepts 0x81 c o d0 → ∃ a b, goes (.pwrQuery c) (d0.complete o .ok a b) ∧
      ∀ i : Fin 16, (bit (c.w 1) 0 = false → fld a (2 * i) 2 = (s.dev.domain i).st.code ∧
          fld b (2 * i) 2 = (s.dev.domain (16 + i)).st.code) ∧
        (bit (c.w 1) 0 = true → fld a (2 * i) 2 = (s.dev.domain (32 + i)).st.code ∧ b = 0)) ∧
    (s.dev.live = true → ∀ (n : Fin 40),
      (s.dev.drainer n = none → goes (.fenceComplete n) (s.dev.inject s.otp) ∧ goes (.drainTimeout n) (s.dev.inject s.otp)) ∧
      let reqs : List PwrReq := s.dev.pwr.reqs.map fun x => if bit x.draining n then { x with draining := clrBit x.draining n } else x
      let late : Dev := { s.dev with noc := { s.dev.noc with drainFail := true } }
      let wakes : Prop := (s.dev.domain n).latch = true ∨ s.dev.levelWake n ≠ none
      (∀ (r : PwrReq) (t : Nat), s.dev.drainer n = some r → r.slot = some t →
        let no (d : Dev) (st : Status) : Dev := Dev.inject s.otp (if (d.slot t).kind = 2 then d.abortDist t st d.ownAddr n
          else if (d.slot t).kind = 3 then d.voteNo t st n else d.abortSlot t st n)
        let yes (d : Dev) : Dev := Dev.inject s.otp (if (d.slot t).kind = 2 then d.ownYes t
          else if (d.slot t).kind = 3 then d.voteYes t else d.decideLocal t)
        let ends (i : Instr) (d : Dev) (st : Status) : Prop := goes i (no (d.refuseReq r st n) st)
        let d : Dev := { s.dev with pwr := { s.dev.pwr with reqs := reqs } }
        (s.dev.outstanding n = true → goes (.fenceComplete n) (s.dev.inject s.otp)) ∧
        (s.dev.outstanding n = false → s.dev.refuses r n = true → ends (.fenceComplete n) s.dev .refused) ∧
        (s.dev.outstanding n = false → s.dev.refuses r n = false → wakes → ends (.fenceComplete n) s.dev .wakePending) ∧
        (s.dev.outstanding n = false → s.dev.refuses r n = false → ¬ wakes →
          ((∀ x ∈ reqs, x.slot = some t → x.draining = 0) → goes (.fenceComplete n) (yes d)) ∧
          (¬ (∀ x ∈ reqs, x.slot = some t → x.draining = 0) → goes (.fenceComplete n) (d.inject s.otp))) ∧
        ends (.drainTimeout n) late .refused) ∧
      ∀ (r : PwrReq), s.dev.drainer n = some r → r.slot = none →
        let ends (d0 : Dev) (i : Instr) (st : Status) : Prop := ∃ d x : Dev, goes i d ∧
          x.pwr.reqs = d0.pwr.reqs.erase r ∧ x.pwr.lstatus = st ∧ x.pwr.ldomain = n ∧
          (∀ k, k ∈ r.fenced → x.domain k = { d0.domain k with closed := false, told := false, latch := false }) ∧
          (∀ k, k ∉ r.fenced → x.domain k = d0.domain k) ∧
          x = { d0 with pwr := { d0.pwr with dom := x.pwr.dom, reqs := x.pwr.reqs, lstatus := x.pwr.lstatus, ldomain := x.pwr.ldomain } } ∧
          let y := x.fire 177 (payload st (if st = .wakePending then 2 else 1) n)
          (∀ o, r.owner = some o → d = (y.complete o st (BitVec.ofNat 32 n) 0).inject s.otp) ∧ (r.owner = none → d = y.inject s.otp)
        (s.dev.outstanding n = true → goes (.fenceComplete n) (s.dev.inject s.otp)) ∧
        (s.dev.outstanding n = false → s.dev.refuses r n = true → ends s.dev (.fenceComplete n) .refused) ∧
        (s.dev.outstanding n = false → s.dev.refuses r n = false → wakes → ends s.dev (.fenceComplete n) .wakePending) ∧
        (s.dev.outstanding n = false → s.dev.refuses r n = false → ¬ wakes →
          let left := clrBit r.draining n
          let agree (x : PwrReq) : PwrReq :=
            if x = { r with draining := left } then { x with agreed := true, due := s.dev.boundariesFor 1000 } else x
          let reqs : List PwrReq := if left = 0 then reqs.map agree else reqs
          goes (.fenceComplete n) (({ s.dev with pwr := { s.dev.pwr with reqs := reqs } }).inject s.otp)) ∧
        ends late (.drainTimeout n) .refused)

/-- R379, R384 to R387, R390, Table 17-8: the entry reaches the goal, a wake begins the restore and raises EV178, and the restore opens
the edge and raises EV179. An enabled source wakes a domain that sleeps, is latched while the domain enters or is fenced, and does
nothing to one that is On or being restored; one that is not enabled does nothing. The wake registers and the timer take what is
written; a write with a reserved bit set, or that enables a wake of a domain that is always On, is dropped with WERR. -/
def Sys2Proof.Stated.WakesAndTimer : Prop :=
  ∀ (s : State), s.dev.live = true →
    let goes (i : Instr) (d : Dev) : Prop := exec i s = .next { s with dev := d }
    let q := s.dev.pwr
    (∀ (n : Fin 40),
      let x := s.dev.domain n
      let set (y : Domain) : Dev := s.dev.updDomain n fun _ => y
      (x.st ≠ .changing ∨ x.goal = .on → exec (.entryDone n) s = .next s) ∧
      (x.st = .changing → x.goal = .retention →
        let d := (set { x with st := .retention }).changeDone n
        (x.latch = true → goes (.entryDone n) (d.wakeDomain n x.latchSrc)) ∧
        (∀ src, x.latch = false → d.levelWake n = some src → goes (.entryDone n) (d.wakeDomain n src)) ∧
        (x.latch = false → d.levelWake n = none → goes (.entryDone n) d)) ∧
      (x.st = .changing → x.goal = .off →
        let d := (set { x with st := .off, lost := true }).domainLost n
        let held := d.noc.held.filter fun h => h.1 != n.val
        let delivered := d.fab.delivered.filter fun x => decide (srcDomain (40 + x.1) ≠ some n.val)
        let d := ({ d with noc := { d.noc with held := held }, fab := { d.fab with delivered := delivered } }).changeDone n
        (x.latch = true → goes (.entryDone n) (d.wakeDomain n x.latchSrc)) ∧
        (∀ src, x.latch = false → d.levelWake n = some src → goes (.entryDone n) (d.wakeDomain n src)) ∧
        (x.latch = false → d.levelWake n = none → goes (.entryDone n) d)) ∧
      (x.st ≠ .changing ∨ x.goal ≠ .on → goes (.restoreDone n) (s.dev.inject s.otp)) ∧
      (x.st = .changing → x.goal = .on →
        let d := set { x with st := .on, lost := false, closed := false, told := false, latch := false }
        let ends (d : Dev) : Prop := goes (.restoreDone n) (((d.fire 179 (payload .ok 1 n)).changeDone n).inject s.otp)
        (18 ≤ n.val → n.val ≤ 33 → x.lost = true → ends ((d.loadMems (n - 18) (d.actPlane (n - 18))).enterHold (n - 18))) ∧
        (18 ≤ n.val → n.val ≤ 33 → x.lost = false → ends (d.enterHold (n - 18))) ∧
        (n.val = pdVmi → x.lost = true → ends (d.startTraining true)) ∧
        (n.val = pdBy → ends d.trainPorts) ∧
        (n.val < 18 ∨ 33 < n.val → n.val ≠ pdVmi ∨ x.lost = false → n.val ≠ pdBy → ends d)) ∧
      (∀ (src : Fin 5) (lost : Bool),
        let seen : Prop := (src = 0 → q.expired = true) ∧ (src = 1 → bit s.dev.evt.stat x.evt.toNat = true)
        let fires : Prop := bit x.en src = true ∧ seen
        let fenced : Prop := ∃ r ∈ q.reqs, r.fenced.contains n.val = true ∧ r.applied = false
        let latched : Prop := goes (.wake n src lost) (set { x with latch := true, latchSrc := src.val })
        let nothing : Prop := exec (.wake n src lost) s = .next s
        (¬ fires → nothing) ∧
        (fires → x.st = .retention ∨ x.st = .off → goes (.wake n src lost)
          ((set { x with st := .changing, goal := .on, closed := true, latch := false }).fire 178 (payload .ok 1 (256 * src + n)))) ∧
        (fires → x.st = .changing → x.goal ≠ .on → latched) ∧
        (fires → x.st = .changing → x.goal = .on → nothing) ∧
        (fires → x.st = .on → s.dev.drainer n ≠ none → (src.val ≤ 1 → nothing) ∧ (2 ≤ src.val → latched)) ∧
        (fires → x.st = .on → s.dev.drainer n = none → fenced →
          (lost = true ∧ (src = 2 ∨ src = 4) → nothing) ∧ (¬ (lost = true ∧ (src = 2 ∨ src = 4)) → latched)) ∧
        (fires → x.st = .on → s.dev.drainer n = none → ¬ fenced → nothing)) ∧
      (∀ v : Word,
        let bad : Prop := fld v 16 15 ≠ 0 ∨ fld v 5 3 ≠ 0 ∨ alwaysOn n = true ∧ fld v 0 5 ≠ 0
        (bad → goes (.pwrWakeWrite n v) { s.dev with pwr := { q with werr := true } }) ∧
        (¬ bad → ∃ ds, goes (.pwrWakeWrite n v) { s.dev with pwr := { q with dom := ds } } ∧
          Store.get domainReset ds n = { x with en := BitVec.ofNat 5 v.toNat, evt := BitVec.ofNat 8 (fld v 8 8) } ∧
          ∀ k, k ≠ n.val → Store.get domainReset ds k = s.dev.domain k))) ∧
    (∀ v : Word,
      let q' := { q with timerEn := bit v 31, expired := q.expired && !bit v 30, countUs := BitVec.ofNat 24 v.toNat }
      goes (.pwrTimerWrite v) { s.dev with pwr := { q' with timerAt := s.dev.time.ticks } }) ∧
    (q.timerEn = true → goes .pwrTimerExpired { s.dev with pwr := { q with expired := true, countUs := 0 } }) ∧
    (q.timerEn = false → exec .pwrTimerExpired s = .next s)

/-- Power domain requests, drains, wakes and the timer. -/
def Obligations.PowerDomains : Prop :=
  Sys2Proof.Stated.PowerRequests ∧ Sys2Proof.Stated.WakesAndTimer

/-! ## Pins, supply and TAP (17_power_domains.md, 22_partners_and_memory.md, 23_electrical_and_package.md) -/

/-- R57, R308, R358, R373, R374, R421, R454, R481, R495: VIN above the lockout threshold gives a device without power its power, unless
the thermal shutdown holds it at 110 °C or more, and senses VREF_IO; below the threshold a powered device loses all that is volatile.
RESET_N resets a powered device and keeps its vector memory, its hours and its TAP; its release, or power with RESET_N high, starts the
device: the hours go on after a power-on, the loops acquire, a cut life-cycle transition is resumed, and where it does not stop again the
bundle, partners and configuration are sensed and the ports train. A level that the device already has changes nothing else. (The two
thresholds of VIN stand in the commands' names, log 2.) -/
def Sys2Proof.Stated.SupplyAndReset : Prop :=
  ∀ (s : State) (g v : Bool) (e : BitVec 16) (u : Fin 8),
    let p := s.dev.pin
    let goes (i : Instr) (d : Dev) : Prop := exec i s = .next { s with dev := d }
    let hot : Prop := p.thermal = true ∧ 110 ≤ p.temp
    let hours (d : Dev) : Dev := (if d.log.bootVin then d.hoursPowerOn else d).startLoops
    let starts (i : Instr) (d : Dev) : Prop :=
      let cut : Prop := ∃ r, s.otp.recs.getLast? = some r ∧ r.todo ≠ []
      let x := lcyResume u s.otp (hours d)
      (¬ cut → goes i ((hours d).senseAll s.otp g e).trainPorts) ∧
      (cut → u.val < 6 → exec i s = .next { s with otp := x.1, dev := x.2.1 } ∧ x.2.1.lcy.busy = true) ∧
      (cut → 6 ≤ u.val → exec i s = .next { s with otp := x.1, dev := (x.2.1.senseAll x.1 g e).trainPorts } ∧
        x.2.1.lcy.busy = false ∧ x.2.1.lcy.resumed = true) ∧
      ∃ t, exec i s = .next t ∧ t.dev.live = true
    let up (d : Dev) : Dev := { d with pin := { d.pin with powered := true, thermal := false }, pwr := { d.pwr with lockout := false }
                                       log := { d.log with bootVin := true } }
    let vin (b : Bool) : Dev := { s.dev with pin := { p with vin := b } }
    let on : Dev := up (vin true)
    let on : Dev := { on with pin := { on.pin with vref33 := v } }
    let off (d : Dev) : Dev :=
      let d := d.afterReset true
      { d with pin := { d.pin with powered := false }, pwr := { d.pwr with lockout := true } }
    let released : Dev := { s.dev with pin := { p with reset := false } }
    (p.powered = true ∨ hot → goes (.powerOn g v e u) (vin true)) ∧
    (p.powered = false → ¬ hot → p.reset = true → goes (.powerOn g v e u) on) ∧
    (p.powered = false → ¬ hot → p.reset = false → starts (.powerOn g v e u) on) ∧
    (p.powered = false → goes .lockout (vin false)) ∧
    (p.powered = true → goes .lockout (off (vin false)) ∧ ∃ d : Dev, goes .lockout d ∧ d.pin.powered = false ∧ d.pin.vin = false ∧
      d.pwr.lockout = true ∧ d.live = false ∧ d.vmi.mem = [] ∧ d.eng = {} ∧ d.tim = {} ∧ d.time = {} ∧ d.mode = {} ∧ d.clk = {} ∧
      d.cal = {} ∧ d.evt = {} ∧ d.fcp = {} ∧ d.rae = {} ∧ d.txn = {} ∧ d.fab = {} ∧ d.bst = {} ∧ d.tap = {} ∧ d.ptr = {} ∧
      d.fuse = s.dev.fuse ∧ d.byt.uid = s.dev.byt.uid ∧ d.lcy.attempts = 3) ∧
    (p.reset = true → exec .resetNAssert s = .next s) ∧
    (p.powered = false → p.reset = false → goes .resetNAssert { s.dev with pin := { p with reset := true } }) ∧
    (p.powered = true → p.reset = false → ∃ d : Dev, goes .resetNAssert d ∧
      (let x := s.dev.afterReset false
       d = { x with pin := { x.pin with reset := true } }) ∧
      d.live = false ∧ d.pin.powered = true ∧ d.vmi.mem = s.dev.vmi.mem ∧ d.log.opsec = s.dev.log.opsec ∧ d.tap = s.dev.tap ∧
      d.fuse = s.dev.fuse ∧ d.byt.uid = s.dev.byt.uid ∧ d.lcy.attempts = s.dev.lcy.attempts ∧ d.eng = {} ∧ d.tim = {} ∧ d.time = {} ∧
      d.mode = {} ∧ d.clk = {} ∧ d.cal = {} ∧ d.evt = {} ∧ d.fcp = {} ∧ d.rae = {} ∧ d.txn = {} ∧ d.fab = {} ∧ d.bst = {} ∧ d.ptr = {}) ∧
    (p.reset = false → exec (.resetNRelease g e u) s = .next s) ∧
    (p.reset = true → p.powered = true → starts (.resetNRelease g e u) released) ∧
    (p.reset = true → p.powered = false → p.vin = true → p.thermal = true → p.temp < 110 →
      starts (.resetNRelease g e u) (up released)) ∧
    (p.reset = true → p.powered = false → ¬ (p.vin = true ∧ p.thermal = true ∧ p.temp < 110) → goes (.resetNRelease g e u) released)

/-- R3, R375, R376, R377, R414, R495, Table 23-1: a droop below the threshold is seen, raises EV248, makes an open error record due and
stops erases, and clears 200 mV above the threshold; a VIN that crosses neither is only noted. A rail that leaves its window sets its bit
and raises EV180, and a deep fault acts as the lockout does. The junction temperature raises EV249 as it enters the two bands below and
above the grade's maximum and as it falls 10 °C below it; at 130 °C the device shuts down. -/
def Sys2Proof.Stated.RailsAndTemperature : Prop :=
  ∀ (s : State),
    let p := s.dev.pin
    let q := s.dev.pwr
    let goes (i : Instr) (d : Dev) : Prop := exec i s = .next { s with dev := d }
    let off (d : Dev) : Dev :=
      let d := d.afterReset true
      { d with pin := { d.pin with powered := false }, pwr := { d.pwr with lockout := true } }
    (s.dev.live = true → ∀ mv,
      let sees (q' : PwrState) : Dev := { s.dev with pwr := { q' with vinMv := mv } }
      (q.droop = true ∨ q.droopMv ≤ mv → goes (.droop mv) (sees q)) ∧
      (q.droop = false → mv < q.droopMv →
        let d := sees { q with droop := true, seen := true }
        let due := { d with log := { d.log with opened := d.log.opened.map fun (o : OpenRec) => { o with due := true } } }
        goes (.droop mv) (due.fire 248 (payload .ok 1 (mv / 100))).nvDroop) ∧
      (q.droop = false ∨ mv < q.droopMv + 200 → goes (.droopClear mv) (sees q)) ∧
      (q.droop = true → q.droopMv + 200 ≤ mv → goes (.droopClear mv) (sees { q with droop := false }).nvDroopClear)) ∧
    (s.dev.live = true → ∀ r : Fin 8,
      let d := ({ s.dev with pwr := { q with rail := setBit q.rail r } }).fire 180 (payload .mediaError 1 r)
      goes (.railFault r false) d ∧ goes (.railFault r true) (off d)) ∧
    (∀ t : Int,
      let top : Int := if s.dev.fuse.gradeX then 115 else 105
      let sees (b : Nat) : Dev := { s.dev with pin := { p with temp := t, band := b } }
      let det := unsgn 16 t
      (s.dev.live = false → goes (.thermal t) (sees p.band)) ∧
      (s.dev.live = true →
        (top < t → p.band = 2 → goes (.thermal t) (sees 2)) ∧
        (top < t → p.band ≠ 2 → goes (.thermal t) ((sees 2).fire 249 (payload .refused 2 det))) ∧
        (top - 5 ≤ t → t ≤ top → p.band = 0 → goes (.thermal t) ((sees 1).fire 249 (payload .ok 1 det))) ∧
        (top - 5 ≤ t → t ≤ top → p.band ≠ 0 → goes (.thermal t) (sees 1)) ∧
        (top - 10 < t → t < top - 5 → goes (.thermal t) (sees p.band)) ∧
        (t ≤ top - 10 → p.band = 0 → goes (.thermal t) (sees 0)) ∧
        (t ≤ top - 10 → p.band ≠ 0 → goes (.thermal t) ((sees 0).fire 249 (payload .ok 3 det)))) ∧
      (t < 130 ∨ p.powered = false → exec (.thermalShutdown t) s = .next s) ∧
      (130 ≤ t → p.powered = true →
        let d := off s.dev
        goes (.thermalShutdown t) { d with pin := { d.pin with thermal := true, temp := t } }))

/-- Supply, reset, droop, rails and temperature. -/
def Obligations.SupplyAndReset : Prop :=
  Sys2Proof.Stated.SupplyAndReset ∧ Sys2Proof.Stated.RailsAndTemperature

/-- R4, R57, R144, R414, R439, R473 to R475: SAFE_N raises EV253, puts every channel in its safe state (with D and E low in SCRAPPED),
asks every moving engine to stop with cause 1, cuts the running self-tests and ends a sweep; it is released, with EV253, once neither the
pin nor EXTEST holds it. The pin is noted while the device does not run. A TAP instruction becomes current while the device has power:
EXTEST acts as SAFE_N, every other releases it where the pin does not hold it, IDCODE brings the identity into its register, and
SAMPLE/PRELOAD captures the levels at the pins and leaves the shifted values in the boundary register. -/
def Sys2Proof.Stated.SafeAndTap : Prop :=
  ∀ (s : State),
    let p := s.dev.pin
    let goes (i : Instr) (d : Dev) : Prop := exec i s = .next { s with dev := d }
    let acts (b : Dev) : Dev :=
      let d := ({ b with pin := { b.pin with safeN := true } }).fire 253 (payload .aborted 1 0)
      let d := d.channelsSafe (List.range 64) (64 * d.now : Nat)
      let d := d.requestStops ((List.range 64).filter fun n => (d.engine n).st.moving) 1 .async
      let tests := d.bst.tests.map fun (t : BstTest) => if t.running then { t with cut := true } else t
      ({ d with bst := { d.bst with tests := tests } }).abortSweep
    let safe (i : Instr) (b : Dev) : Prop :=
      goes i ((acts b).holdLow s.otp) ∧ (∀ c : Fin 64, (((acts b).holdLow s.otp).channel c).inSafe = true) ∧
      (s.otp.state = 5 → ∀ c : Fin 64, (((acts b).holdLow s.otp).channel c).e = false ∧ (((acts b).holdLow s.otp).channel c).d = false) ∧
      ∀ n : Fin 64, (s.dev.engine n).st.moving = true → 1 ∈ (((acts b).holdLow s.otp).engine n).stops
    let pinned (b : Bool) : Dev := { s.dev with pin := { p with safePin := b } }
    let freed (d : Dev) : Dev := ({ d with pin := { d.pin with safeN := false } }).fire 253 (payload .ok 2 0)
    (s.dev.live = false →
      goes .safeNAssert (Dev.holdLow s.otp { s.dev with pin := { p with safePin := true, safeN := true } }) ∧
      goes .safeNRelease { s.dev with pin := { p with safePin := false, safeN := s.dev.tap.ir == 0 } }) ∧
    (s.dev.live = true →
      (p.safeN = false → safe .safeNAssert (pinned true)) ∧ (p.safeN = true → goes .safeNAssert ((pinned true).holdLow s.otp)) ∧
      (p.safeN = true → s.dev.tap.ir ≠ 0 → goes .safeNRelease (freed (pinned false))) ∧
      (p.safeN = false ∨ s.dev.tap.ir = 0 → goes .safeNRelease (pinned false))) ∧
    (∀ (upd ins : Bsr) (r : BitVec 6) (w : Bool) (a : BitVec 48) (v : Word) (k : BitVec 4) (tok : QWord) (u : Fin 8), p.powered = false →
      ∀ i ∈ [Instr.tapReset, .extest, .idcode, .samplePreload upd ins, .bypass, .nocacc r w a v, .lcyacc k tok u], exec i s = .next s) ∧
    (p.powered = true →
      let next (i : Instr) (ir : BitVec 8) (tap : TapState) : Prop :=
        let d : Dev := { s.dev with tap := { tap with ir := ir } }
        (s.dev.live = false → goes i { d with pin := { p with safeN := p.safePin } }) ∧
        (s.dev.live = true → p.safeN = true → p.safePin = false → goes i (freed d)) ∧
        (s.dev.live = true → p.safeN = false ∨ p.safePin = true → goes i d)
      next .tapReset 1 s.dev.tap ∧ next .idcode 1 { s.dev.tap with idReg := 0x16403C9B } ∧ next .bypass 0xFF s.dev.tap ∧
      (∀ upd ins : Bsr, next (.samplePreload upd ins) 2 { s.dev.tap with bsr := upd, cap := s.dev.pinLevels ins }) ∧
      let d : Dev := { s.dev with tap := { s.dev.tap with ir := 0 } }
      (s.dev.live = false → goes .extest (Dev.holdLow s.otp { d with pin := { p with safeN := true } })) ∧
      (s.dev.live = true → p.safeN = false → safe .extest d) ∧ (s.dev.live = true → p.safeN = true → goes .extest (d.holdLow s.otp)))

/-- R446 to R452, R474, R476, Table 21-1: where the life-cycle state closes the private instructions, NOCACC and LCYACC act as BYPASS.
NOCACC sends one access of a word as SRC 6 and is busy until its response comes; one that finds an access outstanding, or a device that
does not run, only becomes current. LCYACC captures LCY_STAT and runs a transition: BUSY during another, MODE_DENIED outside OM7, the
status of the transition's checks, or its steps. -/
def Sys2Proof.Stated.JtagAccess : Prop :=
  ∀ (s : State) (router : BitVec 6) (w : Bool) (addr : BitVec 48) (v : Word) (k : BitVec 4) (tok : QWord) (u : Fin 8),
    s.dev.pin.powered = true →
    let goes (i : Instr) (o : Otp) (d : Dev) : Prop := exec i s = .next { s with otp := o, dev := d }
    (s.otp.jtagOpen = false → goes (.nocacc router w addr v) s.otp (s.dev.setIr 0xFF) ∧ goes (.lcyacc k tok u) s.otp (s.dev.setIr 0xFF)) ∧
    (s.otp.jtagOpen = true →
      let d := s.dev.setIr 0x20
      let tap : TapState := { d.tap with addr := addr, write := w, router := router, data := v, busy := true }
      (s.dev.tap.busy = true ∨ s.dev.live = false → goes (.nocacc router w addr v) s.otp d) ∧
      (s.dev.tap.busy = false → s.dev.live = true → goes (.nocacc router w addr v) s.otp
        ((request (if w then 1 else 0) (nocaccPacket router addr v) s.otp { d with tap := tap }).inject s.otp))) ∧
    (s.otp.jtagOpen = true →
      let d := s.dev.setIr 0x21
      let d : Dev := { d with tap := { d.tap with lcyCap := lcyStat s.otp d } }
      let tell (st : Status) (d : Dev) : Dev := { d with tap := { d.tap with lcy := st } }
      let st := lcyChecks s.otp d k.toNat
      let good : Prop := tokenOk s.otp d k.toNat tok = true
      let runs : Prop := s.dev.live = true ∧ s.dev.lcy.busy = false ∧ s.dev.mode.mode = 7
      let x := lcySteps k.toNat ([1, 2, 3, 4, 5, 6, 7].filter (· ≤ u.val)) (s.otp, { d with lcy := { d.lcy with busy := true } })
      (s.dev.live = false → goes (.lcyacc k tok u) s.otp d) ∧
      (s.dev.live = true → s.dev.lcy.busy = true → goes (.lcyacc k tok u) s.otp (tell .busy d)) ∧
      (s.dev.live = true → s.dev.lcy.busy = false → s.dev.mode.mode ≠ 7 → goes (.lcyacc k tok u) s.otp (tell .modeDenied d)) ∧
      (runs → st ≠ .ok → goes (.lcyacc k tok u) s.otp (tell st { d with lcy := { d.lcy with lstatus := st } })) ∧
      (runs → st = .ok → ¬ good →
        let n := d.lcy.attempts - 1
        let d := ({ d with lcy := { d.lcy with attempts := n } }).fire 245 (payload .tokenInvalid 1 n)
        goes (.lcyacc k tok u) s.otp (tell .tokenInvalid { d with lcy := { d.lcy with lstatus := .tokenInvalid } })) ∧
      (runs → st = .ok → good →
        (u.val < 7 → goes (.lcyacc k tok u) x.1 x.2) ∧
        (u.val = 7 → goes (.lcyacc k tok u) x.1 (tell .ok { x.2 with lcy := { x.2.lcy with busy := false, lstatus := .ok } })))) ∧
    (s.otp.jtagOpen = true → s.dev.live = true → ∀ (r : Fin 36) (a : Nat),
      let router := BitVec.ofNat 6 r.val
      let p := nocaccPacket router addr v
      let m := s.dev.stw.sram
      s.dev.tap.busy = false → s.dev.tagSt (tagKey p) = .free → s.dev.noc.held = [] → a % 4 = 0 →
      targetOf p.dx.toNat p.dy.toNat addr.toNat = .sram a →
      (s.dev.way (6 * p.dy.toNat + p.dx.toNat) 12 (6 * (srcRouter 6).2 + (srcRouter 6).1) 0).2 = none →
      ∃ (d : Dev) (x : Packet), goes (.nocacc router w addr v) s.otp d ∧ d.noc.sent = s.dev.noc.sent ++ [x] ∧
        x.src = 6 ∧ x.status = 0 ∧ d.tagSt (tagKey p) = .outstanding ∧ d.tap.ir = 0x20 ∧ d.tap.busy = true ∧ d.tap.addr = addr ∧
        d.tap.write = w ∧ d.eng = s.dev.eng ∧
        (w = false → x.data = [rd128 m (a / 16 * 16)] ∧ d.stw.sram = m) ∧
        (w = true → ofLeBytes (rdBytes d.stw.sram a 4) = v.toNat ∧ ∀ b, b < a ∨ a + 4 ≤ b → rd8 d.stw.sram b = rd8 m b))

/-- SAFE_N and the TAP instructions. -/
def Obligations.SafeAndTap : Prop :=
  Sys2Proof.Stated.SafeAndTap ∧ Sys2Proof.Stated.JtagAccess

/-! ## The Steward (15_steward_and_noc.md) -/

/-- R338, R339, Table 15-1: a restart by the watchdog or after an uncorrectable read pauses the running queues, wipes the SRAM below
the patch area, and tells its reason with EV255; the third watchdog restart within one operating second makes the next restart run
without patches. During a restart neither does anything, and outside one RESTART_DONE does nothing. -/
def Sys2Proof.Stated.StewardRestarts : Prop :=
  ∀ (s : State), s.dev.live = true →
    let w := s.dev.stw
    let n := if w.wdogSec = s.dev.log.opsec then w.wdogIn + 1 else 1
    let begins (i : Instr) (w' : StwState) (pay : Word) : Prop := ∃ (qs : Store Queue) (m : List Host.Cell),
      let w' : StwState := { w' with restarting := true, safeRom := w.safeRom || w.safeNext, restarts := satAdd 65535 w.restarts 1 }
      let d : Dev := { s.dev with cmd := { s.dev.cmd with queues := qs }, stw := { w' with sram := m, core := {} } }
      exec i s = .next { s with dev := d.fire 255 pay } ∧
      (∀ a, rd8 m a = if a < 0x30000 then 0 else rd8 w.sram a) ∧
      ∀ q : Fin 4, Store.get queueReset qs q =
        { s.dev.queue q with state := if (s.dev.queue q).state = .run then .paused else (s.dev.queue q).state }
    (w.restarting = true → exec .watchdog s = .next s ∧ exec .stewardMemerr s = .next s) ∧
    (w.restarting = false → exec .restartDone s = .next s) ∧
    (w.restarting = false → begins .stewardMemerr { w with lastRsn := 2, safeNext := false } (payload .mediaError 2 0) ∧
      let w1 := { w with wdogSec := s.dev.log.opsec, wdogIn := if n = 3 then 0 else n, wdogCnt := satAdd 65535 w.wdogCnt 1 }
      begins .watchdog { w1 with lastRsn := 1, safeNext := n == 3 } (payload .timeout 1 0))

/-- R339 to R343: the end of a restart reads the boot record. Without one nothing is installed, and the Steward runs without patches
where the blocks are not erased. With one its bundle and active set are installed; where the Steward is to run without patches, or the
bundle is not valid, SAFEROM is set and no patch is active; else the code body stands in the patch area, and the core fetches the
word of each active entry in place of the ROM's. The queues run again, EV255 tells the reason, and the command that waits for the
restart is answered with the active set and LEVEL. The newest record in blocks 544 and 545 whose CRC is valid is the one in force. -/
def Sys2Proof.Stated.StewardBoots : Prop :=
  (∀ (s : State), s.dev.live = true → s.dev.stw.restarting = true →
    let w := s.dev.stw
    let b := s.dev.bootRec
    ∃ (qs : Store Queue) (w' : StwState),
      let d : Dev := { s.dev with cmd := { s.dev.cmd with queues := qs }, stw := w' }
      let d := d.fire 255 (if w'.safeRom then payload .refused 4 0 else payload .ok 3 0)
      let rsn := if w'.safeRom then 4 else w.lastRsn
      exec .restartDone s = .next { s with dev := match w.owner with
        | none => d
        | some o => d.complete o .ok w'.active (BitVec.ofNat 32 (if w'.safeRom then 0 else w'.level.toNat)) } ∧
      (∀ q : Fin 4, Store.get queueReset qs q =
        { s.dev.queue q with state := if (s.dev.queue q).state = .paused then .run else (s.dev.queue q).state }) ∧
      (let w : StwState := { w with restarting := false, owner := none, lastRsn := rsn }
       (b = none → w' = { w with installed := false, patch := [], safeRom := w.safeRom || !s.dev.bootCells.isEmpty }) ∧
       ∀ r, b = some r →
         let l := s.dev.bundle r.bundle
         let n := bundleNent l
         let w : StwState := { w with installed := true, bundle := r.bundle, active := r.active }
         (w.safeRom = true ∨ bundleStatus s.dev.fuse.romVer l ≠ .ok → w' = { w with safeRom := true, patch := [] }) ∧
         (w.safeRom = false → bundleStatus s.dev.fuse.romVer l = .ok →
           let body := (l.take (byteWord l 3).toNat).drop (64 + 16 * n)
           w' = { w with level := bundleLevel l, patch := w'.patch, sram := wrBytes w.sram 0x30000 body } ∧
           (∀ p, p < n → bit r.active p = true → d.stwFetch (bundleEntry l p 1).toNat = some (bundleEntry l p 2)) ∧
           (∀ a, a < 0x40000 → a % 4 = 0 → (∀ p, p < n → bit r.active p = true → (bundleEntry l p 1).toNat ≠ a) →
             d.stwFetch a = some (Config.stwRom (a / 4))) ∧
           ∀ e ∈ w'.patch, ∃ p, p < n ∧ bit r.active p = true ∧
             e = (fld (bundleEntry l p 0) 0 5, bundleEntry l p 1, bundleEntry l p 2)))) ∧
  (∀ (d : Dev),
    let valid (i : Nat) (x : NvCell) (r : BootRec) : Prop := (i, x) ∈ d.nvs.words ∧ (i / 4096 = 544 ∨ i / 4096 = 545) ∧
      bootRecOf i x = some r
    (d.bootRec = none → ∀ i x r, ¬ valid i x r) ∧
    ∀ r, d.bootRec = some r → (∃ i x, valid i x r) ∧ ∀ i x y, valid i x y → y.seq ≤ r.seq)

/-- R331, R342, R343: STW_VERSION answers the ROM version and LEVEL. STW_PATCH and STW_INSTALL answer a wrong operand with
BAD_OPERAND, and at once where another check fails; else a boot record is appended and a restart begins that answers them. A closed NV
store is answered with FENCED, and they wait for one under test. -/
def Sys2Proof.Stated.StewardCommands : Prop :=
  ∀ (s : State) (c : Tci) (o : Owner) (d0 : Dev),
    let goes (i : Instr) (d : Dev) : Prop := exec i s = .next { s with dev := d }
    let w := s.dev.stw
    let p := fld (c.w 1) 0 5
    let named : Prop := c.w 1 = BitVec.ofNat 32 p
    (s.Accepts 0xE0 c o d0 →
      goes (.stwVersion c) (d0.complete o .ok s.dev.fuse.romVer (BitVec.ofNat 32 (if w.safeRom then 0 else w.level.toNat)))) ∧
    (∀ x ∈ [(0xE1, Instr.stwPatch c), (0xE2, .stwInstall c)], s.Accepts x.1 c o d0 →
      (s.dev.tested pdNvs = true → goes x.2 ((d0.wantService pdNvs).park c o)) ∧
      (s.dev.tested pdNvs = false → (s.dev.domain pdNvs).closed = true → goes x.2 ((d0.fencedAnswer pdNvs).answer o .fenced)) ∧
      (s.dev.tested pdNvs = false → (s.dev.domain pdNvs).closed = false → ¬ named → goes x.2 (d0.answer o .badOperand))) ∧
    (s.AcceptsAt pdNvs 0xE1 c o d0 → named →
      let n := bundleNent (d0.bundle w.bundle)
      (w.installed = false ∨ w.safeRom = true → goes (.stwPatch c) (d0.answer o .notPresent)) ∧
      (w.installed = true → w.safeRom = false → n ≤ p → goes (.stwPatch c) (d0.answer o .badOperand)) ∧
      (w.installed = true → w.safeRom = false → p < n → bit w.active p = true → goes (.stwPatch c) (d0.answer o .ok)) ∧
      (w.installed = true → w.safeRom = false → p < n → bit w.active p = false →
        let a := setBit w.active p
        let d := d0.appendBoot w.bundle a
        goes (.stwPatch c) (({ d with stw := { d.stw with active := a } }).restart 3 (some o)))) ∧
    (s.AcceptsAt pdNvs 0xE2 c o d0 → named →
      let l := d0.bundle p
      (bundleStatus s.dev.fuse.romVer l ≠ .ok → goes (.stwInstall c) (d0.answer o (bundleStatus s.dev.fuse.romVer l))) ∧
      (bundleStatus s.dev.fuse.romVer l = .ok →
        let d := d0.appendBoot p (bundleBoot l)
        let w' : StwState := { d.stw with installed := true, bundle := p, active := bundleBoot l, level := bundleLevel l }
        goes (.stwInstall c) (({ d with stw := { w' with safeRom := false, safeNext := false } }).restart 3 (some o)))) ∧
    (let r := s.dev.restart 3 (some o)
     let w' : StwState := { w with restarting := true, safeRom := w.safeRom || w.safeNext, safeNext := false, lastRsn := 3 }
     r.stw = { w' with restarts := satAdd 65535 w.restarts 1, sram := r.stw.sram, core := {}, owner := some o } ∧
     (∀ a, rd8 r.stw.sram a = if a < 0x30000 then 0 else rd8 w.sram a) ∧
     (∀ q : Fin 4, r.queue q = { s.dev.queue q with state := if (s.dev.queue q).state = .run then .paused else (s.dev.queue q).state }) ∧
     r = { s.dev with cmd := { s.dev.cmd with queues := r.cmd.queues }, stw := r.stw })

/-- Steward restarts and bundle commands. -/
def Obligations.Steward : Prop :=
  Sys2Proof.Stated.StewardRestarts ∧ Sys2Proof.Stated.StewardBoots ∧ Sys2Proof.Stated.StewardCommands

/-! ## Partners and vector memory (22_partners_and_memory.md) -/

/-- R458, R459, R462: targets that answer a discovery are placed one after another; a legacy one is probed only where LEGACY is 1 for its
bus. A target takes the index that last held its identity, or the lowest empty one, as PRESENT, CONFLICT or NODESC; with none free FULL
is set. A hot join places its target and raises EV250. A poll clears the misses of an entry that answers; a second miss in a row makes
it LOST and raises EV250. A rising presence input polls the entries of its slot. (That an entry that host software described keeps its
descriptor where the target has no valid one is DEDUCED, log 44.) -/
def Sys2Proof.Stated.PartnersFound : Prop :=
  ∀ (s : State), s.dev.live = true →
    let ent := s.dev.ptrEnt
    let goes (i : Instr) (d : Dev) : Prop := exec i s = .next { s with dev := d }
    let probed (t : BusTarget) : Prop := t.legacy = none ∨ bit s.dev.ptr.legacy (b2n t.bus) = true
    exec (.discovery []) s = .next s ∧
    (∀ (t : BusTarget) (ts : List BusTarget), ∃ d : Dev, goes (.discovery [t]) d ∧
      exec (.discovery (t :: ts)) s = exec (.discovery ts) { s with dev := d }) ∧
    (∀ t : BusTarget,
      (¬ probed t → exec (.discovery [t]) s = .next s) ∧
      (s.dev.indexOf t = none →
        let full : Dev := { s.dev with ptr := { s.dev.ptr with full := true } }
        (probed t → goes (.discovery [t]) full) ∧ goes (.hotJoin t) full) ∧
      ∀ i, s.dev.indexOf t = some i →
        let l := t.desc.take (descLen t.desc)
        let addr : BitVec 7 := match t.legacy with
          | some a => BitVec.ofNat 7 (0x50 + a.val)
          | none => BitVec.ofNat 7 (0x10 + i)
        let e : PtrEnt := { legacy := t.legacy.isSome, bus := t.bus, daddr := addr, pid := t.pid }
        let becomes (x : PtrEnt) : Prop := (probed t → goes (.discovery [t]) (s.dev.changePtr i x)) ∧
          goes (.hotJoin t) ((s.dev.changePtr i x).fire 250 (payload .ok 1 i))
        (descOk t.desc = true → becomes { e with st := if s.dev.claimed i l then 3 else 1, desc := l, digest := descDigest l }) ∧
        (descOk t.desc = false → (ent i).st ≠ 5 → becomes { e with st := 2 }) ∧
        (descOk t.desc = false → (ent i).st = 5 → becomes { e with st := 5, desc := (ent i).desc, digest := (ent i).digest })) ∧
    (∀ (t : BusTarget) (i : Nat),
      let same (j : Nat) : Prop := (ent j).st ≠ 0 ∧ match t.legacy with
        | some a => (ent j).legacy = true ∧ (ent j).bus = t.bus ∧ (ent j).daddr = BitVec.ofNat 7 (0x50 + a.val)
        | none => (ent j).legacy = false ∧ (ent j).pid = t.pid ∧ (ent j).daddr ≠ 0
      (s.dev.indexOf t = some i ↔ i < 64 ∧ (same i ∧ (∀ j, j < i → ¬ same j) ∨
        (∀ j, j < 64 → ¬ same j) ∧ (ent i).st = 0 ∧ ∀ j, j < i → (ent j).st ≠ 0))) ∧
    (∀ (d : Dev) (ans : DWord) (i : Nat),
      let e := d.ptrEnt i
      let seen : Prop := e.st = 1 ∨ e.st = 2 ∨ e.st = 3
      (¬ seen → d.poll ans i = d) ∧
      (seen → bit ans i = true → d.poll ans i = d.setPtr i { e with missed := 0 }) ∧
      (seen → bit ans i = false → e.missed = 0 → d.poll ans i = d.setPtr i { e with missed := 1 }) ∧
      (seen → bit ans i = false → e.missed ≠ 0 →
        d.poll ans i = (d.changePtr i { e with st := 4, missed := 0 }).fire 250 (payload .notPresent 2 i))) ∧
    (∀ ans : DWord, goes (.getstatusPoll ans) ((List.range 64).foldl (fun d i => d.poll ans i) s.dev)) ∧
    (∀ (k : Fin 4) (level : Bool) (ans : DWord),
      let rises : Prop := level = true ∧ bit s.dev.pin.presN k = false
      let d : Dev := { s.dev with pin := { s.dev.pin with presN := putBit s.dev.pin.presN k level } }
      let asked (i : Nat) : Bool := bit (descWord (ent i).desc 1) 10 && fld (descWord (ent i).desc 1) 8 2 == k.val
      (¬ rises → goes (.presNChange k level ans) d) ∧
      (rises → goes (.presNChange k level ans) (((List.range 64).filter asked).foldl (fun d i => d.poll ans i) d)))

/-- R461, R463, R477: a change of an entry leaves the other entries alone and shifts the target of each correction by the change of its
partner delay. GO of PTR_HDCTL starts the check of the descriptor in PTR_HDESC unless one runs or INDEX is above 63; the check answers
the first condition that fails, and else the entry becomes HOST with that descriptor. -/
def Sys2Proof.Stated.HostDescriptors : Prop :=
  (∀ (s : State) (w : Word), s.dev.live = true →
    let p := s.dev.ptr
    let goes (i : Instr) (d : Dev) : Prop := exec i s = .next { s with dev := d }
    let is (q : PtrState) : Dev := { s.dev with ptr := q }
    let l := s.dev.hdescBytes.take (descLen s.dev.hdescBytes)
    let e := s.dev.ptrEnt p.hdIndex
    let st : Status := if descOk l = false then .badOperand else if s.dev.claimed p.hdIndex l then .refused
      else if e.st = 0 then .notPresent else .ok
    (bit w 31 = true → p.hdBusy = false → fld w 0 8 ≤ 63 →
      goes (.ptrHdctlGo w) (is { p with hdIndex := fld w 0 6, hdBusy := true })) ∧
    (bit w 31 = true → p.hdBusy = true ∨ 63 < fld w 0 8 → goes (.ptrHdctlGo w) (is { p with werr := true })) ∧
    (bit w 31 = false → goes (.ptrHdctlGo w) (is { p with hdIndex := fld w 0 6 })) ∧
    (p.hdBusy = false → exec .hdescCheckDone s = .next s) ∧
    (p.hdBusy = true → st ≠ .ok → goes .hdescCheckDone (is { p with hdBusy := false, hdStatus := st })) ∧
    (p.hdBusy = true → st = .ok → goes .hdescCheckDone (Dev.changePtr (is { p with hdBusy := false, hdStatus := .ok }) p.hdIndex
      { e with st := 5, desc := l, digest := descDigest l }))) ∧
  ∀ (d : Dev) (i : Nat) (x : PtrEnt), i < 64 →
    let d' := d.changePtr i x
    let serves (c : Nat) : Prop := (x.st = 1 ∨ x.st = 5) ∧ (descChannels x.desc).contains c = true
    d'.ptrEnt i = x ∧ (∀ j, j ≠ i → d'.ptrEnt j = d.ptrEnt j) ∧
    (∀ c, (serves c → d'.inForce c = some i) ∧ (¬ serves c → d'.inForce c = d.inForce c)) ∧
    (∀ (c : Fin 64) (t : Fin 5),
      let v := d'.partnerDelay c t - d.partnerDelay c t
      (d'.corr c t).corr = (d.corr c t).corr ∧
      (v = 0 → d'.corr c t = d.corr c t) ∧ (v ≠ 0 → (d'.corr c t).target = fit12 ((d.corr c t).target + d.lsbOf v))) ∧
    d'.eng = d.eng ∧ d'.tim = d.tim ∧ d'.fcp = d.fcp ∧ d'.cmd.hostMem = d.cmd.hostMem ∧ d'.cmd.queues = d.cmd.queues

/-- Partners and their descriptors. -/
def Obligations.Partners : Prop :=
  Sys2Proof.Stated.PartnersFound ∧ Sys2Proof.Stated.HostDescriptors

/-- R467, R468, R470, R478: training makes the vector memory ready, through a wipe where one is due, unless a channel fails; the wipe
zeroes the selected segments and no other; a refresh is counted and changes no data; what is not due does nothing. VMI_CFG takes rank
and rate, and starts training with TRAIN, unless the memory is in use or the rate is reserved, which sets WERR. -/
def Obligations.VectorMemory : Prop :=
  ∀ (s : State) (w : Word), s.dev.live = true →
    let v := s.dev.vmi
    let only (i : Instr) (x : VmiState) : Prop := exec i s = .next { s with dev := { s.dev with vmi := x } }
    (∀ (ok : BitVec 4) (cap : Nat),
      (v.training = false → exec (.trainingDone ok cap) s = .next s) ∧
      (v.training = true →
        let x : VmiState := { v with training := false, chFail := ~~~ok, cap := min cap 16, wipeDue := false }
        (ok ≠ 15 → only (.trainingDone ok cap) { x with wiping := false, ready := false }) ∧
        (ok = 15 → only (.trainingDone ok cap) { x with wiping := v.wipeDue, ready := !v.wipeDue }))) ∧
    (v.wiping = false → exec .wipeDone s = .next s) ∧
    (v.wiping = true → ∃ m, only .wipeDone { v with wiping := false, ready := true, mem := m } ∧
      ∀ a, rd8 m a = if bit v.wipe (a / max 1 (v.cap * 2 ^ 30 / 64)) then 0 else rd8 v.mem a) ∧
    (∀ k : Fin 4, ∃ r, only (.refresh k) { v with refreshed := r } ∧ ∀ j : Fin 4,
      Store.get (fun _ => 0) r j = Store.get (fun _ => 0) v.refreshed j + if j = k then 1 else 0) ∧
    (s.Writable pdVmi →
      let set : VmiState := { v with ranks2 := bit w 3, rate := BitVec.ofNat 3 w.toNat }
      let train : VmiState := { set with training := true, wiping := false, ready := false, chFail := 0, wipeDue := false }
      (s.dev.vmiInUse = false → fld w 0 3 ≠ 7 → only (.vmiCfgTrain w) train ∧
        only (.vmiCfgWrite w) (if bit w 31 then train else set)) ∧
      (s.dev.vmiInUse = true ∨ fld w 0 3 = 7 → only (.vmiCfgTrain w) { v with werr := true } ∧
        only (.vmiCfgWrite w) { v with werr := true }) ∧
      only (.vmiWpageWrite w) { v with wpage := BitVec.ofNat 5 w.toNat })
/-! ## The non-volatile store (18_nv_store.md) -/

/-- R396 to R399, R392, R404, R348: a READ of the array from a wrong place is BAD_OPERAND, one beyond it gives zeros and counts as
undecoded, one of a protected block is PROTECTED; every other waits for its turn, and is answered with the status and the words of its
read once its banks can read; one of the Steward core that its buffers answer needs no bank. A read of words of one line senses them, or
takes them from the core's buffers: a block under a suspended erase gives ones and ERASE_SUSPENDED, an uncorrectable word MEDIA_ERROR and
EV210; CBITS is their sum up to 14, and one that reaches the threshold counts as an early warning. A sequential read of the core fills
the prefetch buffer from its line on, any other puts its line into the branch cache (that the sum is over the line's words is the
model's reading, log 41, and what fills the buffers is log 43's). -/
def Sys2Proof.Stated.NvReads : Prop :=
  (∀ (d : Dev) (p : Packet),
    let a := p.addr.toNat - nvBase
    let n := p.len.toNat
    let bad : Prop := n = 0 ∨ a % 16 ≠ 0
    let hidden : Prop := ∃ b ∈ blocksOf a (16 * n), d.readProtected p.src.toNat b = true
    let waits : Dev := { d with nvs := { d.nvs with waiting := d.nvs.waiting ++ [p] } }
    (bad → d.nvsRead p = d.respond p .badOperand []) ∧
    (¬ bad → 2 ^ 26 < a + 16 * n → d.nvsRead p = d.undecoded.respond p .ok (List.replicate n 0)) ∧
    (¬ bad → a + 16 * n ≤ 2 ^ 26 → hidden → d.nvsRead p = d.respond p .isProtected []) ∧
    (¬ bad → a + 16 * n ≤ 2 ^ 26 → ¬ hidden → d.nvsRead p = waits.retryReads ∧
      (d.nvs.waiting = [] → d.servable p = false → d.nvsRead p = waits.askRange a (16 * n)) ∧
      (d.nvs.waiting = [] → d.servable p = true → ∀ y : Dev × NvRead,
        y = Dev.nvWords { d with nvs := { d.nvs with lastSrc := if d.coreHit p then d.nvs.lastSrc else p.src.toNat } } p.src.toNat n (a / 16) n →
        d.nvsRead p = y.1.respond p y.2.status y.2.data)) ∧
    (d.coreHit p = true ↔ p.src = 1 ∧ ∀ k, k < n → ∃ b ∈ d.nvs.prefetch ++ d.nvs.branch, b.line = (a / 16 + k) / 2) ∧
    (d.servable p = true ↔ d.coreHit p = true ∨ d.rangeReadable a (16 * n) = true)) ∧
  ∀ (d : Dev) (src i n : Nat), 0 < n →
    let blk := i / 4096
    let found (k : Nat) : Option (QWord × BitVec 4) :=
      match if src = 1 then d.buffered ((i + k) / 2) else none, d.nvCell (i + k) with
      | some b, _ => some (b.words.getD ((i + k) % 2) (0, 0))
      | none, .erased => some (BitVec.allOnes 128, 0)
      | none, .data w c => some (w, c)
      | none, .unknown => none
    let x := d.nvLine src i n
    let st := Store.get (fun _ => {}) x.1.nvs.rdstat src
    let line := i / 2
    let bank := d.nvBank (bankOf (line / 2048))
    let early : Prop := d.nvs.ethr ≤ x.2.cbits ∧ x.2.cbits < 15
    ((d.nvBank (bankOf blk)).suspended blk = true → x.2.data = List.replicate n (BitVec.allOnes 128) ∧
      x.2.status = .eraseSuspended ∧ x.2.cbits = 15) ∧
    ((d.nvBank (bankOf blk)).suspended blk = false → ∀ l : List (QWord × BitVec 4), (List.range n).map found = l.map some →
      let lost : Prop := ∃ y ∈ l, y.2 = 15
      let sum := (l.map fun y => y.2.toNat).foldl (· + ·) 0
      x.2.data = l.map (·.1) ∧ (lost → x.2.status = .mediaError ∧ x.2.cbits = 15 ∧
        ((d.evtCfg 210).en = true → (x.1.evtLast 210).payload = payload .mediaError 1 blk)) ∧
      (¬ lost → x.2.status = .ok ∧ x.2.cbits = min 14 sum)) ∧
    st = { ue := x.2.ue, susp := x.2.susp, early := decide early, cbits := BitVec.ofNat 4 x.2.cbits, line := i + n - 1 } ∧
    x.1.nvs.ewarn = (if early then satAdd 0xFFFFFFFF d.nvs.ewarn 1 else d.nvs.ewarn) ∧
    x.1.nvs.words = d.nvs.words ∧ x.1.nvs.bank = d.nvs.bank ∧ x.1.eng = d.eng ∧
    (src ≠ 1 ∨ d.nvs.coreLine = some line → x.1.nvs.prefetch = d.nvs.prefetch ∧ x.1.nvs.branch = d.nvs.branch ∧
      x.1.nvs.coreLine = d.nvs.coreLine) ∧
    (src = 1 → x.1.nvs.coreLine = some line ∧
      (∀ m, line = m + 1 → d.nvs.coreLine = some m → x.1.nvs.branch = d.nvs.branch ∧
        ∀ b ∈ x.1.nvs.prefetch, line ≤ b.line ∧ b.line ≤ line + 3) ∧
      (d.nvs.coreLine ≠ some line → (∀ m, line = m + 1 → d.nvs.coreLine ≠ some m) → x.1.nvs.prefetch = d.nvs.prefetch ∧
        x.1.nvs.branch.length ≤ max 32 d.nvs.branch.length ∧
        (bank.readable = true → bank.suspended (line / 2048) = false → line < 2 ^ 21 →
          x.1.nvs.branch.head?.map (·.line) = some line))) ∧
    ∀ j, j ≠ src → Store.get (fun _ => {}) x.1.nvs.rdstat j = Store.get (fun _ => {}) d.nvs.rdstat j

/-- R400 to R404, R406, Table 18-5: each command of the sequencer writes the registers of one complete sequence. From the idle sequencer
its checks decide NVS_LSTATUS, in their order, and nothing else then changes: wrong operands are BAD_OPERAND; a program or an erase of the
factory row is PROTECTED but for the JTAG bridge in BLANK, one under a droop or in a bank that cannot take it is BUSY, one of an
initiator that executes from the bank is BANK_SELF with EV215, one of a protected block is PROTECTED, a program under a suspended erase is
ERASE_SUSPENDED, and one of a word that is not erased is REPROGRAM. One that passes starts; an erase counts first, and the core's buffers lose its block. SUSPEND needs an erase
in progress, RESUME one that SUSPEND stopped, with no program in the bank. The zone commands act by the zone's state. -/
def Sys2Proof.Stated.SequencerCommands : Prop :=
  ∀ (s : State) (src : Fin 64) (addr : Word) (data : List Word) (w : QWord), s.Writable pdNvs →
    let goes (i : Instr) (d : Dev) : Prop := exec i s = .next { s with dev := d }
    let four : List Word := (List.range 4).map fun i => data.getD i 0
    let parts : List Word := (List.range 4).map fun i => BitVec.ofNat 32 (fld w (32 * i) 32)
    let all : List (Instr × Nat × List Word) := [(.program src addr w, 1, parts), (.erase src addr, 2, []), (.suspend src addr, 3, []),
      (.resume src addr, 4, []), (.zunlock src addr data, 5, four), (.zlock src addr, 6, []), (.zset src addr data, 7, four),
      (.zclear src addr, 8, [])]
    let keys (cmd : Nat) : List (Nat × Word) := [(0, 0xA5C3), (0, 0x3C5A), (1, BitVec.ofNat 32 cmd), (2, addr)]
    (∀ x ∈ all, goes x.1 ((keys x.2.1 ++ ([3, 4, 5, 6].zip x.2.2)).foldl
      (fun d (r : Nat × Word) => nvsSequence src r.1 r.2 s.otp d) s.dev)) ∧
    (s.dev.nvs.seq.step = 0 →
      let row := bit addr 31
      let clean : Prop := fld addr 26 5 = 0
      let blk := fld addr 16 10
      let b := bankOf blk
      let bank := s.dev.nvBank b
      let k := fld addr 24 2
      let z := fld addr 0 4
      let zone := s.dev.zone z
      let pass := dword (data.getD 0 0) (data.getD 1 0)
      let w2 := data.getD 2 0
      let w3 := data.getD 3 0
      let start (cmd : Nat) (l : List Word) : Dev :=
        { s.dev with nvs := { s.dev.nvs with seq := { step := 0, src := src, cmd := cmd, addr := addr, data := l } } }
      let ends (i : Instr) (d : Dev) (st : Status) : Prop := goes i { d with nvs := { d.nvs with lstatus := st } }
      let setBank (d : Dev) (j : Nat) (x : NvBank) : Dev := d.updBank j fun _ => x
      let setZone (d : Dev) (x : Zone) : Dev := d.updZone z fun _ => x
      let stops (i : Instr) (d : Dev) (may : Bool) (go : Prop) : Prop :=
        if row && !(s.otp.state == 0 && src.val == 6) then ends i d .isProtected
        else if s.dev.pwr.droop then ends i d .busy
        else if !may then ends i d .busy
        else if s.dev.bankSelf src b then ends i (d.fire 215 (payload .bankSelf 1 src)) .bankSelf
        else if !row && s.dev.writeProtected src blk then ends i d .isProtected
        else go
      (let i := Instr.program src addr w
       let d := start 1 parts
       let good : Prop := clean ∧ fld addr 0 4 = 0 ∧ (row = true → fld addr 12 14 = 0)
       let at_ := if row then fld addr 4 8 else fld addr 4 22
       let cell := if row then s.dev.rowCell at_ else s.dev.nvCell at_
       let starts (d : Dev) : Prop := ends i (setBank d b { bank with prog := some { word := at_, row := row, data := w } }) .ok
       (¬ good → ends i d .badOperand) ∧
       (good → stops i d bank.mayProgram (
         (row = false → bank.suspended blk = true → ends i d .eraseSuspended) ∧
         (row = true ∨ bank.suspended blk = false →
           (cell = .erased → starts d) ∧ (∀ v c, cell = .data v c → ends i d .reprogram) ∧
           (cell = .unknown → Config.cutErased s.dev.fresh = true → starts d.bump) ∧
           (cell = .unknown → Config.cutErased s.dev.fresh = false → ends i d.bump .reprogram))))) ∧
      (let i := Instr.erase src addr
       let d := start 2 []
       let good : Prop := clean ∧ (if row then fld addr 0 26 = 0 else fld addr 0 16 = 0)
       (¬ good → ends i d .badOperand) ∧
       (good → stops i d (bank.state == 0)
         (let d := if row then d else d.countErase blk
          let d : Dev := if row then d else { d with nvs := d.nvs.dropBlock blk }
          ends i (setBank d b { bank with erase := some { block := blk, row := row } }) .ok))) ∧
      (let good : Prop := clean ∧ row = false ∧ fld addr 0 24 = 0
       (¬ good → ends (.suspend src addr) (start 3 []) .badOperand ∧ ends (.resume src addr) (start 4 []) .badOperand) ∧
       (good → (s.dev.nvBank k).state ≠ 2 → ends (.suspend src addr) (start 3 []) .badOperand) ∧
       (good → (∀ e, (s.dev.nvBank k).erase = some e → e.susp ≠ 2) → ends (.resume src addr) (start 4 []) .badOperand) ∧
       ∀ e, good → (s.dev.nvBank k).erase = some e →
         let resumes (e' : NvErase) : Prop := ends (.resume src addr)
           ((setBank (start 4 []) k { s.dev.nvBank k with erase := some e' }).fire 211 (payload .ok 2 e.block)) .ok
         ((s.dev.nvBank k).state = 2 → ends (.suspend src addr)
           (setBank (start 3 []) k { s.dev.nvBank k with erase := some { e with susp := 2 } }) .ok) ∧
         (e.susp = 2 → (s.dev.nvBank k).prog ≠ none → ends (.resume src addr) (start 4 []) .busy) ∧
         (e.susp = 2 → (s.dev.nvBank k).prog = none → s.dev.pwr.droop = true → resumes { e with susp := 3 }) ∧
         (e.susp = 2 → (s.dev.nvBank k).prog = none → s.dev.pwr.droop = false → resumes { e with susp := 0, stopped := false })) ∧
      (let zoned : Prop := clean ∧ row = false ∧ fld addr 4 22 = 0
       let unlock (d : Dev) (st : Status) : Prop := ends (.zunlock src addr data) d st
       let lock (d : Dev) (st : Status) : Prop := ends (.zlock src addr) d st
       let set (d : Dev) (st : Status) : Prop := ends (.zset src addr data) d st
       let clear (d : Dev) (st : Status) : Prop := ends (.zclear src addr) d st
       let bounds : Prop := fld w2 20 12 = 0 ∧ fld w3 2 30 = 0 ∧ fld w2 0 10 ≤ fld w2 10 10
       let left := zone.attempts - 1
       (¬ (zoned ∧ w2 = 0 ∧ w3 = 0) → unlock (start 5 four) .badOperand) ∧
       (zoned → w2 = 0 → w3 = 0 →
         (zone.st = 0 → unlock (start 5 four) .notPresent) ∧
         (zone.st = 1 → zone.pass = pass → unlock (setZone (start 5 four) { zone with st := 2, attempts := 8 }) .ok) ∧
         (zone.st = 1 → zone.pass ≠ pass → 1 < zone.attempts →
           unlock (setZone (start 5 four) { zone with attempts := left, st := 1 }) .isProtected) ∧
         (zone.st = 1 → zone.pass ≠ pass → zone.attempts ≤ 1 → unlock
           ((setZone (start 5 four) { zone with attempts := left, st := 3 }).fire 212 (payload .isProtected 1 z)) .isProtected) ∧
         (zone.st = 2 → unlock (start 5 four) .ok) ∧ (2 < zone.st → unlock (start 5 four) .isProtected)) ∧
       (¬ zoned → lock (start 6 []) .badOperand ∧ clear (start 8 []) .badOperand) ∧
       (zoned →
         (zone.st = 0 → lock (start 6 []) .notPresent ∧ clear (start 8 []) .notPresent) ∧
         (zone.st = 2 → lock (setZone (start 6 []) { zone with st := 1 }) .ok ∧ clear (setZone (start 8 []) {}) .ok) ∧
         (zone.st = 1 ∨ 2 < zone.st → lock (start 6 []) .ok ∧ clear (start 8 []) .isProtected)) ∧
       (¬ (zoned ∧ bounds) → set (start 7 four) .badOperand) ∧
       (zoned → bounds →
         let zone' := { zone with st := 1, first := fld w2 0 10, last := fld w2 10 10, wp := bit w3 0, rp := bit w3 1, pass := pass }
         (zone.st = 1 ∨ zone.st = 3 → set (start 7 four) .isProtected) ∧
         (zone.st ≠ 1 → zone.st ≠ 3 → set (setZone (start 7 four) zone') .ok))))

/-- R400: the sequencer opens for the initiator that writes the first key, and takes the second key, a command of Table 18-5, its address
and, for three of the commands, four data words, each in its register; the last write runs the command. A wrong value, a wrong register
or a pause of more than 10 µs ends the sequence with SEQERR and EV214, and every other initiator is refused with WERR. A write waits
while the NV store is under test, and is answered with FENCED where its edge is closed. -/
def Sys2Proof.Stated.SequencerOpens : Prop :=
  ∀ (s : State), s.dev.live = true →
    let n := s.dev.nvs
    let q := n.seq
    let goes (i : Instr) (d : Dev) : Prop := exec i s = .next { s with dev := d }
    let broken (by_ : Nat) : Dev :=
      ({ s.dev with nvs := { n with seq := { q with step := 0 }, seqErr := true } }).fire 214 (payload .badOperand 1 by_)
    (q.step = 0 → exec .nvsSeqTimeout s = .next s) ∧ (q.step ≠ 0 → goes .nvsSeqTimeout (broken q.src)) ∧
    ∀ (src : Fin 64) (reg : Fin 7) (w : Word),
      let i := Instr.nvsSequence src reg w
      let packet := writePacket src (0x70000 + 4 * reg.val) w
      (s.dev.tested pdNvs = true → goes i (s.dev.holdRequest pdNvs 2 packet)) ∧
      (s.dev.tested pdNvs = false → (s.dev.domain pdNvs).closed = true →
        (src = 0 → goes i (s.dev.hostWriteFenced pdNvs)) ∧ (src ≠ 0 → goes i (s.dev.fencedAnswer pdNvs))) ∧
      (s.Writable pdNvs →
        let only (q' : NvSeq) : Prop := goes i { s.dev with nvs := { n with seq := q' } }
        let runs (q' : NvSeq) : Prop := goes i (Dev.nvOperate { s.dev with nvs := { n with seq := { q' with step := 0 } } }
          (s.otp.state == 0) src q'.cmd q'.addr q'.data)
        let mine : Prop := q.step = 0 ∨ q.src = src
        let key (v : Nat) : Prop := reg = 0 ∧ fld w 0 16 = v
        let cmd := fld w 0 4
        let long : Prop := q.cmd = 1 ∨ q.cmd = 5 ∨ q.cmd = 7
        (¬ mine → goes i { s.dev with nvs := { n with werr := true } }) ∧
        (mine →
          (q.step = 0 → key 0xA5C3 → only { step := 1, src := src }) ∧
          (q.step = 0 → ¬ key 0xA5C3 → goes i (broken src)) ∧
          (q.step = 1 → key 0x3C5A → only { q with step := 2 }) ∧
          (q.step = 1 → ¬ key 0x3C5A → goes i (broken src)) ∧
          (q.step = 2 → reg = 1 ∧ 1 ≤ cmd ∧ cmd ≤ 8 → only { q with step := 3, cmd := cmd }) ∧
          (q.step = 2 → ¬ (reg = 1 ∧ 1 ≤ cmd ∧ cmd ≤ 8) → goes i (broken src)) ∧
          (q.step = 3 → reg = 2 → long → only { q with step := 4, addr := w }) ∧
          (q.step = 3 → reg = 2 → ¬ long → runs { q with addr := w }) ∧
          (q.step = 4 → reg = 3 → only { q with step := 5, data := [w] }) ∧
          (q.step = 5 → reg = 4 → only { q with step := 6, data := q.data ++ [w] }) ∧
          (q.step = 6 → reg = 5 → only { q with step := 7, data := q.data ++ [w] }) ∧
          (q.step = 7 → reg = 6 → runs { q with data := q.data ++ [w] }) ∧
          (3 ≤ q.step → reg.val ≠ q.step - 1 → goes i (broken src))))

/-- The sequencer of the non-volatile store. -/
def Obligations.Sequencer : Prop :=
  Sys2Proof.Stated.SequencerCommands ∧ Sys2Proof.Stated.SequencerOpens

/-- R394, R399, R401, R403, R404: the end of a program leaves its word, and the end of an erase its block, as the verify found them,
with EV208 and the bank's status; a command's program goes on with its next word, or ends with MEDIA_ERROR; an erase answers its
command; then what waits for a bank is looked at again. A suspended erase stops, with EV211 but for a read's suspend, and a read-suspended
one resumes. What is not in progress does nothing. -/
def Obligations.FlashEnds : Prop :=
  ∀ (s : State) (b : Fin 4), s.dev.live = true →
    let x := s.dev.nvBank b
    let cell := s.dev.nvCell
    let goes (i : Instr) (d : Dev) : Prop := exec i s = .next { s with dev := d }
    let calm : Prop := s.dev.nvs.jobs = [] ∧ s.dev.nvs.waiting = []
    let still (d : Dev) : Prop := d.eng = s.dev.eng ∧ ∀ j, j ≠ b.val → d.nvBank j = s.dev.nvBank j
    let jobs (d : Dev) (l : List NvJob) : Dev := { d with nvs := { d.nvs with jobs := l } }
    (x.prog = none → ∀ v, exec (.programDone b v) s = .next s) ∧
    (∀ (p : NvProg) (v : Verify), x.prog = some p →
      let ok : Prop := v ≠ .failed
      let left : NvCell := match v with
        | .passed c => .data p.data c
        | .failed => .unknown
      let st : Status := if v = .failed then .mediaError else .ok
      let d := (s.dev.setCell p.row p.word left).updBank b fun _ => { x with prog := none, lstatus := st }
      let d := d.fire 208 (payload st 1 (if p.row then 0 else p.word / 4096))
      (p.job = false → goes (.programDone b v) d.nvPump) ∧
      (∀ (l r : List NvJob) (o : Owner) (ws : List QWord) (n : Nat), p.job = true →
        s.dev.nvs.jobs = l ++ .program o p.word ws n :: r → (∀ o' ws' n', .program o' p.word ws' n' ∉ l ++ r) →
        (ok → goes (.programDone b v) (jobs d (l ++ .program o (p.word + 1) ws.tail (n + 1) :: r)).nvPump) ∧
        (¬ ok → goes (.programDone b v)
          (((jobs d (l ++ r)).dropChan o).complete o .mediaError (BitVec.ofNat 32 n) 0).nvPump))) ∧
    (x.erase = none → ∀ ok, exec (.eraseDone b ok) s = .next s ∧ exec (.eraseStop b) s = .next s ∧
      exec (.eraseAutoResume b) s = .next s) ∧
    (∀ e, x.erase = some e →
      let keep (e' : NvErase) : Dev := s.dev.updBank b fun _ => { x with erase := some e' }
      (∀ ok : Bool, (e.stopped = true → exec (.eraseDone b ok) s = .next s) ∧
        (e.stopped = false →
          let st : Status := if ok then .ok else .mediaError
          let d := (s.dev.eraseBlock e.row e.block ok).updBank b fun _ => { x with erase := none, lstatus := st }
          goes (.eraseDone b ok) (((d.fire 208 (payload st 2 e.block)).answer? e.owner st).nvPump))) ∧
      (e.stopped = true ∨ e.susp = 0 → exec (.eraseStop b) s = .next s) ∧
      (e.stopped = false → e.susp = 1 → goes (.eraseStop b) (keep { e with stopped := true }).nvPump) ∧
      (e.stopped = false → 1 < e.susp →
        goes (.eraseStop b) ((keep { e with stopped := true }).fire 211 (payload .ok 1 e.block)).nvPump) ∧
      (e.stopped = false ∨ e.susp ≠ 1 ∨ x.prog ≠ none → exec (.eraseAutoResume b) s = .next s) ∧
      (e.stopped = true → e.susp = 1 → x.prog = none →
        goes (.eraseAutoResume b) (keep { e with stopped := false, susp := 0 }).nvPump)) ∧
    (calm →
      (∀ (p : NvProg) (c : BitVec 4), x.prog = some p → p.row = false → p.job = false →
        (∃ d, goes (.programDone b (.passed c)) d ∧ still d ∧ d.nvBank b = { x with prog := none, lstatus := .ok } ∧
          d.nvCell p.word = .data p.data c ∧ (∀ i, i ≠ p.word → d.nvCell i = cell i)) ∧
        (∃ d, goes (.programDone b .failed) d ∧ still d ∧ d.nvBank b = { x with prog := none, lstatus := .mediaError } ∧
          d.nvCell p.word = .unknown ∧ (∀ i, i ≠ p.word → d.nvCell i = cell i))) ∧
      (∀ (e : NvErase) (ok : Bool), x.erase = some e → e.row = false → e.stopped = false →
        ∃ d, goes (.eraseDone b ok) d ∧ still d ∧
          d.nvBank b = { x with erase := none, lstatus := if ok then .ok else .mediaError } ∧
          (∀ i, d.nvCell i = if i / 4096 = e.block then (if ok then .erased else .unknown) else cell i)))

/-- R318, R331, R344, R392, R397, R401, R407: the NVS commands with their checks in order. NVS_READ and NVS_PROGRAM wait for a DMA
channel and for Bus Master Enable, and end where the DMA fails; else they join what waits for the banks. A read puts what the store
holds into host memory and answers with its status, count and CBITS once every bank can read; a program takes one word after another
while its bank may, and answers with the words done; an erase starts in an idle bank. NVS_UNLOCK answers with the attempts left. -/
def Sys2Proof.Stated.NvsCommands : Prop :=
  (∀ (s : State) (c : Tci) (o : Owner) (d0 : Dev) (x : Dma),
    let a := fld (c.w 1) 0 26
    let n := fld (c.w 2) 0 26
    let h := (c.w64 3).toNat
    let n32 (n : Nat) : Word := BitVec.ofNat 32 n
    let goes (i : Instr) (d : Dev) : Prop := exec i s = .next { s with dev := d }
    let waits : Prop := d0.freeChan = none ∨ d0.cmd.bme = false
    let joins (d : Dev) (j : NvJob) : Dev := ({ d with nvs := { d.nvs with jobs := d.nvs.jobs ++ [j] } }).nvPump
    (∀ y ∈ [(0xD0, Instr.nvsRead c x), (0xD1, .nvsProgram c x), (0xD2, .nvsErase c), (0xD3, .nvsUnlock c)], s.Accepts y.1 c o d0 →
      (s.dev.tested pdNvs = true → goes y.2 ((d0.wantService pdNvs).park c o)) ∧
      (s.dev.tested pdNvs = false → (s.dev.domain pdNvs).closed = true → goes y.2 ((d0.fencedAnswer pdNvs).answer o .fenced))) ∧
    (s.AcceptsAt pdNvs 0xD0 c o d0 →
      let bad : Prop := c.w 1 ≠ n32 a ∨ c.w 2 ≠ n32 n ∨ n = 0 ∨ 2 ^ 26 < a + n ∨ h % 16 ≠ 0
      let hidden : Prop := ∃ b ∈ blocksOf a n, s.dev.readProtected 8 b = true
      (bad → goes (.nvsRead c x) (d0.answer o .badOperand)) ∧
      (¬ bad → hidden → goes (.nvsRead c x) (d0.answer o .isProtected)) ∧
      (¬ bad → ¬ hidden → waits → goes (.nvsRead c x) (d0.park c o)) ∧
      (¬ bad → ¬ hidden → ¬ waits → x ≠ .done → goes (.nvsRead c x) (d0.dmaFail o x)) ∧
      (¬ bad → ¬ hidden → ¬ waits → x = .done → goes (.nvsRead c x) (joins (d0.takeChan o) (.read o a n h)))) ∧
    (s.AcceptsAt pdNvs 0xD1 c o d0 →
      let bad : Prop := c.w 1 ≠ n32 a ∨ c.w 2 ≠ n32 n ∨ a % 16 ≠ 0 ∨ n % 16 ≠ 0 ∨ 2 ^ 26 < a + n ∨ h % 16 ≠ 0
      let words := (List.range (n / 16)).map (a / 16 + ·)
      (bad → goes (.nvsProgram c x) (d0.answer o .badOperand)) ∧
      (¬ bad → s.dev.pwr.droop = true → goes (.nvsProgram c x) (d0.answer o .busy)) ∧
      (¬ bad → s.dev.pwr.droop = false →
        (∀ d k st, Dev.firstRefused 8 words 0 d0 = (d, some (k, st)) → goes (.nvsProgram c x) (d.complete o st (n32 k) 0)) ∧
        (∀ d, Dev.firstRefused 8 words 0 d0 = (d, none) →
          (waits → goes (.nvsProgram c x) (d.park c o)) ∧
          (¬ waits → x ≠ .done → goes (.nvsProgram c x) (d.dmaFail o x)) ∧
          (¬ waits → x = .done → goes (.nvsProgram c x) (joins (d.takeChan o)
            (.program o (a / 16) ((List.range (n / 16)).map fun i => rd128 s.dev.cmd.hostMem (h + 16 * i)) 0)))))) ∧
    (s.AcceptsAt pdNvs 0xD2 c o d0 →
      let b := fld (c.w 1) 0 10
      (c.w 1 ≠ n32 b → goes (.nvsErase c) (d0.answer o .badOperand)) ∧
      (c.w 1 = n32 b → s.dev.pwr.droop = true → goes (.nvsErase c) (d0.answer o .busy)) ∧
      (c.w 1 = n32 b → s.dev.pwr.droop = false → s.dev.writeProtected 8 b = true → goes (.nvsErase c) (d0.answer o .isProtected)) ∧
      (c.w 1 = n32 b → s.dev.pwr.droop = false → s.dev.writeProtected 8 b = false → goes (.nvsErase c) (joins d0 (.erase o b)))) ∧
    (s.AcceptsAt pdNvs 0xD3 c o d0 →
      let z := fld (c.w 1) 0 4
      let zone := s.dev.zone z
      let left := zone.attempts - 1
      let ends (d : Dev) (st : Status) (v : Nat) : Prop := goes (.nvsUnlock c) (d.complete o st (n32 v) 0)
      (c.w 1 ≠ n32 z → goes (.nvsUnlock c) (d0.answer o .badOperand)) ∧
      (c.w 1 = n32 z →
        (zone.st = 0 → ends d0 .notPresent 0) ∧ (zone.st = 2 → ends d0 .ok 0) ∧ (2 < zone.st → ends d0 .isProtected zone.attempts) ∧
        (zone.st = 1 → zone.pass = c.w64 2 → ends (d0.updZone z fun _ => { zone with st := 2, attempts := 8 }) .ok 0) ∧
        (zone.st = 1 → zone.pass ≠ c.w64 2 → 1 < zone.attempts →
          ends (d0.updZone z fun _ => { zone with attempts := left, st := 1 }) .isProtected left) ∧
        (zone.st = 1 → zone.pass ≠ c.w64 2 → zone.attempts ≤ 1 →
          ends ((d0.updZone z fun _ => { zone with attempts := left, st := 3 }).fire 212 (payload .isProtected 1 z)) .isProtected left)))) ∧
  (∀ (d : Dev) (o : Owner) (a n h i blk : Nat) (w : QWord) (ws : List QWord) (k : Nat),
    let bank (b : Nat) : NvBank := d.nvBank (bankOf b)
    let x := d.nvBytes (d.dmaSrc o) a n
    let read := ({ x.1 with cmd := { x.1.cmd with hostMem := wrBytes x.1.cmd.hostMem h x.2.2 } }).dropChan o
    let may : Prop := (bank (i / 4096)).mayProgram = true ∧ d.pwr.droop = false
    let y := d.progStatus false i
    let idle : Prop := (bank blk).state = 0 ∧ d.pwr.droop = false
    let job (d : Dev) : Dev := { d with nvs := { d.nvs with jobs := .program o i (w :: ws) k :: d.nvs.jobs } }
    let bankIs (d : Dev) (b : Nat) (v : NvBank) : Dev := d.updBank (bankOf b) fun _ => v
    (d.rangeReadable a n = true → d.cmd.bme = true → d.runJob (.read o a n h) =
      some (read.complete o x.2.1.status (BitVec.ofNat 32 n) (BitVec.ofNat 32 x.2.1.cbits))) ∧
    (d.rangeReadable a n = false ∨ d.cmd.bme = false → d.runJob (.read o a n h) = none) ∧
    d.runJob (.program o i [] k) = some ((d.dropChan o).complete o .ok (BitVec.ofNat 32 k) 0) ∧
    (¬ may → d.runJob (.program o i (w :: ws) k) = none) ∧
    (may → y.2 = .ok → d.runJob (.program o i (w :: ws) k) =
      some (job (bankIs y.1 (i / 4096) { bank (i / 4096) with prog := some { word := i, data := w, job := true } }))) ∧
    (may → y.2 ≠ .ok → d.runJob (.program o i (w :: ws) k) = some ((y.1.dropChan o).complete o y.2 (BitVec.ofNat 32 k) 0)) ∧
    (¬ idle → d.runJob (.erase o blk) = none) ∧
    (idle → d.runJob (.erase o blk) =
      let d := d.countErase blk
      some (bankIs { d with nvs := d.nvs.dropBlock blk } blk { bank blk with erase := some { block := blk, owner := some o } })))

/-- Commands of the non-volatile store. -/
def Obligations.NvsCommands : Prop :=
  Sys2Proof.Stated.NvsCommands ∧ Sys2Proof.Stated.NvReads

/-! ## Events and the recorder (19_events_and_recorder.md) -/

/-- R410 to R413, R417, R422, R424, Table 19-1: an event that is not enabled changes nothing. One that fires sets its status bit, leaves
its payload, stamp and count, and goes where its configuration says: to the Steward, as its bit rises to the host's vector and to the
tree, and, but for the recorder's own, to the recorder. A record that repeats the open one counts there, one that repeats the newest of
the ring counts there, and every other joins the ring; in a full one it takes the place of the oldest that is no more severe and no
media fault, or is dropped and counted. (A vector that is masked is pending.) -/
def Sys2Proof.Stated.EventFires : Prop :=
  (∀ (d : Dev) (n : Nat) (p : Word) (st : Stamp),
    let cfg := d.evtCfg n
    let rose : Prop := bit d.evt.stat n = false
    let e : LogEnt := { event := n, payload := p, sev := cfg.sev, opsec := d.log.opsec, pcc := d.log.pcc, stamp := st }
    let told := if cfg.stw then d.evt.steward ++ [n] else d.evt.steward
    let last := { payload := p, stamp := st, count := satAdd 65535 (d.evtLast n).count 1 }
    let d1 : Dev := { d with evt := { d.evt with
      last := Store.put evtLastReset d.evt.last n last, stat := setBit d.evt.stat n, steward := told } }
    let d2 := if cfg.msi = true ∧ rose then d1.requestVector n else d1
    let entry := fwdEntry d.byt.addr n p st
    let d3 := if cfg.byt = true ∧ rose then (if d.time.role = .root then d2.forwardEvent entry else match d.byt.upPort with
      | some q => d2.sendFrame q { dir := .up, msg := .event entry } false
      | none => d2) else d2
    let r := d3.requestRecord e
    (cfg.en = false → d.fireAt n p st = d) ∧
    (cfg.en = true → cfg.rcd = false ∨ (240 ≤ n ∧ n ≤ 243) → d.fireAt n p st = d3) ∧
    (cfg.en = true → cfg.rcd = true → ¬ (240 ≤ n ∧ n ≤ 243) →
      (r.2 = false → d.fireAt n p st = r.1) ∧ (r.2 = true → d.fireAt n p st = r.1.raiseDrop cfg.sev st))) ∧
  (∀ (d : Dev) (n : Nat),
    let v := Store.get msixReset d.cmd.msix n
    let masked : Prop := v.masked = true ∨ d.cmd.funcMask = true ∨ d.cmd.bme = false
    (masked → d.requestVector n = { d with cmd := { d.cmd with pba := setBit d.cmd.pba n } }) ∧
    (¬ masked → d.requestVector n =
      { d with cmd := { d.cmd with messages := d.cmd.messages ++ [⟨n, dword v.addrLo v.addrHi, v.data⟩] } })) ∧
  ∀ (d : Dev) (e : LogEnt), e.kind = .event →
    let l := d.log
    let same (f : LogEnt) : Prop := f.kind = .event ∧ f.event = e.event ∧ f.payload = e.payload
    let more (f : LogEnt) : LogEnt := { f with rep := satAdd 65535 f.rep 1 }
    let repeats : Prop := l.ring = [] ∧ ∃ o : OpenRec, l.opened = some o ∧ same o.ent ∧ o.due = false
    let due := l.opened.map fun (o : OpenRec) => { o with due := true }
    let ring (r : List LogEnt) : Dev × Bool := ({ d with log := { l with opened := due, ring := r } }, false)
    let new : LogEnt := { e with staged := d.logHeld || !l.ring.isEmpty }
    let newest : Prop := ∃ f, l.ring.getLast? = some f ∧ same f
    (∀ o : OpenRec, l.ring = [] → l.opened = some o → same o.ent → o.due = false →
      let o' : OpenRec := { o with ent := more o.ent, due := (more o.ent).rep == 65535 }
      d.requestRecord e = ({ d with log := { l with opened := some o' } }, false)) ∧
    (∀ r f, ¬ repeats → l.ring = r ++ [f] → same f → d.requestRecord e = ring (r ++ [more f])) ∧
    (¬ repeats → ¬ newest → l.ring.length < 64 → d.requestRecord e = ring (l.ring ++ [new])) ∧
    (∀ a b f, ¬ repeats → ¬ newest → 64 ≤ l.ring.length → l.ring = a ++ f :: b → f.sev ≤ e.sev → f.kind ≠ .mediaFault →
      (∀ g ∈ a, e.sev < g.sev ∨ g.kind = .mediaFault) → d.requestRecord e = ring (a ++ b ++ [new])) ∧
    (¬ repeats → ¬ newest → 64 ≤ l.ring.length → (∀ g ∈ l.ring, e.sev < g.sev ∨ g.kind = .mediaFault) →
      d.requestRecord e = ({ d with log := LogState.dropped { l with opened := due } e.sev }, true))

/-- R410, R411, R413, R428, R430: a write of 1 to a status bit clears it with its count; EVT_CFG takes its fields, and setting MSI
while the bit is set requests the vector; the read of the last payload and of LOG_SEQ_NEW capture what belongs to them. -/
def Sys2Proof.Stated.EventRegisters : Prop :=
  ∀ (s : State), s.dev.live = true →
    let goes (i : Instr) (d : Dev) : Prop := exec i s = .next { s with dev := d }
    (∀ (k : Fin 8) (w : Word), ∃ (st : BitVec 256) (last : Store EvtLast),
      let d : Dev := { s.dev with evt := { s.dev.evt with stat := st, last := last } }
      goes (.evtStatClear k w) d ∧ ∀ n : Fin 256,
        let hit : Prop := n.val / 32 = k ∧ bit w (n % 32) = true
        (hit → bit st n = false ∧ d.evtLast n = { s.dev.evtLast n with count := 0 }) ∧
        (¬ hit → bit st n = bit s.dev.evt.stat n ∧ d.evtLast n = s.dev.evtLast n)) ∧
    (∀ (n : Fin 256) (w : Word), ∃ cfg : Store EvtCfg,
      let d : Dev := { s.dev with evt := { s.dev.evt with cfg := cfg } }
      let rises : Prop := bit w 3 = true ∧ (s.dev.evtCfg n).msi = false ∧ bit s.dev.evt.stat n = true
      (rises → goes (.evtCfgWrite n w) (d.requestVector n)) ∧ (¬ rises → goes (.evtCfgWrite n w) d) ∧
      d.evtCfg n = { en := bit w 31, byt := bit w 7, alert := bit w 6, rcd := bit w 5, stw := bit w 4, msi := bit w 3, sev := fld w 0 2 } ∧
      ∀ m, m ≠ n.val → d.evtCfg m = s.dev.evtCfg m) ∧
    (∀ (n : Fin 256),
      let l := s.dev.evtLast n
      ∃ cap : Store EvtCap,
        let d : Dev := { s.dev with evt := { s.dev.evt with cap := cap } }
        goes (.evtLastPayRead n) { d with rdata := s.dev.rdata ++ [l.payload] } ∧
        Store.get evtCapReset cap n =
          { lo := l.stamp.lo, hi := l.stamp.hi, fc := BitVec.ofNat 32 (l.stamp.frac.toNat * 65536 + l.count) } ∧
        ∀ m, m ≠ n.val → Store.get evtCapReset cap m = Store.get evtCapReset s.dev.evt.cap m) ∧
    goes .logSeqNewRead { s.dev with log := { s.dev.log with seqOldCap := s.dev.log.seqOld }, rdata := s.dev.rdata ++ [s.dev.log.seqNew] }

/-- Event registers. -/
def Obligations.EventRegisters : Prop :=
  Sys2Proof.Stated.EventRegisters ∧ Sys2Proof.Stated.EventFires

/-- R429, R431: a freeze waits for the recorder's operation, takes effect with EV243 once the open record is sealed, and ends on a
release or by itself; while one holds or waits, LOG_FREEZE answers BUSY, and in the degraded state FROZEN is set at once. Only SRC 1 and
6 may write LOG_FRZCTL. LOG_SEQ answers both sequence numbers. -/
def Sys2Proof.Stated.Freezes : Prop :=
  ∀ (s : State),
    let l := s.dev.log
    let goes (i : Instr) (d : Dev) : Prop := exec i s = .next { s with dev := d }
    let held : Prop := l.frozen = true ∨ l.freezePend ≠ none
    let due := l.opened.map fun (o : OpenRec) => { o with due := true }
    let thawed (d : Dev) (reason : Nat) : Dev :=
      ({ d with log := { l with frozen := false, remainMs := 0 } }).fire 243 (payload .ok reason l.freezeSrc)
    let now (d : Dev) (src : Nat) : Dev := { d with log := { d.log with frozen := true, freezeSrc := src, remainMs := 10000 } }
    (∀ (c : Tci) (o : Owner) (d0 : Dev),
      (s.Accepts 0xA0 c o d0 →
        (held → goes (.logFreeze c) (d0.answer o .busy)) ∧
        (¬ held → l.degraded = true → goes (.logFreeze c) ((now d0 1).answer o .ok)) ∧
        (¬ held → l.degraded = false → goes (.logFreeze c)
          { d0 with log := { l with freezePend := some { src := 1, owner := some o }, opened := due } })) ∧
      (s.Accepts 0xA1 c o d0 →
        (l.frozen = false → goes (.logRelease c) (d0.answer o .ok)) ∧
        (l.frozen = true → goes (.logRelease c) ((thawed d0 2).answer o .ok))) ∧
      (s.Accepts 0xA2 c o d0 → goes (.logSeq c) (d0.complete o .ok l.seqOld l.seqNew))) ∧
    (s.dev.live = true →
      (∀ v, l.freezePend = none → exec (.freezeEffect v) s = .next s) ∧
      (∀ (v : Verify) (f : FreezeReq), l.freezePend = some f →
        let d := if s.dev.domOn pdNvs then s.dev.endReclaim.sealOpen v else s.dev
        let d := now { d with log := { d.log with freezePend := none } } f.src
        goes (.freezeEffect v) ((d.fire 243 (payload .ok 1 f.src)).answer? f.owner .ok)) ∧
      (l.frozen = false → exec .freezeAutoRelease s = .next s) ∧
      (l.frozen = true → goes .freezeAutoRelease (thawed s.dev 3)) ∧
      ∀ src : Fin 64,
        let may : Prop := src = 1 ∨ src = 6
        let werr : Dev := { s.dev with log := { l with werr := true } }
        (¬ may → goes (.logFrzctlFreeze src) werr ∧ goes (.logFrzctlRelease src) werr) ∧
        (may → l.frozen = false → exec (.logFrzctlRelease src) s = .next s) ∧
        (may → l.frozen = true → goes (.logFrzctlRelease src) (thawed s.dev 2)) ∧
        (may → held → exec (.logFrzctlFreeze src) s = .next s) ∧
        (may → ¬ held → l.degraded = true → goes (.logFrzctlFreeze src) (now s.dev src)) ∧
        (may → ¬ held → l.degraded = false → goes (.logFrzctlFreeze src)
          { s.dev with log := { l with freezePend := some { src := src.val, owner := none }, opened := due } }))

/-- R416, R419, R422 to R426: the recorder does nothing while it is frozen, while a freeze waits or with no usable block, and enters the
degraded state where the NV store is not On. Else it makes its scan first and ends an erase that runs; where a record waits it seals the
open one and writes the next: a media fault at the head of the ring, an accepted annotation, or the oldest entry. The record goes into
the current block where it fits, and else into a new one: the lowest free block, or, after an erase, the one with the lowest generation
that holds nothing more severe; with no other good block the recorder degrades, and else the record is dropped. -/
def Sys2Proof.Stated.RecordTurns : Prop :=
  (∀ (s : State) (v : Verify), s.dev.live = true →
    let l := s.dev.log
    let goes (i : Instr) (d : Dev) : Prop := exec i s = .next { s with dev := d }
    let held : Prop := l.frozen = true ∨ l.freezePend ≠ none ∨ l.degraded = true ∧ l.dcause = 1
    let d := (if l.scanned then s.dev else s.dev.logScan).endReclaim
    (held → exec (.logRecordWrite v) s = .next s) ∧
    (¬ held → s.dev.domOn pdNvs = false → goes (.logRecordWrite v) (s.dev.logDegrade 2 0x3FF)) ∧
    (¬ held → s.dev.domOn pdNvs = true → d.nextRecord = none → goes (.logRecordWrite v) d) ∧
    (¬ held → s.dev.domOn pdNvs = true → d.nextRecord ≠ none → ∀ e t, (d.sealOpen v).nextRecord = some (e, t) →
      goes (.logRecordWrite v) ((d.sealOpen v).writeRecord t e v)) ∧
    (l.frozen = true ∨ s.dev.domOn pdNvs = false ∨ l.opened = none → exec (.recordSeal v) s = .next s) ∧
    (l.frozen = false → s.dev.domOn pdNvs = true → goes (.recordSeal v) (s.dev.sealOpen v))) ∧
  (∀ (d : Dev),
    let l := d.log
    let ring (r : List LogEnt) : Dev := { d with log := { l with ring := r } }
    let taken : Dev := { d with log := { l with ann := none } }
    (l.ring = [] → l.ann = none → d.nextRecord = none) ∧
    (∀ a, l.ann = some a → (∀ e r, l.ring = e :: r → e.kind ≠ .mediaFault) → d.nextRecord = some (a, taken)) ∧
    (∀ e r, l.ring = e :: r → l.ann = none ∨ e.kind = .mediaFault → d.nextRecord = some (e, ring r))) ∧
  ∀ (d0 d : Dev) (e : LogEnt) (v : Verify),
    let cur := d.log.curblk
    let fits : Prop := cur ≠ 0 ∧ (d.logBlk cur).next + e.len + 1 ≤ 4096
    let good (b : Nat) : Prop := 994 ≤ b ∧ b < 1024 ∧ bit d.log.retired (b - 994) = false
    let free (b : Nat) : Prop := good b ∧ (d.logBlk b).used = false ∧ (d.logBlk b).reclaimable = false
    let may (b : Nat) : Prop := good b ∧ b ≠ cur ∧ ¬ free b ∧ (d.logBlk b).maxSev ≤ e.sev
    (fits → d0.writeRecord d e v = d.putRecord e v) ∧
    (∀ b, ¬ fits → free b → (∀ j, free j → b ≤ j) → d0.writeRecord d e v = (d.openBlk b).putRecord e v) ∧
    (∀ b, ¬ fits → (∀ j, ¬ free j) → may b → (∀ j, may j → (d.logBlk b).gen < (d.logBlk j).gen ∨ (d.logBlk b).gen = (d.logBlk j).gen ∧ b ≤ j) →
      d0.writeRecord d e v = d0.startReclaim b) ∧
    (¬ fits → (∀ j, ¬ free j) → (∀ j, ¬ may j) → (∀ j, good j → j = cur) →
      d0.writeRecord d e v = d0.logDegrade 1 (if cur = 0 then 0x3FF else cur)) ∧
    (¬ fits → (∀ j, ¬ free j) → (∀ j, ¬ may j) → (∃ j, good j ∧ j ≠ cur) → d0.writeRecord d e v = d.logDrop e)

/-- R417 to R419, R421, R422, R426, R427: the recorder writes the oldest waiting record into the erased words of its block, body
first; a record of KIND EVENT stays open until its seal, and every other is sealed at once; a failed verify retires the block (how the record then comes back
is log 41's). An annotation is taken when nothing stands in its way. OPSEC counts seconds and is stored with its check word. -/
def Sys2Proof.Stated.Recorder : Prop :=
  ∀ (s : State) (v : Verify),
    let l := s.dev.log
    let goes (i : Instr) (d : Dev) : Prop := exec i s = .next { s with dev := d }
    let cell := s.dev.nvCell
    let good : Prop := ∃ c : BitVec 4, v = .passed c ∧ c.toNat < s.dev.nvs.ethr
    let works : Prop := s.dev.live = true ∧ s.dev.domOn pdNvs = true ∧ l.frozen = false
    (∀ (e : LogEnt) (rest : List LogEnt),
      let at_ := l.curblk * 4096 + (s.dev.logBlk l.curblk).next
      works → l.freezePend = none → good → l.degraded = false → l.scanned = true → l.erasing = none → l.opened = none → l.ann = none →
      l.ring = e :: rest → l.curblk ≠ 0 → (s.dev.logBlk l.curblk).next + e.len + 1 ≤ 4096 →
      (∀ k, k < e.len → cell (at_ + k) = .erased) →
      let written (d : Dev) : Prop := goes (.logRecordWrite v) d ∧ d.log.ring = rest ∧ d.log.seqNext = l.seqNext + 1 ∧
        d.eng = s.dev.eng ∧ (∀ k, k < e.len → ∃ c, d.nvCell (at_ + k) = .data (e.body.getD k 0) c) ∧
        (∀ i, i < at_ ∨ at_ + e.len < i → d.nvCell i = cell i)
      (e.kind = .event → ∃ d : Dev, written d ∧ d.nvCell (at_ + e.len) = cell (at_ + e.len) ∧ d.log.opened =
        some { ent := e, sealWord := at_ + e.len, body := e.body, seq := l.seqNext, dropsBefore := l.dropsBefore, due := e.rep == 65535 }) ∧
      (e.kind ≠ .event → cell (at_ + e.len) = .erased → ∃ d : Dev, written d ∧ d.log.opened = none ∧ d.log.seqNew = l.seqNext ∧
        ∃ c, d.nvCell (at_ + e.len) = .data (sealOf e.body e.rep false l.dropsBefore e.staged l.seqNext) c)) ∧
    (∀ r : OpenRec, works → l.opened = some r → cell r.sealWord = .erased →
      (good → ∃ d : Dev, goes (.recordSeal v) d ∧ d.log.opened = none ∧ d.log.seqNew = r.seq ∧ d.log.ring = l.ring ∧
        (∃ c, d.nvCell r.sealWord = .data (sealOf r.body r.ent.rep false r.dropsBefore r.ent.staged r.seq) c) ∧
        (∀ i, i ≠ r.sealWord → d.nvCell i = cell i) ∧ d.eng = s.dev.eng) ∧
      (v = .failed → 994 ≤ l.curblk → l.curblk < 1024 → ∃ d : Dev, goes (.recordSeal v) d ∧ d.log.opened = none ∧ d.log.curblk = 0 ∧
        bit d.log.retired (l.curblk - 994) = true ∧ d.nvCell r.sealWord = .unknown ∧
        ((s.dev.evtCfg 240).en = true → (d.evtLast 240).payload = payload .mediaError 2 l.curblk) ∧ d.eng = s.dev.eng)) ∧
    (∀ w : Word, s.dev.live = true →
      let n := fld w 2 6
      let stops : Prop := n = 0 ∨ 61 < n ∨ l.ring ≠ [] ∨ l.annBusy = true ∨ l.frozen = true ∨ l.degraded = true ∨ l.erasing ≠ none
      let unit (k : Nat) : QWord := BitVec.ofNat 128 ((List.range 4).foldl (fun n i =>
        n + 2 ^ (32 * i) * (Store.get (fun _ => (0 : Word)) l.annBuf (4 * k + i)).toNat) 0)
      let due := l.opened.map fun (o : OpenRec) => { o with due := true }
      let e : LogEnt := { kind := .annotation, payload := l.annPayload, sev := fld w 0 2, opsec := l.opsec, pcc := l.pcc,
                          stamp := s.dev.stamp, data := (List.range n).map unit }
      (stops → goes (.logAnnGo w) { s.dev with log := { l with werr := true } }) ∧
      (¬ stops → goes (.logAnnGo w) { s.dev with log := { l with
        dlen := n, annSev := fld w 0 2, annBusy := true, ann := some e, opened := due } })) ∧
    (s.dev.pin.powered = false → exec .opsecTick s = .next s) ∧
    (s.dev.pin.powered = true → goes .opsecTick { s.dev with log := { l with
      opsec := if l.opsec = 0xFFFFFFFF then l.opsec else l.opsec + 1, remainMs := if l.frozen then max 1 (l.remainMs - 1000) else 0 } }) ∧
    (s.dev.live = true → s.dev.domOn pdNvs = false → exec (.opsecStore v) s = .next s) ∧
    (s.dev.live = true → s.dev.domOn pdNvs = true →
      let full : Prop := 4096 ≤ l.opPos
      let left : NvCell := match v with
        | .passed c => .data (opsecWord l.opsec l.pcc) c
        | .failed => .unknown
      let i := l.opBlk * 4096 + l.opPos
      (¬ full → cell i = .erased → goes (.opsecStore v) { s.dev.setCell false i left with log := { l with opPos := l.opPos + 1 } }) ∧
      (¬ full → cell i = .unknown → Config.cutErased s.dev.fresh = true →
        goes (.opsecStore v) { s.dev.bump.setCell false i left with log := { l with opPos := l.opPos + 1 } }) ∧
      (¬ full → cell i = .unknown → Config.cutErased s.dev.fresh = false →
        goes (.opsecStore v) { s.dev.bump with log := { l with opPos := l.opPos + 1 } }) ∧
      (¬ full → (∃ w c, cell i = .data w c) → goes (.opsecStore v) { s.dev with log := { l with opPos := l.opPos + 1 } }) ∧
      (full → l.opBlk = 992 ∨ l.opBlk = 993 →
        let b := 1985 - l.opBlk
        ∃ d : Dev, goes (.opsecStore v) d ∧ d.nvCell (b * 4096) = left ∧ d.log.opBlk = b ∧
          d.log.opPos = 1 ∧ d.eng = s.dev.eng ∧
          (∀ j, j / 4096 = b → j ≠ b * 4096 → d.nvCell j = .erased) ∧ ∀ j, j / 4096 ≠ b → d.nvCell j = cell j))

/-- The event recorder and its freezes. -/
def Obligations.RecorderAndFreezes : Prop :=
  Sys2Proof.Stated.Freezes ∧ Sys2Proof.Stated.RecordTurns ∧ Sys2Proof.Stated.Recorder

/-! ## Self-test, repair and life cycle (20_self_test.md, 21_life_cycle.md) -/

/-- R432 to R436, R438 to R441, Tables 20-1 to 20-4: BST_RUN answers the first check that fails, and else queues its test. The oldest
test that does not run starts once its power and its save fit: an analogue test of a quad also waits for its engines, and a PADLB holds
E low; a LOOP in OM7 has every TPLL lock again; a logic or memory test whose drain fails, or whose domain refuses, ends REFUSED, and else saves into SRAM and the overflow area,
and its quad goes safe or its region into hold. A test that an abort or a yield wants stops at its next checkpoint. -/
def Sys2Proof.Stated.SelfTests : Prop :=
  ∀ (s : State),
    let b := s.dev.bst
    let goes (i : Instr) (d : Dev) : Prop := exec i s = .next { s with dev := d }
    let testIs (n : Nat) (f : BstTest → BstTest) : BstState := { b with tests := b.tests.map fun x => if x.domain = n then f x else x }
    (∀ (c : Tci) (o : Owner) (d0 : Dev), s.Accepts 0x90 c o d0 →
      let cls := fld (c.w 1) 8 2
      let n := fld (c.w 1) 0 6
      let mask : BitVec 8 := BitVec.ofNat 8 (c.w 2).toNat
      let bad : Prop := 2 < cls ∨ 39 < n ∨ c.w 2 = 0 ∨ (c.w 2).toNat &&& bstTests n cls ≠ (c.w 2).toNat ∨
        100 * b.budget < bstPower n cls mask
      let taken : Prop := (∃ t ∈ b.tests, t.domain = n) ∨ 16 ≤ b.tests.length
      let off : Prop := cls ≠ 0 ∧ s.dev.domOn n = false
      let moves : Prop := cls ≠ 0 ∧ s.dev.wouldRefuse n = true ∨ cls = 0 ∧ bstKind n = 1 ∧ s.dev.quadHalted n = false
      let rest := bstSave n cls - 524288
      (bad → goes (.bstRun c) (d0.answer o .badOperand)) ∧
      (¬ bad → taken → goes (.bstRun c) (d0.answer o .busy)) ∧
      (¬ bad → ¬ taken → off → goes (.bstRun c) (d0.answer o .fenced)) ∧
      (¬ bad → ¬ taken → ¬ off → moves → goes (.bstRun c) (d0.answer o .busy)) ∧
      (¬ bad → ¬ taken → ¬ off → ¬ moves →
        (rest ≠ 0 → s.dev.domOn pdVmi = false → goes (.bstRun c) (d0.answer o .fenced)) ∧
        (rest ≠ 0 → s.dev.domOn pdVmi = true → b.ovfMib.toNat * 2 ^ 20 < rest → goes (.bstRun c) (d0.answer o .errLenExceeds)) ∧
        (rest = 0 ∨ s.dev.domOn pdVmi = true ∧ rest ≤ b.ovfMib.toNat * 2 ^ 20 →
          goes (.bstRun c) { d0 with bst := { b with tests := b.tests ++ [{ domain := n, cls := cls, mask := mask, owner := o }] } }))) ∧
    (s.dev.live = true → ∀ f,
      let nothing : Prop := goes (.bstStart f) (s.dev.inject s.otp)
      ((∀ t ∈ b.tests, t.running = true) → nothing) ∧
      ∀ (l r : List BstTest) (t : BstTest), b.tests = l ++ t :: r → (∀ x ∈ l, x.running = true) → t.running = false →
        let n := t.domain
        let save := bstSave n t.cls
        let free := 524288 - ((b.tests.filter (·.running)).map (·.sram)).foldl (· + ·) 0
        let rest := save - min save free
        let room : Prop := s.dev.bstUsed + bstPower n t.cls t.mask ≤ 100 * b.budget ∧ (rest = 0 ∨
          (∀ x ∈ b.tests, x.ovf = 0) ∧ rest ≤ b.ovfMib.toNat * 2 ^ 20 ∧ s.dev.domOn pdVmi = true ∧ s.dev.tested pdVmi = false ∧ n ≠ pdVmi)
        let runs : Dev := { s.dev with bst := testIs n fun x => { x with running := true } }
        let ends (d : Dev) : Prop := goes (.bstStart f) ((d.endTest t .refused 3 false 0).inject s.otp)
        let may : Prop := s.dev.domOn n = true ∧ (s.dev.domain n).closed = false ∧ s.dev.wouldRefuse n = false
        (¬ room → nothing) ∧
        (room → t.cls = 0 →
          (bstKind n = 1 → s.dev.quadHalted n = false → nothing) ∧
          (bstKind n = 1 → s.dev.quadHalted n = true → bit t.mask 0 = true → goes (.bstStart f) ((runs.padlb n).inject s.otp)) ∧
          (bstKind n = 7 → s.dev.mode.mode = 7 →
            goes (.bstStart f) (((((runs.relock 0).relock 1).relock 2).relock 3).inject s.otp)) ∧
          (bstKind n = 7 → s.dev.mode.mode ≠ 7 → goes (.bstStart f) (runs.inject s.otp)) ∧
          (bstKind n ≠ 1 ∧ bstKind n ≠ 7 ∨ bstKind n = 1 ∧ s.dev.quadHalted n = true ∧ bit t.mask 0 = false →
            goes (.bstStart f) (runs.inject s.otp))) ∧
        (room → t.cls ≠ 0 → f = true → ends { s.dev with noc := { s.dev.noc with drainFail := true } }) ∧
        (room → t.cls ≠ 0 → f = false → ¬ may → ends s.dev) ∧
        (room → t.cls ≠ 0 → f = false → may →
          let d : Dev := { s.dev with bst := testIs n fun x => { x with running := true, sram := min save free, ovf := rest } }
          let d := d.overflowSave rest
          let d : Dev := if t.cls = 2 then { d with bst := { d.bst with mfail := [], movf := false } } else d
          (bstKind n = 1 → goes (.bstStart f)
            ((d.channelsSafe ((List.range 4).map (4 * (n - 2) + ·)) (64 * d.now : Nat)).inject s.otp)) ∧
          (bstKind n = 2 → (d.fabRegion (n - 18)).hold = false → goes (.bstStart f)
            (((d.updFabRegion (n - 18) fun r => { r with held := r.rctl }).applyPolicies (n - 18)).inject s.otp)) ∧
          (bstKind n ≠ 1 → bstKind n ≠ 2 ∨ (d.fabRegion (n - 18)).hold = true → goes (.bstStart f) (d.inject s.otp)))) ∧
    (s.dev.live = true → ∀ k : Fin 40,
      let stop (t : BstTest) : BstTest :=
        if t.running && t.stopped.isNone && (t.wantAbort || t.wantYield) then { t with stopped := some (!t.wantAbort) } else t
      goes (.bstCheckpoint k) (Dev.inject s.otp { s.dev with bst := testIs k stop }))

/-- R432, R440, R441, Table 20-8: the end of a test keeps its verdict, coverage and duration, raises its event, answers BST_RUN and every
BST_ABORT that waits, and puts a quad under PADLB back into its safe state; it frees the domain. BST_END of a test that stopped at a
checkpoint, or of a PADLB that SAFE_N cut, is ABORTED; a LOOP that saw a lock loss, or in OM7 ends with a TPLL not locked, fails; a memory test keeps its first 64 failing cells. -/
def Sys2Proof.Stated.SelfTestEnds : Prop :=
  (∀ (d : Dev) (t : BstTest) (st : Status) (verdict : Nat) (y : Bool) (dur : Word),
    let n := t.domain
    let done : Prop := verdict = 1 ∨ verdict = 2
    let cov := if t.cls = 1 ∧ done then bstCov n t.mask else if (t.cls = 0 ∧ verdict = 1) ∨ (t.cls = 2 ∧ done) then 1000 else 0
    let r0 : Word := BitVec.ofNat 32 (2 ^ 30 * verdict + 2 ^ 28 * t.cls + (if y then 2 ^ 27 else 0) + 2 ^ 17 * cov + t.mask.toNat)
    let det := 64 * t.cls + n
    let b := { d.bst with tests := d.bst.tests.filter fun x => x.domain != n }
    let d1 : Dev := { d with bst := { b with
      res0 := Store.put (fun _ => 0) b.res0 n r0, res1 := Store.put (fun _ => 0) b.res1 n dur } }
    let d2 := if t.running = true ∧ t.cls = 0 ∧ bit t.mask 0 = true ∧ bstKind n = 1 then
      d1.channelsSafe ((List.range 4).map (4 * (n - 2) + ·)) (64 * d1.now : Nat) else d1
    let d3 := if verdict = 1 then d2.fire 232 (payload .ok 1 det) else if verdict = 2 then d2.fire 233 (payload .mediaError 1 det)
      else d2.fire 234 (payload .aborted (if y then 2 else 1) det)
    d.endTest t st verdict y dur = t.aborters.foldl (fun d o => d.answer o .ok) (d3.complete t.owner st r0 dur)) ∧
  ∀ (s : State) (k : Fin 40) (pass : Bool) (dur : Word) (cells : List (Word × BitVec 9)), s.dev.live = true →
    let b := s.dev.bst
    let i := Instr.bstEnd k pass dur cells
    let goes (d : Dev) : Prop := exec i s = .next { s with dev := d.inject s.otp }
    ((∀ t ∈ b.tests, t.domain = k.val → t.running = false) → goes s.dev) ∧
    ∀ t, b.tests.find? (fun t => t.domain == k.val && t.running) = some t →
      let found := (cells.take 64).map fun x => s.dev.mfailEntry s.otp k x.1 x.2
      let d : Dev := if t.cls = 2 then { s.dev with bst := { b with mfail := found, movf := decide (64 < cells.length) } } else s.dev
      let cut : Prop := t.cls = 0 ∧ bit t.mask 0 = true ∧ bstKind k = 1 ∧ t.cut = true
      let lost : Prop := t.cls = 0 ∧ bit t.mask 2 = true ∧ (t.lockLost = true ∨ s.dev.mode.mode = 7 ∧ s.dev.tpllsLocked = false)
      (∀ y, t.stopped = some y → goes (d.endTest t .aborted 3 y dur)) ∧
      (t.stopped = none → cut → goes (d.endTest t .aborted 3 false dur)) ∧
      (t.stopped = none → ¬ cut → pass = true → ¬ lost → goes (d.endTest t .ok 1 false dur)) ∧
      (t.stopped = none → ¬ cut → pass = false ∨ lost → goes (d.endTest t .mediaError 2 false dur))

/-- R440, R442: BST_ABORT ends a waiting test, asks a running one to stop, and answers OK where there is none. BST_REPAIR answers the
first check that fails; else a soft repair is kept in the device and a fused one, whose verify passes, in the fuses, and what the
repaired row or column held reads zero until it is written. -/
def Sys2Proof.Stated.AbortsAndRepairs : Prop :=
  (∀ (s : State) (c : Tci) (o : Owner) (d0 : Dev),
    let b := s.dev.bst
    let n := fld (c.w 1) 0 6
    let goes (i : Instr) (o' : Otp) (d : Dev) : Prop := exec i s = .next { s with otp := o', dev := d }
    (s.Accepts 0x91 c o d0 →
      ((∀ t ∈ b.tests, t.domain ≠ n) → goes (.bstAbort c) s.otp (d0.answer o .ok)) ∧
      (∀ t, b.tests.find? (fun t => t.domain == n) = some t →
        (t.running = true → goes (.bstAbort c) s.otp { d0 with bst := { b with tests := b.tests.map fun x =>
          if x.domain = n then { x with wantAbort := true, aborters := x.aborters ++ [o] } else x } }) ∧
        (t.running = false → goes (.bstAbort c) s.otp ((d0.endTest t .aborted 3 false 0).answer o .ok)))) ∧
    (s.Accepts 0x92 c o d0 → ∀ v,
      let fuse := bit (c.w 1) 31
      let w2 := c.w 2
      let w3 := c.w 3
      let a := fld w2 24 7
      let last := if bit w2 31 then Config.lastCol n a else Config.lastRow n a
      let bad : Prop := bstArrays n ≤ a ∨ last < fld w2 0 20 ∨ fld w2 20 4 ≠ 0 ∨ fld w3 1 31 ≠ 0
      let tested : Prop := ∃ t ∈ b.tests, t.running = true ∧ t.domain = n
      let used : Prop := s.dev.spareUsed s.otp n w2 w3 = true
      let full : Prop := fuse = true ∧ 256 ≤ s.otp.fuses.length
      let fails (st : Status) : Prop := goes (.bstRepair c v) s.otp (d0.answer o st)
      (bad → fails .badOperand) ∧ (¬ bad → tested → fails .selfTestActive) ∧ (¬ bad → ¬ tested → used → fails .refused) ∧
      (¬ bad → ¬ tested → ¬ used → full → fails .errLenExceeds) ∧
      (¬ bad → ¬ tested → ¬ used → ¬ full → fuse = true → v = .failed → fails .mediaError) ∧
      (¬ bad → ¬ tested → ¬ used → ¬ full → fuse = true → v ≠ .failed →
        goes (.bstRepair c v) { s.otp with fuses := s.otp.fuses ++ [(n, w2, w3)] }
          (((d0.applyRepair n w2 w3).fire 235 (payload .ok 2 n)).answer o .ok)) ∧
      (¬ bad → ¬ tested → ¬ used → fuse = false →
        let d : Dev := { d0 with bst := { b with soft := b.soft ++ [(n, w2, w3)] } }
        goes (.bstRepair c v) s.otp (((d.applyRepair n w2 w3).fire 235 (payload .ok 1 n)).answer o .ok)))) ∧
  ∀ (d : Dev) (n : Nat) (w2 w3 : Word),
    let a := fld w2 24 7
    let d' := d.applyRepair n w2 w3
    let left (i v : Nat) : Nat := (BitVec.ofNat 128 v &&& ~~~(Config.repairMask w2 w3 i)).toNat
    let k := 4 * (n - 2) + a % 4
    let x := d.channel k
    let at_ {w : Nat} (m : Store (BitVec w)) (i : Nat) : BitVec w := Store.get (fun _ => 0) m i
    (bstKind n = 0 ∨ 4 < bstKind n → d' = d) ∧
    (bstKind n = 4 → ∃ p b, d' = { d with nvs := { d.nvs with prefetch := p, branch := b } } ∧
      ∀ x ∈ [(0, d.nvs.prefetch, p), (4, d.nvs.branch, b)], x.2.2.length = x.2.1.length ∧
        ∀ i l, x.2.1[i]? = some l → ∃ l', x.2.2[i]? = some l' ∧ l'.line = l.line ∧ l'.words.length = l.words.length ∧
          ∀ k v c, l.words[k]? = some (v, c) → l'.words[k]? = some (BitVec.ofNat 128 (left (2 * (x.1 + i) + k) v.toNat), c)) ∧
    (bstKind n = 1 → (∀ j, j ≠ k → d'.engine j = d.engine j ∧ d'.channel j = d.channel j) ∧
      (a < 4 → ∃ m, d'.engine k = { d.engine k with mem := m } ∧
        ∀ i, at_ m i = if i < 8192 then BitVec.ofNat 64 (left i (at_ (d.engine k).mem i).toNat) else at_ (d.engine k).mem i) ∧
      (4 ≤ a → a < 8 → ∃ l, d'.engine k = { d.engine k with fifo := l } ∧ l.length = (d.engine k).fifo.length ∧
        ∀ i, i < l.length → l.getD i 0 = BitVec.ofNat 4 (left i ((d.engine k).fifo.getD i 0).toNat)) ∧
      (8 ≤ a → ∃ act shd, d'.channel k = { x with act := act, shd := shd } ∧ d'.eng = d.eng ∧ ∀ i : Fin 64,
        Store.get tsReset act i = BitVec.ofNat 128 (left i (x.active i).toNat) ∧
        Store.get tsReset shd i = BitVec.ofNat 128 (left (64 + i) (x.shadow i).toNat))) ∧
    (bstKind n = 2 → ∃ m, d' = { d with fab := { d.fab with mem := m } } ∧ ∀ i,
      let base := 4096 * (24 * (n - 18) + a)
      at_ m i = if base ≤ i ∧ i < base + 4096 then BitVec.ofNat 9 (left (i - base) (at_ d.fab.mem i).toNat) else at_ d.fab.mem i) ∧
    (bstKind n = 3 → a < 32 → Store.wf (fun _ => 0) d.fcp.fat = true → ∃ m, d' = { d with fcp := { d.fcp with fat := m } } ∧
      ∀ i, at_ m i = if i / 2 % 32 = a then BitVec.ofNat 120 (left i (at_ d.fcp.fat i).toNat) else at_ d.fcp.fat i) ∧
    (bstKind n = 3 → a = 32 → Store.wf (fun _ => 0) d.rae.desc = true → ∃ m, d' = { d with rae := { d.rae with desc := m } } ∧
      ∀ i, at_ m i = BitVec.ofNat 128 (left i (at_ d.rae.desc i).toNat)) ∧
    (bstKind n = 3 → 32 < a → ∃ l, d' = d.updCollector (a - 33) (fun x => { x with fifo := l }) ∧
      l.length = (d.collector (a - 33)).fifo.length ∧ ∀ i e r v,
        ((d.collector (a - 33)).fifo[i]? = some (FcEntry.entry e r v) →
          l[i]? = some (FcEntry.entry (BitVec.ofNat 120 (left i e.toNat)) r v)))

/-- Self-tests, aborts and repairs. -/
def Obligations.SelfTestAndRepair : Prop :=
  Sys2Proof.Stated.SelfTests ∧ Sys2Proof.Stated.SelfTestEnds ∧ Sys2Proof.Stated.AbortsAndRepairs

/-- R447, R448, R449, R451, R452: LCY_QUERY answers the state. A transition whose checks and token pass leaves a complete record,
the device in OM0 with its contents wiped; one that fails a check changes nothing, and a wrong token costs an attempt. One that is
cut before step 5 leaves the state, and after it the target. LCYACC does the same outside a queue. -/
def Obligations.LifeCycle : Prop :=
  ∀ (s : State) (upto : Fin 8),
    let rec_ (tgt : Nat) : TransRec := { origin := s.otp.state, target := tgt, intent := true, wiped := true, written := true, cleared := true }
    let after (tgt : Nat) (o' : Otp) (d : Dev) : Prop := o'.recs = s.otp.recs ++ [rec_ tgt] ∧ o'.state = tgt ∧
      o'.digest = s.otp.digest ∧ o'.fuses = s.otp.fuses ∧ o'.kill = (s.otp.kill || tgt == 5) ∧
      (∀ k, Store.get (fun _ => 0) o'.diagUsed k =
        Store.get (fun _ => 0) s.otp.diagUsed k + if isDiag tgt = true ∧ k = tgt - 8 then 1 else 0) ∧
      d.mode.mode = 0 ∧ d.cfg.plane = [] ∧ d.vmi.mem = [] ∧ d.eng = {} ∧ d.lcy.busy = false ∧ d.lcy.lstatus = .ok
    (∀ (c : Tci) (o : Owner) (d0 : Dev), s.Accepts 0xB0 c o d0 →
      exec (.lcyQuery c) s = .next { s with dev := d0.complete o .ok (lcyStat s.otp d0) (lcyFuse s.otp) }) ∧
    (∀ (c : Tci) (o : Owner) (d0 : Dev), s.Accepts 0xB1 c o d0 →
      let tgt := fld (c.w 1) 0 4
      let token : QWord := BitVec.ofNat 128 ((c.w64 2).toNat + (c.w64 4).toNat * 2 ^ 64)
      let st := lcyChecks s.otp d0 tgt
      let opens := tokenOk s.otp d0 tgt token
      (st ≠ .ok → exec (.lcyTransition c upto) s =
        .next { s with dev := Dev.answer { d0 with lcy := { d0.lcy with lstatus := st } } o st }) ∧
      (st = .ok → opens = false →
        let n := s.dev.lcy.attempts - 1
        let d := Dev.fire { d0 with lcy := { d0.lcy with attempts := n } } 245 (payload .tokenInvalid 1 n)
        exec (.lcyTransition c upto) s =
          .next { s with dev := Dev.answer { d with lcy := { d.lcy with lstatus := .tokenInvalid } } o .tokenInvalid }) ∧
      (st = .ok → opens = true → upto = 7 → ∃ (o' : Otp) (d : Dev), after tgt o' d ∧
        exec (.lcyTransition c upto) s = .next { s with otp := o', dev := d.complete o .ok (lcyStat o' d) (lcyFuse o') }) ∧
      (st = .ok → opens = true → upto.val < 7 → ∃ (o' : Otp) (d : Dev),
        exec (.lcyTransition c upto) s = .next { s with otp := o', dev := d } ∧ d.lcy.busy = true ∧
        o'.state = if upto.val < 5 then s.otp.state else tgt)) ∧
    (∀ (tgt : BitVec 4) (token : QWord), s.otp.jtagOpen = true → s.dev.live = true →
      let d1 := s.dev.setIr 0x21
      let d1 : Dev := { d1 with tap := { d1.tap with lcyCap := lcyStat s.otp d1 } }
      let st := lcyChecks s.otp d1 tgt.toNat
      let tells (x : Status) : Prop := exec (.lcyacc tgt token upto) s = .next { s with dev := { d1 with tap := { d1.tap with lcy := x } } }
      (d1.lcy.busy = true → tells .busy) ∧
      (d1.lcy.busy = false → d1.mode.mode ≠ 7 → tells .modeDenied) ∧
      (d1.lcy.busy = false → d1.mode.mode = 7 → st ≠ .ok → ∃ d : Dev, exec (.lcyacc tgt token upto) s = .next { s with dev := d } ∧
        d.tap.lcy = st ∧ d.lcy.lstatus = st ∧ d.eng = s.dev.eng) ∧
      (d1.lcy.busy = false → d1.mode.mode = 7 → st = .ok → tokenOk s.otp d1 tgt.toNat token = true → upto = 7 →
        ∃ (o' : Otp) (d : Dev), after tgt.toNat o' d ∧ d.tap.lcy = .ok ∧ d.tap.ir = 0x21 ∧
          exec (.lcyacc tgt token upto) s = .next { s with otp := o', dev := d }))
/-! ## Rules stated whole -/

/-- The way of an access of host software to a block (R24, Table 1-5). -/
def Sys2Proof.Stated.wayTo (d : Dev) (b : Machine.Block) : List Hop × Option Nat := d.way (6 * b.router.2 + b.router.1) 12 0 0

/-- The packet of a read (CMD 0) or a write (CMD 2) of the word at BAR0 offset `off`, as a request of SRC 0 (R24). -/
def Sys2Proof.Stated.hostWord (cmd off : Nat) (w : Word) : Packet :=
  let p : Packet := { len := 1, status := 0xFF, addr := BitVec.ofNat 48 off, be := BitVec.ofNat 16 (15 * 2 ^ (off % 16)) }
  { p with data := [if cmd = 0 then 0 else BitVec.ofNat 128 (w.toNat * 2 ^ (8 * (off % 16)))] }

/-- The device once that packet has crossed the mesh: every probe on its way has seen it (R354). -/
def Sys2Proof.Stated.crossed (d : Dev) (b : Machine.Block) (cmd off : Nat) (w : Word) : Dev :=
  d.observe (Sys2Proof.Stated.wayTo d b).1 cmd (if cmd = 0 then 0 else 1) (hostHeader (Sys2Proof.Stated.hostWord cmd off w))

/-- R22 at an offset of a block that its table does not list, where no route table holds the access up: a read returns zero, a write is
dropped, and both are counted and raise EV251; nothing but that changes, and what the probes see. -/
def Sys2Proof.Stated.unlisted (s : State) (b : Machine.Block) (o : Nat) : Prop :=
  ∀ (off : BitVec 30) (w : Word), off.toNat % 4 = 0 → blockOf off.toNat = some (b, o) → (Sys2Proof.Stated.wayTo s.dev b).2 = none →
    let kept (d : Dev) : Prop := d.noc = { s.dev.noc with unmap := satAdd 0xFFFFFFFF s.dev.noc.unmap 1, lens := d.noc.lens } ∧
      ((s.dev.evtCfg 251).en = true → (d.evtLast 251).payload = payload .noRoute 1 0) ∧ d.evt.cap = s.dev.evt.cap ∧
      d = { s.dev with evt := d.evt, log := d.log, byt := d.byt, noc := d.noc, cmd := d.cmd, rdata := d.rdata }
    (∃ d : Dev, exec (.readClear { off := off }) s = .next { s with dev := d } ∧ kept d ∧ d.rdata = s.dev.rdata ++ [0]) ∧
    ∃ d : Dev, exec (.registerWrite { off := off, data := [w] }) s = .next { s with dev := d } ∧ kept d ∧ d.rdata = s.dev.rdata

/-- R456: offsets of LCY that Table 21-8 does not list behave as R22 states; LCY_QUERY returns LCY_STAT and LCY_FUSE. -/
def Obligations.LifeCycleRegisters : Prop :=
  (∀ (s : State) (o : Nat), s.dev.live = true → o ∉ [0, 4, 8] → Sys2Proof.Stated.unlisted s .lcy o) ∧
  ∀ (s : State) (c : Tci) (o : Owner) (d : Dev), s.Accepts 0xB0 c o d →
    exec (.lcyQuery c) s = .next { s with dev := d.complete o .ok (lcyStat s.otp d) (lcyFuse s.otp) }

/-- R20: a packet to DX or DY 6 or 7 that its initiator sends is answered with NO_ROUTE, and nothing is written. -/
def Obligations.NoRouteAnswers : Prop :=
  ∀ (s : State) (p : Packet), s.dev.live = true → 5 < p.dx.toNat ∨ 5 < p.dy.toNat → p.src ≠ 7 → p.src.toNat < 44 →
    s.dev.tagSt (tagKey p) = .free → (40 ≤ p.src.toNat → s.dev.portShut (p.src.toNat - 40) = false) →
    (∀ n, srcDomain p.src.toNat = some n → s.dev.domOn n = true ∧ (s.dev.domain n).closed = false ∧ s.dev.tested n = false) →
    let kept (d : Dev) : Prop := d = { s.dev with evt := d.evt, log := d.log, byt := d.byt, noc := d.noc, cmd := d.cmd } ∧
      d.cmd.hostMem = s.dev.cmd.hostMem ∧ d.cmd.queues = s.dev.cmd.queues ∧ d.noc.act = s.dev.noc.act ∧ d.noc.shd = s.dev.noc.shd
    let answered (i : Instr) : Prop := ∃ d r, exec i s = .next { s with dev := d } ∧ d.noc.sent = s.dev.noc.sent ++ [r] ∧
      r.src = p.src ∧ r.tag = p.tag ∧ r.status.toNat = Status.noRoute.code ∧ r.data = [] ∧ kept d
    answered (.read p) ∧ answered (.write p) ∧ answered (.atomicOr p) ∧ answered (.atomicAdd p) ∧ answered (.atomicSwap p) ∧
      answered (.atomicCas p) ∧ answered (.flush p) ∧ ∃ d, exec (.writePosted p) s = .next { s with dev := d } ∧ kept d

/-- R477: offsets of PTR that Table 22-6 does not list behave as R22 states; a GO write to PTR_HDCTL while BUSY is 1, or with INDEX
above 63, is dropped and sets PTR_STAT.WERR. -/
def Obligations.PartnerRegisters : Prop :=
  ∀ (s : State), s.dev.live = true →
    let listed (o : Nat) : Prop := o % 4 = 0 ∧ (o ≤ 8 ∨ o = 0x10 ∨ 0x400 ≤ o ∧ o < 0xA40)
    (∀ o, ¬ listed o → Sys2Proof.Stated.unlisted s .ptr o) ∧
    ∀ w : Word, bit w 31 = true → s.dev.ptr.hdBusy = true ∨ 63 < fld w 0 8 →
      let dropped (d : Dev) : State := { s with dev := { d with ptr := { d.ptr with werr := true } } }
      exec (.ptrHdctlGo w) s = .next (dropped s.dev) ∧
      ((Sys2Proof.Stated.wayTo s.dev .ptr).2 = none →
        exec (.registerWrite { off := 0xC0010, data := [w] }) s = .next (dropped (Sys2Proof.Stated.crossed s.dev .ptr 2 0xC0010 w)))

/-- R430: offsets of EVT that Table 19-8 does not list behave as R22 states; a read of EVT_LAST_PAY(n) captures the other three words
of EVT_LAST(n), which return what was captured until the next such read. -/
def Obligations.EventLastWords : Prop :=
  ∀ (s : State), s.dev.live = true →
    let listed (o : Nat) : Prop := o % 4 = 0 ∧ (o ≤ 0x420 ∨ 0x1000 ≤ o ∧ o < 0x2000)
    (∀ o, ¬ listed o → Sys2Proof.Stated.unlisted s .evt o) ∧
    ∀ n : Fin 256,
      let l := s.dev.evtLast n
      let words (d : Dev) : List (Option Word) := [4, 8, 12].map fun r => regVal s.otp d .evt (0x1000 + 16 * n.val + r)
      ∃ d : Dev, exec (.evtLastPayRead n) s = .next { s with dev := d } ∧ d.rdata = s.dev.rdata ++ [l.payload] ∧
        words d = [some l.stamp.lo, some l.stamp.hi, some (word (l.stamp.frac.toNat * 65536 + l.count))] ∧
        (∀ m p st, words (d.fireAt m p st) = words d) ∧
        ∀ r ∈ [4, 8, 12], ∀ m : Fin 256, words (readEffect .evt (0x1000 + 16 * m.val + r) d) = words d
/-! ## Registers (01_architecture.md and the register maps of the chapters) -/

/-- R6, R19, R22, R23, R24, R284, R348, R350, R351, R354, R432, R436: a read or a write of a whole word of BAR0 crosses the mesh as a
packet of SRC 0, and every probe on its way sees it. A NONE entry answers it with NO_ROUTE; it waits for a domain under test, and a closed
edge answers all ones to a read and counts a write. Else a read returns the register's value and does what a read of that register does,
a write does what a write does, and an offset that is not decoded reads zero, drops writes and is counted; the answer to a read crosses
the mesh back. A fabric window takes it into its buffer, a read with a tag, or answers BUSY while its region takes nothing. -/
def Sys2Proof.Stated.HostWords : Prop :=
  ∀ (s : State) (off : BitVec 30) (w : Word) (b : Machine.Block) (o : Nat), s.dev.live = true → off.toNat % 4 = 0 →
    blockOf off.toNat = some (b, o) →
    let reads (d : Dev) : Prop := exec (.readClear { off := off }) s = .next { s with dev := d }
    let writes (d : Dev) : Prop := exec (.registerWrite { off := off, data := [w] }) s = .next { s with dev := d }
    let way := Sys2Proof.Stated.wayTo s.dev b
    let r := Sys2Proof.Stated.hostWord 0 off.toNat 0
    let x := Sys2Proof.Stated.hostWord 2 off.toNat w
    let dr := Sys2Proof.Stated.crossed s.dev b 0 off.toNat 0
    let dw := Sys2Proof.Stated.crossed s.dev b 2 off.toNat w
    let failed (d : Dev) (st : Status) : Dev :=
      let d := d.hostBack r st []
      d.bump.returned [Config.errRead d.fresh]
    let gives (d : Dev) (v : Word) : Dev :=
      (d.hostBack r .ok [BitVec.ofNat 128 (2 ^ (32 * (off.toNat / 4 % 4)) * v.toNat)]).returned [v]
    let tag := (List.range 1024).find? fun t => decide (dr.tagSt t = .free)
    (∀ k, way.2 = some k →
      reads (failed (dr.fire 194 (payload .noRoute 1 k)) .noRoute) ∧
      writes ((dw.fire 194 (payload .noRoute 1 k)).postFailed .noRoute 0)) ∧
    (∀ n, way.2 = none → b.domain = some n →
      (s.dev.tested n = true → writes (dw.holdRequest n 2 x) ∧
        (tag = none → reads (dr.holdRequest n 0 r)) ∧
        ∀ t, tag = some t → reads ((dr.setTag t .outstanding).holdRequest n 0 { r with tag := BitVec.ofNat 10 t })) ∧
      (s.dev.tested n = false → (s.dev.domain n).closed = true →
        reads (((dr.hostBack r .fenced []).hostReadFenced n).returned [0xFFFFFFFF]) ∧ writes (dw.hostWriteFenced n))) ∧
    (way.2 = none → (∀ n, b.domain = some n → s.dev.tested n = false ∧ (s.dev.domain n).closed = false) →
      ((∀ p, b ≠ .fab p) →
        (∀ v, regVal s.otp dr b o = some v → reads (gives (readEffect b o dr) v)) ∧
        (regVal s.otp dr b o = none → reads (gives dr.undecoded 0)) ∧
        (dw.timBusy off.toNat = true → writes (dw.postFailed .busy 0)) ∧
        (dw.timBusy off.toNat = false → regVal s.otp dw b o ≠ none → writes (regWrite 0 b o w s.otp dw)) ∧
        (dw.timBusy off.toNat = false → regVal s.otp dw b o = none → writes dw.undecoded)) ∧
      (∀ p, b = .fab p →
        (s.dev.portShut p = true → reads (failed dr .busy) ∧ writes (dw.postFailed .busy 0)) ∧
        (s.dev.portShut p = false → writes (dw.deliverTo p 2 (hostHeader x)) ∧
          (tag = none → reads { dr with noc := { dr.noc with held := dr.noc.held ++ [(0, 0, r)] } }) ∧
          ∀ t, tag = some t →
            reads ((dr.setTag t .outstanding).deliverTo p 0 { hostHeader r with tag := BitVec.ofNat 10 t }))))

/-- R21 to R26, R61, R350, R354, R467, R468: an offset of BAR0 without a block, and an access of a shape that its space does not take, is
counted: a read gives zeros, a write is dropped. An aligned access of 64 bits acts as two of 32, lower address first, and a read of some
bytes of a word returns the word. A read of BAR2 in the FAT window reads units of the FAT, a write there is counted; one in the vector
window reads or writes the bytes of vector memory, and is answered as that memory's state asks. Both cross the mesh as their units. -/
def Sys2Proof.Stated.HostShapes : Prop :=
  ∀ (s : State) (a : Access), s.dev.live = true →
    let reads (d : Dev) : Prop := exec (.readClear a) s = .next { s with dev := d }
    let writes (d : Dev) : Prop := exec (.registerWrite a) s = .next { s with dev := d }
    let zeros : List Word := List.replicate ((a.size + 3) / 4) 0
    let off := a.off.toNat
    let whole : Prop := (a.size = 4 ∨ a.size = 8) ∧ off % a.size = 0 ∧ a.be = 2 ^ a.size - 1 ∧ off < 2 ^ 26
    let part : Prop := 1 ≤ a.size ∧ off % 4 + a.size ≤ 4 ∧ a.be % 2 ^ a.size ≠ 0 ∧ off < 2 ^ 26
    let burst : Prop := 4 ≤ a.size ∧ a.size ≤ 256 ∧ off % 256 + a.size ≤ 256
    let next : Access := { off := BitVec.ofNat 30 (off + 4), data := [a.data.getD 1 0] }
    (a.bar2 = false → ¬ whole →
      writes s.dev.undecoded ∧ (¬ part → reads (s.dev.undecoded.returned zeros)) ∧
      (part → exec (.readClear a) s = exec (.readClear { off := BitVec.ofNat 30 (off / 4 * 4) }) s)) ∧
    (a.bar2 = false → whole → a.size = 4 → exec (.readClear a) s = exec (.readClear { off := a.off }) s ∧
      exec (.registerWrite a) s = exec (.registerWrite { off := a.off, data := [a.data.headD 0] }) s) ∧
    (a.bar2 = false → whole → a.size = 8 →
      (∀ t, exec (.readClear { off := a.off }) s = .next t → t.dev.live = true →
        exec (.readClear a) s = exec (.readClear { off := next.off }) t) ∧
      ∀ t, exec (.registerWrite { off := a.off, data := [a.data.headD 0] }) s = .next t → t.dev.live = true →
        exec (.registerWrite a) s = exec (.registerWrite next) t) ∧
    (a.bar2 = true → ¬ burst ∨ 0x22000000 ≤ off → writes s.dev.undecoded ∧ reads (s.dev.undecoded.returned zeros)) ∧
    (a.bar2 = true → burst → off < 0x22000000 →
      let fat : Prop := off < 0x2000000
      let n := if off < 0x2000000 then pdFat else pdVmi
      let addr := if off < 0x2000000 then off else s.dev.vmi.wpage.toNat * 0x20000000 + (off - 0x2000000)
      let p := hostPacket (if off < 0x2000000 then 0xFD else 0xFE) addr 0xFFFF 0
      let q (v : Word) : List Word := List.replicate ((a.size + 3) / 4) v
      let lost (d : Dev) : Dev := d.bump.returned (q (Config.errRead d.fresh))
      let read (st : Status) (f : Dev → Dev) : Dev := s.dev.hostCross 0 p lost fun d => f (d.hostBack p st [])
      let write (f : Dev → Dev) : Dev := s.dev.hostCross 2 p (fun d => d.postFailed .noRoute 0) f
      let st := s.dev.vmiStatus addr a.size
      let fenced : Prop := s.dev.tested n = false ∧ ((s.dev.domain n).closed = true ∨ ¬ fat ∧ st = .fenced)
      let answers : Prop := s.dev.tested n = false ∧ (s.dev.domain n).closed = false ∧ ¬ fat
      let go : Prop := s.dev.tested n = true ∨ ((s.dev.domain n).closed = false ∧ (fat ∨ st = .ok))
      (fat → writes (s.dev.hostSend 2 p s.otp)) ∧
      (fenced → reads (read .fenced fun d => (d.hostReadFenced n).returned (q 0xFFFFFFFF))) ∧
      (fenced → ¬ fat → writes (write fun d => d.hostWriteFenced n)) ∧
      (answers → st = .noRoute → reads (read .noRoute fun d => (d.vmiErr .noRoute).returned (q 0xFFFFFFFF)) ∧
        writes (write fun d => d.vmiErr .noRoute)) ∧
      (answers → st = .mediaError → reads (read .mediaError fun d => lost (d.vmiErr .mediaError)) ∧
        writes (write fun d => (d.vmiErr .mediaError).postFailed .mediaError 0)) ∧
      (go → reads (s.dev.bar2Units a 0 s.otp)) ∧ (go → ¬ fat → writes (s.dev.bar2Units a 2 s.otp)))

/-- R24 to R26, R61, R180, R350, R436, R467, R468: one unit of an access of host software crosses the mesh to the router of its address,
meets the edge of its target, and there reads or writes the 16 bytes of vector memory of which bytes are enabled, or reads an entry of the
FAT, whose writes are counted as undecoded. -/
def Sys2Proof.Stated.HostUnits : Prop :=
  ∀ (d : Dev) (cmd a : Nat) (be : BitVec 16) (v : QWord) (otp : Otp), cmd = 0 ∨ cmd = 2 → a < 2 ^ 48 →
    let unit (space : BitVec 8) : Packet := { len := 1, status := space, addr := BitVec.ofNat 48 a, be := be, data := [v] }
    let at_ := a / 16 * 16
    let st := d.vmiStatus at_ 16
    let lanes (w : Word) : List Word := ((List.range 4).filter fun i => fld be (4 * i) 4 != 0).map fun _ => w
    let failed (p : Packet) (d : Dev) (st : Status) : Dev :=
      let e := d.hostBack p st []
      if cmd = 0 then e.bump.returned (lanes (Config.errRead e.fresh)) else d.postFailed st 0
    let fenced (p : Packet) (d : Dev) (n : Nat) : Dev :=
      if cmd = 0 then ((d.hostBack p .fenced []).hostReadFenced n).returned (lanes 0xFFFFFFFF) else d.hostWriteFenced n
    (let p := unit 0xFE
     let r := 6 * 5 + (1 + a / 256 % 4)
     let w := d.way r 12 0 0
     let d1 := d.observe w.1 cmd (if cmd = 0 then 0 else 1) (hostHeader p)
     (∀ k, w.2 = some k → d.hostSend cmd p otp = failed p (d1.fire 194 (payload .noRoute 1 k)) .noRoute) ∧
     (w.2 = none → d.tested pdVmi = false → d1.streamFirst = false →
       (d.domain pdVmi).closed = false → d.hostSend cmd p otp = d1.hostServe cmd p otp) ∧
     (w.2 = none → d.tested pdVmi = false → d1.streamFirst = false →
       (d.domain pdVmi).closed = true → d.hostSend cmd p otp = fenced p d1 pdVmi) ∧
     (w.2 = none → d.tested pdVmi = true → d.hostSend cmd p otp = d1.hostHold pdVmi cmd p) ∧
     (w.2 = none → d.tested pdVmi = false → d1.streamFirst = true → d.hostSend cmd p otp = d1.hostHold 42 cmd p) ∧
     (st = .fenced → d.hostServe cmd p otp = fenced p d pdVmi) ∧
     (st = .mediaError → d.hostServe cmd p otp = failed p (d.vmiErr .mediaError) .mediaError) ∧
     (st = .noRoute → d.hostServe cmd p otp =
       if cmd = 0 then (d.vmiErr .noRoute).hostAnswer p (BitVec.allOnes 128) else d.vmiErr .noRoute) ∧
     (st = .ok → cmd = 0 → d.hostServe cmd p otp = d.hostAnswer p (rd128 d.vmi.mem at_)) ∧
     (st = .ok → cmd = 2 → ∃ m, d.hostServe cmd p otp = { d with vmi := { d.vmi with mem := m } } ∧
       ∀ i, rd8 m i = if at_ ≤ i ∧ i < at_ + 16 ∧ bit be (i - at_) = true then BitVec.ofNat 8 (fld v (8 * (i - at_)) 8)
         else rd8 d.vmi.mem i)) ∧
    (let p := unit 0xFD
     let r := 6 * (fatRouter a).2 + (fatRouter a).1
     let w := d.way r 12 0 0
     let d1 := d.observe w.1 cmd (if cmd = 0 then 0 else 1) (hostHeader p)
     (∀ k, w.2 = some k → d.hostSend cmd p otp = failed p (d1.fire 194 (payload .noRoute 1 k)) .noRoute) ∧
     (w.2 = none → d.tested pdFat = true → d.hostSend cmd p otp = d1.hostHold pdFat cmd p) ∧
     (w.2 = none → d.tested pdFat = false → (d.domain pdFat).closed = true → d.hostSend cmd p otp = fenced p d1 pdFat) ∧
     (w.2 = none → d.tested pdFat = false → (d.domain pdFat).closed = false → d.hostSend cmd p otp =
       if cmd = 0 then (d1.fatReadEffect (a / 16)).hostAnswer p (d1.fatRead128 (a / 16)) else d1.undecoded))

/-- R19, R24, R436, R432, R351: a write of a register in a power domain, told as it reaches its block, waits while the domain is under
test, and is counted as fenced where its edge is closed; one of a timing register is refused with BUSY under PADLB and TDCREF. -/
def Sys2Proof.Stated.EdgeWrites : Prop :=
  ∀ (s : State) (n : Fin 64) (v : Word), s.dev.live = true →
    let eng := 0x200000 + 0x1000 * n.val
    let tim := 0x300000 + 0x1000 * n.val
    let edge (i : Instr) (dom off : Nat) (v : Word) : Prop :=
      (s.dev.tested dom = true → exec i s = .next { s with dev := s.dev.holdRequest dom 2 (Sys2Proof.Stated.hostWord 2 off v) }) ∧
      (s.dev.tested dom = false → (s.dev.domain dom).closed = true → exec i s = .next { s with dev := s.dev.hostWriteFenced dom })
    let timEdge (i : Instr) (off : Nat) : Prop := edge i (pdEq n) (tim + off) v ∧
      (s.Writable (pdEq n) → s.dev.quadTest n = true → exec i s = .next { s with dev := s.dev.postFailed .busy 0 })
    (∀ (i : Fin 8192) (hi : Bool), edge (.epmWrite n i hi v) (pdEq n) (0x400000 + 0x10000 * n + 8 * i + if hi then 4 else 0) v) ∧
    edge (.svalidWrite n v) (pdEq n) (eng + 0x20) v ∧ edge (.engHaltWrite n v) (pdEq n) (eng + 4) v ∧
    (∀ off : Fin 4096, edge (.engStateWrite n off v) (pdEq n) (eng + off) v) ∧
    (∀ m : Fin 16, edge (.pinmapWrite n m v) (pdEq n) (eng + 0x100 + 4 * m) v) ∧
    (∀ k : Fin 4, edge (.scrambleMaskWrite n k v) (pdEq n) (eng + 0x140 + 4 * k) v) ∧
    (∀ (k : Fin 64) (j : Fin 4), timEdge (.timShadowWrite n k j v) (0x800 + 16 * k + 4 * j)) ∧
    timEdge (.timTschkWrite n v) 0x18 ∧ (∀ hi : Bool, timEdge (.timSwapWrite n hi v) (0x10 + if hi then 4 else 0)) ∧
    timEdge (.timChcfgWrite n v) 0 ∧
    (∀ (g : Fin 256) (k : Fin 32), edge (.bytGroupWrite g k v) pdBy (0x54000 + 128 * g + 4 * k) v) ∧
    edge (.vmiCfgTrain v) pdVmi 0xD0004 (setBit v 31) ∧ edge (.vmiCfgWrite v) pdVmi 0xD0004 v ∧
    edge (.vmiWpageWrite v) pdVmi 0xD0040 v ∧ edge (.fcpRptrWrite v) pdFat 0x100008 v ∧
    (∀ r : Fin 3, edge (.raeRingWrite r v) pdFat (0x110008 + 4 * r) v) ∧ edge (.raeRtailWrite v) pdFat 0x110018 v ∧
    edge (.raeCtlWrite v) pdFat 0x110000 v

/-- R56, R70, R100, R238: the read of the low half of a stamp returns it and captures the rest, from the same moment; R6: a counter
that clears by a read is zero after it. (No NONE entry stands in the way.) -/
def Sys2Proof.Stated.Captures : Prop :=
  ∀ (s : State), s.dev.live = true →
    let d := s.dev
    let free (b : Machine.Block) : Prop := (Sys2Proof.Stated.wayTo d b).2 = none
    let gives (i : Instr) (d' : Dev) (w : Word) : Prop :=
      exec i s = .next { s with dev := d' } ∧ d'.rdata = d.rdata ++ [w] ∧ d'.tim = d.tim
    let clears (b : Machine.Block) (off : BitVec 30) (f : Dev → Nat) : Prop := free b → ∃ d' : Dev,
      gives (.readClear { off := off }) d' (BitVec.ofNat 32 (f d)) ∧ f d' = 0 ∧ d'.eng = d.eng
    (free .clk → ∃ d' : Dev, gives .clkGciLoRead d' d.stamp.lo ∧ d'.eng = d.eng ∧
      d'.time = { d.time with capHi := d.stamp.hi, capFrac := BitVec.ofNat 32 d.stamp.frac.toNat }) ∧
    (free .sys → ∃ d' : Dev, gives .sysModeGciLoRead d' d.mode.stamp.lo ∧ d'.eng = d.eng ∧
      d'.mode = { d.mode with capHi := d.mode.stamp.hi }) ∧
    (∀ n : Fin 64, s.Writable (pdEq n) → free (.eng n) → ∃ d' : Dev, gives (.engStopLoRead n) d' (d.engine n).stopStamp.lo ∧
      d'.engine n = { d.engine n with stopHiCap := (d.engine n).stopStamp.hi } ∧ ∀ k, k ≠ n.val → d'.engine k = d.engine k) ∧
    (∀ t : Fin 8, free .txn → ∃ d' : Dev, gives (.txnTgtLoRead t) d' (BitVec.ofNat 32 (fld (d.slot t).target.gci 0 32)) ∧
      d'.slot t = { d.slot t with tgtHiCap := (d.slot t).target.hi } ∧ (∀ u, u ≠ t.val → d'.slot u = d.slot u) ∧ d'.eng = d.eng) ∧
    clears .noc 0xB0004 (fun d => d.noc.unmap) ∧ clears .noc 0xB0008 (fun d => d.noc.postDrop) ∧
    clears .noc 0xB000C (fun d => d.noc.late) ∧ clears .bst 0x90020 (fun d => d.bst.failDrop) ∧
    clears .log 0x80020 (fun d => d.log.drops0.toNat) ∧ clears .log 0x8002C (fun d => d.log.drops3.toNat) ∧
    clears .cmd 0x10004 (fun d => d.cmd.lost.toNat) ∧ (s.Writable pdFat → clears .fcp 0x100018 (fun d => d.fcp.noblkCnt)) ∧
    (s.Writable pdNvs → clears .nvs 0x7002C (fun d => d.nvs.ewarn))

/-- Register accesses of host software and captures. -/
def Obligations.HostAccesses : Prop :=
  Sys2Proof.Stated.HostWords ∧ Sys2Proof.Stated.HostShapes ∧ Sys2Proof.Stated.HostUnits ∧ Sys2Proof.Stated.EdgeWrites ∧ Sys2Proof.Stated.Captures
end

