-- ==== Sys2Proof/Laws/Store.lean ====
section
/-! SUPPORT. The laws of sparse tables: a read after a write, the other keys, and the canonical form that every operation
keeps. -/

namespace Sys2Proof.Machine

variable {α : Type}

@[simp] theorem Store.get_nil (d : Nat → α) (k : Nat) : Store.get d [] k = d k := rfl

theorem Store.get_drop (d : Nat → α) (l : Store α) (k j : Nat) :
    Store.get d (Store.drop l k) j = if k = j then d j else Store.get d l j := by
  induction l with
  | nil => simp [Store.drop, Store.get]
  | cons e r ih =>
    obtain ⟨i, v⟩ := e
    simp only [Store.drop]
    split
    · subst_vars; rw [ih]; simp only [Store.get]; split <;> simp_all
    · simp only [Store.get]
      rw [ih]
      by_cases h : i = j
      · have : k ≠ j := fun hk => by simp_all
        simp [h, this]
      · simp [h]

theorem Store.get_insert_self (d : Nat → α) (l : Store α) (k : Nat) (v : α)
    (h : ∀ w, (k, w) ∉ l) : Store.get d (Store.insert l k v) k = v := by
  induction l with
  | nil => simp [Store.insert, Store.get]
  | cons e r ih =>
    obtain ⟨i, w⟩ := e
    simp only [Store.insert]
    split
    · simp [Store.get]
    · have : i ≠ k := fun hik => h w (by simp [hik])
      simp only [Store.get, if_neg this]
      exact ih fun w hw => h w (List.mem_cons_of_mem _ hw)

theorem Store.get_insert_of_ne (d : Nat → α) (l : Store α) (k j : Nat) (v : α) (h : k ≠ j) :
    Store.get d (Store.insert l k v) j = Store.get d l j := by
  induction l with
  | nil => simp [Store.insert, Store.get, h]
  | cons e r ih =>
    obtain ⟨i, w⟩ := e
    simp only [Store.insert]
    split
    · simp [Store.get, h]
    · simp only [Store.get, ih]

theorem Store.not_mem_drop (l : Store α) (k : Nat) (w : α) : (k, w) ∉ Store.drop l k := by
  induction l with
  | nil => simp [Store.drop]
  | cons e r ih =>
    obtain ⟨i, v⟩ := e
    simp only [Store.drop]
    split
    · exact ih
    · simp only [List.mem_cons, Prod.mk.injEq, not_or]
      exact ⟨fun h => by simp_all, ih⟩

variable [DecidableEq α]

/-- A read of the key that was written. -/
@[simp] theorem Store.get_put_self (d : Nat → α) (l : Store α) (k : Nat) (v : α) :
    Store.get d (Store.put d l k v) k = v := by
  unfold Store.put
  split
  · simp [Store.get_drop, *]
  · exact Store.get_insert_self d _ k v (Store.not_mem_drop l k)

/-- A read of another key. -/
@[simp] theorem Store.get_put_of_ne (d : Nat → α) (l : Store α) (k j : Nat) (v : α) (h : k ≠ j) :
    Store.get d (Store.put d l k v) j = Store.get d l j := by
  unfold Store.put
  split
  · simp [Store.get_drop, h]
  · rw [Store.get_insert_of_ne d _ k j v h, Store.get_drop, if_neg h]

theorem Store.get_put (d : Nat → α) (l : Store α) (k j : Nat) (v : α) :
    Store.get d (Store.put d l k v) j = if k = j then v else Store.get d l j := by
  split
  · subst_vars; simp
  · simp [*]

@[simp] theorem Store.get_upd_self (d : Nat → α) (l : Store α) (k : Nat) (f : α → α) :
    Store.get d (Store.upd d l k f) k = f (Store.get d l k) := Store.get_put_self ..

@[simp] theorem Store.get_upd_of_ne (d : Nat → α) (l : Store α) (k j : Nat) (f : α → α) (h : k ≠ j) :
    Store.get d (Store.upd d l k f) j = Store.get d l j := Store.get_put_of_ne _ _ _ _ _ h

/-! ## The canonical form -/

omit [DecidableEq α] in
theorem Store.above_iff (k : Nat) (l : Store α) : Store.above k l = true ↔ ∀ e ∈ l, k < e.1 := by
  induction l with
  | nil => simp [Store.above]
  | cons e r ih => obtain ⟨i, v⟩ := e; simp [Store.above, ih]

theorem Store.wf_cons (d : Nat → α) (k : Nat) (v : α) (r : Store α) :
    Store.wf d ((k, v) :: r) = true ↔ v ≠ d k ∧ (∀ e ∈ r, k < e.1) ∧ Store.wf d r = true := by
  simp [Store.wf, Store.above_iff, and_assoc]

omit [DecidableEq α] in
theorem Store.mem_of_mem_drop {l : Store α} {k : Nat} {e : Nat × α} (h : e ∈ Store.drop l k) : e ∈ l := by
  induction l with
  | nil => simp [Store.drop] at h
  | cons x r ih =>
    obtain ⟨i, v⟩ := x
    simp only [Store.drop] at h
    split at h
    · exact List.mem_cons_of_mem _ (ih h)
    · rcases List.mem_cons.1 h with h | h
      · simp [h]
      · exact List.mem_cons_of_mem _ (ih h)

theorem Store.wf_drop (d : Nat → α) {l : Store α} (k : Nat) (h : Store.wf d l = true) :
    Store.wf d (Store.drop l k) = true := by
  induction l with
  | nil => rfl
  | cons x r ih =>
    obtain ⟨i, v⟩ := x
    obtain ⟨h1, h2, h3⟩ := (Store.wf_cons ..).1 h
    simp only [Store.drop]
    split
    · exact ih h3
    · exact (Store.wf_cons ..).2 ⟨h1, fun e he => h2 e (Store.mem_of_mem_drop he), ih h3⟩

omit [DecidableEq α] in
theorem Store.mem_of_mem_insert {l : Store α} {k : Nat} {v : α} {e : Nat × α} (h : e ∈ Store.insert l k v) :
    e = (k, v) ∨ e ∈ l := by
  induction l with
  | nil => simpa [Store.insert] using h
  | cons x r ih =>
    obtain ⟨i, w⟩ := x
    simp only [Store.insert] at h
    split at h
    · simpa using h
    · rcases List.mem_cons.1 h with h | h
      · simp [h]
      · rcases ih h with h | h
        · exact .inl h
        · exact .inr (List.mem_cons_of_mem _ h)

theorem Store.wf_insert (d : Nat → α) {l : Store α} (k : Nat) (v : α) (h : Store.wf d l = true) (hv : v ≠ d k)
    (hk : ∀ w, (k, w) ∉ l) : Store.wf d (Store.insert l k v) = true := by
  induction l with
  | nil => simp [Store.insert, Store.wf, Store.above, hv]
  | cons x r ih =>
    obtain ⟨i, w⟩ := x
    obtain ⟨h1, h2, h3⟩ := (Store.wf_cons ..).1 h
    simp only [Store.insert]
    split
    · refine (Store.wf_cons ..).2 ⟨hv, fun e he => ?_, h⟩
      rcases List.mem_cons.1 he with he | he
      · subst he; assumption
      · have := h2 e he; omega
    · have hik : i ≠ k := fun hik => hk w (by simp [hik])
      refine (Store.wf_cons ..).2 ⟨h1, fun e he => ?_, ih h3 fun w hw => hk w (List.mem_cons_of_mem _ hw)⟩
      rcases Store.mem_of_mem_insert he with he | he
      · subst he; simp only; omega
      · exact h2 e he

/-- A write keeps the canonical form. -/
theorem Store.wf_put (d : Nat → α) {l : Store α} (k : Nat) (v : α) (h : Store.wf d l = true) :
    Store.wf d (Store.put d l k v) = true := by
  unfold Store.put
  split
  · exact Store.wf_drop d k h
  · exact Store.wf_insert d k v (Store.wf_drop d k h) ‹_› (Store.not_mem_drop l k)

/-- A read, change and write keeps the canonical form. -/
theorem Store.wf_upd (d : Nat → α) {l : Store α} (k : Nat) (f : α → α) (h : Store.wf d l = true) :
    Store.wf d (Store.upd d l k f) = true := Store.wf_put d k _ h

/-- A write of consecutive keys keeps the canonical form. -/
theorem Store.wf_putList (d : Nat → α) (vs : List α) : ∀ {l : Store α} (k : Nat), Store.wf d l = true →
    Store.wf d (Store.putList d l k vs) = true := by
  induction vs with
  | nil => intro l k h; exact h
  | cons v r ih => intro l k h; exact ih (k + 1) (Store.wf_put d k v h)

/-- A wipe keeps the canonical form. -/
theorem Store.wf_clear (d : Nat → α) {l : Store α} (p : Nat → Bool) (h : Store.wf d l = true) :
    Store.wf d (Store.clear l p) = true := by
  induction l with
  | nil => rfl
  | cons x r ih =>
    obtain ⟨i, v⟩ := x
    obtain ⟨h1, h2, h3⟩ := (Store.wf_cons ..).1 h
    simp only [Store.clear, List.filter_cons]
    split
    · exact (Store.wf_cons ..).2 ⟨h1, fun e he => h2 e (List.mem_filter.1 he).1, ih h3⟩
    · exact ih h3

/-- A change of every listed value keeps the canonical form. -/
theorem Store.wf_mapVals (d : Nat → α) (f : α → α) {l : Store α} (h : Store.wf d l = true) :
    Store.wf d (Store.mapVals d f l) = true := by
  induction l with
  | nil => rfl
  | cons x r ih =>
    obtain ⟨i, v⟩ := x
    obtain ⟨h1, h2, h3⟩ := (Store.wf_cons ..).1 h
    have key : ∀ e ∈ Store.mapVals d f r, i < e.1 := by
      clear ih h h1 h3
      induction r with
      | nil => simp [Store.mapVals]
      | cons y r ih =>
        obtain ⟨j, w⟩ := y
        simp only [Store.mapVals]
        have hr := ih fun e he => h2 e (List.mem_cons_of_mem _ he)
        split
        · exact hr
        · intro e he
          rcases List.mem_cons.1 he with he | he
          · subst he; exact h2 (j, w) (by simp)
          · exact hr e he
    simp only [Store.mapVals]
    split
    · exact ih h3
    · exact (Store.wf_cons ..).2 ⟨‹_›, key, ih h3⟩

end Sys2Proof.Machine
end

