-- ==== Sys2Proof/Laws/State.lean ====
section
/-! SUPPORT. The small lemmas of the named updates of the device: one for each field that an update leaves alone, and the
read of an entry after its write. -/

namespace Sys2Proof.Machine

/-! ## setEngine -/

@[simp] theorem Dev.setEngine_fuse (d : Dev) (n : Nat) (e : Engine) : (d.setEngine n e).fuse = d.fuse := rfl
@[simp] theorem Dev.setEngine_time (d : Dev) (n : Nat) (e : Engine) : (d.setEngine n e).time = d.time := rfl
@[simp] theorem Dev.setEngine_mode (d : Dev) (n : Nat) (e : Engine) : (d.setEngine n e).mode = d.mode := rfl
@[simp] theorem Dev.setEngine_clk (d : Dev) (n : Nat) (e : Engine) : (d.setEngine n e).clk = d.clk := rfl
@[simp] theorem Dev.setEngine_evt (d : Dev) (n : Nat) (e : Engine) : (d.setEngine n e).evt = d.evt := rfl
@[simp] theorem Dev.setEngine_log (d : Dev) (n : Nat) (e : Engine) : (d.setEngine n e).log = d.log := rfl
@[simp] theorem Dev.setEngine_cmd (d : Dev) (n : Nat) (e : Engine) : (d.setEngine n e).cmd = d.cmd := rfl
@[simp] theorem Dev.setEngine_tim (d : Dev) (n : Nat) (e : Engine) : (d.setEngine n e).tim = d.tim := rfl
@[simp] theorem Dev.setEngine_cal (d : Dev) (n : Nat) (e : Engine) : (d.setEngine n e).cal = d.cal := rfl
@[simp] theorem Dev.setEngine_fcp (d : Dev) (n : Nat) (e : Engine) : (d.setEngine n e).fcp = d.fcp := rfl
@[simp] theorem Dev.setEngine_rae (d : Dev) (n : Nat) (e : Engine) : (d.setEngine n e).rae = d.rae := rfl
@[simp] theorem Dev.setEngine_txn (d : Dev) (n : Nat) (e : Engine) : (d.setEngine n e).txn = d.txn := rfl
@[simp] theorem Dev.setEngine_byt (d : Dev) (n : Nat) (e : Engine) : (d.setEngine n e).byt = d.byt := rfl
@[simp] theorem Dev.setEngine_pwr (d : Dev) (n : Nat) (e : Engine) : (d.setEngine n e).pwr = d.pwr := rfl
@[simp] theorem Dev.setEngine_noc (d : Dev) (n : Nat) (e : Engine) : (d.setEngine n e).noc = d.noc := rfl
@[simp] theorem Dev.setEngine_nvs (d : Dev) (n : Nat) (e : Engine) : (d.setEngine n e).nvs = d.nvs := rfl
@[simp] theorem Dev.setEngine_fab (d : Dev) (n : Nat) (e : Engine) : (d.setEngine n e).fab = d.fab := rfl
@[simp] theorem Dev.setEngine_cfg (d : Dev) (n : Nat) (e : Engine) : (d.setEngine n e).cfg = d.cfg := rfl
@[simp] theorem Dev.setEngine_bst (d : Dev) (n : Nat) (e : Engine) : (d.setEngine n e).bst = d.bst := rfl
@[simp] theorem Dev.setEngine_lcy (d : Dev) (n : Nat) (e : Engine) : (d.setEngine n e).lcy = d.lcy := rfl
@[simp] theorem Dev.setEngine_ptr (d : Dev) (n : Nat) (e : Engine) : (d.setEngine n e).ptr = d.ptr := rfl
@[simp] theorem Dev.setEngine_vmi (d : Dev) (n : Nat) (e : Engine) : (d.setEngine n e).vmi = d.vmi := rfl
@[simp] theorem Dev.setEngine_tap (d : Dev) (n : Nat) (e : Engine) : (d.setEngine n e).tap = d.tap := rfl
@[simp] theorem Dev.setEngine_stw (d : Dev) (n : Nat) (e : Engine) : (d.setEngine n e).stw = d.stw := rfl
@[simp] theorem Dev.setEngine_pin (d : Dev) (n : Nat) (e : Engine) : (d.setEngine n e).pin = d.pin := rfl
@[simp] theorem Dev.setEngine_rdata (d : Dev) (n : Nat) (e : Engine) : (d.setEngine n e).rdata = d.rdata := rfl
@[simp] theorem Dev.setEngine_fresh (d : Dev) (n : Nat) (e : Engine) : (d.setEngine n e).fresh = d.fresh := rfl
@[simp] theorem Dev.setEngine_channel (d : Dev) (n : Nat) (e : Engine) (j : Nat) : (d.setEngine n e).channel j = d.channel j := rfl
@[simp] theorem Dev.setEngine_corr (d : Dev) (n : Nat) (e : Engine) (c' t' : Nat) : (d.setEngine n e).corr c' t' = d.corr c' t' := rfl
@[simp] theorem Dev.setEngine_loop (d : Dev) (n : Nat) (e : Engine) (j : Nat) : (d.setEngine n e).loop j = d.loop j := rfl
@[simp] theorem Dev.setEngine_queue (d : Dev) (n : Nat) (e : Engine) (j : Nat) : (d.setEngine n e).queue j = d.queue j := rfl
@[simp] theorem Dev.setEngine_source (d : Dev) (n : Nat) (e : Engine) (j : Nat) : (d.setEngine n e).source j = d.source j := rfl
@[simp] theorem Dev.setEngine_collector (d : Dev) (n : Nat) (e : Engine) (j : Nat) : (d.setEngine n e).collector j = d.collector j := rfl
@[simp] theorem Dev.setEngine_region (d : Dev) (n : Nat) (e : Engine) (j : Nat) : (d.setEngine n e).region j = d.region j := rfl
@[simp] theorem Dev.setEngine_slot (d : Dev) (n : Nat) (e : Engine) (j : Nat) : (d.setEngine n e).slot j = d.slot j := rfl
@[simp] theorem Dev.setEngine_port (d : Dev) (n : Nat) (e : Engine) (j : Nat) : (d.setEngine n e).port j = d.port j := rfl
@[simp] theorem Dev.setEngine_dirEnt (d : Dev) (n : Nat) (e : Engine) (j : Nat) : (d.setEngine n e).dirEnt j = d.dirEnt j := rfl
@[simp] theorem Dev.setEngine_domain (d : Dev) (n : Nat) (e : Engine) (j : Nat) : (d.setEngine n e).domain j = d.domain j := rfl
@[simp] theorem Dev.setEngine_live (d : Dev) (n : Nat) (e : Engine) : (d.setEngine n e).live = d.live := rfl

/-! ## updEngine -/

@[simp] theorem Dev.updEngine_fuse (d : Dev) (n : Nat) (f : Engine → Engine) : (d.updEngine n f).fuse = d.fuse := rfl
@[simp] theorem Dev.updEngine_time (d : Dev) (n : Nat) (f : Engine → Engine) : (d.updEngine n f).time = d.time := rfl
@[simp] theorem Dev.updEngine_mode (d : Dev) (n : Nat) (f : Engine → Engine) : (d.updEngine n f).mode = d.mode := rfl
@[simp] theorem Dev.updEngine_clk (d : Dev) (n : Nat) (f : Engine → Engine) : (d.updEngine n f).clk = d.clk := rfl
@[simp] theorem Dev.updEngine_evt (d : Dev) (n : Nat) (f : Engine → Engine) : (d.updEngine n f).evt = d.evt := rfl
@[simp] theorem Dev.updEngine_log (d : Dev) (n : Nat) (f : Engine → Engine) : (d.updEngine n f).log = d.log := rfl
@[simp] theorem Dev.updEngine_cmd (d : Dev) (n : Nat) (f : Engine → Engine) : (d.updEngine n f).cmd = d.cmd := rfl
@[simp] theorem Dev.updEngine_tim (d : Dev) (n : Nat) (f : Engine → Engine) : (d.updEngine n f).tim = d.tim := rfl
@[simp] theorem Dev.updEngine_cal (d : Dev) (n : Nat) (f : Engine → Engine) : (d.updEngine n f).cal = d.cal := rfl
@[simp] theorem Dev.updEngine_fcp (d : Dev) (n : Nat) (f : Engine → Engine) : (d.updEngine n f).fcp = d.fcp := rfl
@[simp] theorem Dev.updEngine_rae (d : Dev) (n : Nat) (f : Engine → Engine) : (d.updEngine n f).rae = d.rae := rfl
@[simp] theorem Dev.updEngine_txn (d : Dev) (n : Nat) (f : Engine → Engine) : (d.updEngine n f).txn = d.txn := rfl
@[simp] theorem Dev.updEngine_byt (d : Dev) (n : Nat) (f : Engine → Engine) : (d.updEngine n f).byt = d.byt := rfl
@[simp] theorem Dev.updEngine_pwr (d : Dev) (n : Nat) (f : Engine → Engine) : (d.updEngine n f).pwr = d.pwr := rfl
@[simp] theorem Dev.updEngine_noc (d : Dev) (n : Nat) (f : Engine → Engine) : (d.updEngine n f).noc = d.noc := rfl
@[simp] theorem Dev.updEngine_nvs (d : Dev) (n : Nat) (f : Engine → Engine) : (d.updEngine n f).nvs = d.nvs := rfl
@[simp] theorem Dev.updEngine_fab (d : Dev) (n : Nat) (f : Engine → Engine) : (d.updEngine n f).fab = d.fab := rfl
@[simp] theorem Dev.updEngine_cfg (d : Dev) (n : Nat) (f : Engine → Engine) : (d.updEngine n f).cfg = d.cfg := rfl
@[simp] theorem Dev.updEngine_bst (d : Dev) (n : Nat) (f : Engine → Engine) : (d.updEngine n f).bst = d.bst := rfl
@[simp] theorem Dev.updEngine_lcy (d : Dev) (n : Nat) (f : Engine → Engine) : (d.updEngine n f).lcy = d.lcy := rfl
@[simp] theorem Dev.updEngine_ptr (d : Dev) (n : Nat) (f : Engine → Engine) : (d.updEngine n f).ptr = d.ptr := rfl
@[simp] theorem Dev.updEngine_vmi (d : Dev) (n : Nat) (f : Engine → Engine) : (d.updEngine n f).vmi = d.vmi := rfl
@[simp] theorem Dev.updEngine_tap (d : Dev) (n : Nat) (f : Engine → Engine) : (d.updEngine n f).tap = d.tap := rfl
@[simp] theorem Dev.updEngine_stw (d : Dev) (n : Nat) (f : Engine → Engine) : (d.updEngine n f).stw = d.stw := rfl
@[simp] theorem Dev.updEngine_pin (d : Dev) (n : Nat) (f : Engine → Engine) : (d.updEngine n f).pin = d.pin := rfl
@[simp] theorem Dev.updEngine_rdata (d : Dev) (n : Nat) (f : Engine → Engine) : (d.updEngine n f).rdata = d.rdata := rfl
@[simp] theorem Dev.updEngine_fresh (d : Dev) (n : Nat) (f : Engine → Engine) : (d.updEngine n f).fresh = d.fresh := rfl
@[simp] theorem Dev.updEngine_channel (d : Dev) (n : Nat) (f : Engine → Engine) (j : Nat) : (d.updEngine n f).channel j = d.channel j := rfl
@[simp] theorem Dev.updEngine_corr (d : Dev) (n : Nat) (f : Engine → Engine) (c' t' : Nat) : (d.updEngine n f).corr c' t' = d.corr c' t' := rfl
@[simp] theorem Dev.updEngine_loop (d : Dev) (n : Nat) (f : Engine → Engine) (j : Nat) : (d.updEngine n f).loop j = d.loop j := rfl
@[simp] theorem Dev.updEngine_queue (d : Dev) (n : Nat) (f : Engine → Engine) (j : Nat) : (d.updEngine n f).queue j = d.queue j := rfl
@[simp] theorem Dev.updEngine_source (d : Dev) (n : Nat) (f : Engine → Engine) (j : Nat) : (d.updEngine n f).source j = d.source j := rfl
@[simp] theorem Dev.updEngine_collector (d : Dev) (n : Nat) (f : Engine → Engine) (j : Nat) : (d.updEngine n f).collector j = d.collector j := rfl
@[simp] theorem Dev.updEngine_region (d : Dev) (n : Nat) (f : Engine → Engine) (j : Nat) : (d.updEngine n f).region j = d.region j := rfl
@[simp] theorem Dev.updEngine_slot (d : Dev) (n : Nat) (f : Engine → Engine) (j : Nat) : (d.updEngine n f).slot j = d.slot j := rfl
@[simp] theorem Dev.updEngine_port (d : Dev) (n : Nat) (f : Engine → Engine) (j : Nat) : (d.updEngine n f).port j = d.port j := rfl
@[simp] theorem Dev.updEngine_dirEnt (d : Dev) (n : Nat) (f : Engine → Engine) (j : Nat) : (d.updEngine n f).dirEnt j = d.dirEnt j := rfl
@[simp] theorem Dev.updEngine_domain (d : Dev) (n : Nat) (f : Engine → Engine) (j : Nat) : (d.updEngine n f).domain j = d.domain j := rfl
@[simp] theorem Dev.updEngine_live (d : Dev) (n : Nat) (f : Engine → Engine) : (d.updEngine n f).live = d.live := rfl

/-! ## setChannel -/

@[simp] theorem Dev.setChannel_fuse (d : Dev) (c : Nat) (x : Channel) : (d.setChannel c x).fuse = d.fuse := rfl
@[simp] theorem Dev.setChannel_time (d : Dev) (c : Nat) (x : Channel) : (d.setChannel c x).time = d.time := rfl
@[simp] theorem Dev.setChannel_mode (d : Dev) (c : Nat) (x : Channel) : (d.setChannel c x).mode = d.mode := rfl
@[simp] theorem Dev.setChannel_clk (d : Dev) (c : Nat) (x : Channel) : (d.setChannel c x).clk = d.clk := rfl
@[simp] theorem Dev.setChannel_evt (d : Dev) (c : Nat) (x : Channel) : (d.setChannel c x).evt = d.evt := rfl
@[simp] theorem Dev.setChannel_log (d : Dev) (c : Nat) (x : Channel) : (d.setChannel c x).log = d.log := rfl
@[simp] theorem Dev.setChannel_cmd (d : Dev) (c : Nat) (x : Channel) : (d.setChannel c x).cmd = d.cmd := rfl
@[simp] theorem Dev.setChannel_eng (d : Dev) (c : Nat) (x : Channel) : (d.setChannel c x).eng = d.eng := rfl
@[simp] theorem Dev.setChannel_cal (d : Dev) (c : Nat) (x : Channel) : (d.setChannel c x).cal = d.cal := rfl
@[simp] theorem Dev.setChannel_fcp (d : Dev) (c : Nat) (x : Channel) : (d.setChannel c x).fcp = d.fcp := rfl
@[simp] theorem Dev.setChannel_rae (d : Dev) (c : Nat) (x : Channel) : (d.setChannel c x).rae = d.rae := rfl
@[simp] theorem Dev.setChannel_txn (d : Dev) (c : Nat) (x : Channel) : (d.setChannel c x).txn = d.txn := rfl
@[simp] theorem Dev.setChannel_byt (d : Dev) (c : Nat) (x : Channel) : (d.setChannel c x).byt = d.byt := rfl
@[simp] theorem Dev.setChannel_pwr (d : Dev) (c : Nat) (x : Channel) : (d.setChannel c x).pwr = d.pwr := rfl
@[simp] theorem Dev.setChannel_noc (d : Dev) (c : Nat) (x : Channel) : (d.setChannel c x).noc = d.noc := rfl
@[simp] theorem Dev.setChannel_nvs (d : Dev) (c : Nat) (x : Channel) : (d.setChannel c x).nvs = d.nvs := rfl
@[simp] theorem Dev.setChannel_fab (d : Dev) (c : Nat) (x : Channel) : (d.setChannel c x).fab = d.fab := rfl
@[simp] theorem Dev.setChannel_cfg (d : Dev) (c : Nat) (x : Channel) : (d.setChannel c x).cfg = d.cfg := rfl
@[simp] theorem Dev.setChannel_bst (d : Dev) (c : Nat) (x : Channel) : (d.setChannel c x).bst = d.bst := rfl
@[simp] theorem Dev.setChannel_lcy (d : Dev) (c : Nat) (x : Channel) : (d.setChannel c x).lcy = d.lcy := rfl
@[simp] theorem Dev.setChannel_ptr (d : Dev) (c : Nat) (x : Channel) : (d.setChannel c x).ptr = d.ptr := rfl
@[simp] theorem Dev.setChannel_vmi (d : Dev) (c : Nat) (x : Channel) : (d.setChannel c x).vmi = d.vmi := rfl
@[simp] theorem Dev.setChannel_tap (d : Dev) (c : Nat) (x : Channel) : (d.setChannel c x).tap = d.tap := rfl
@[simp] theorem Dev.setChannel_stw (d : Dev) (c : Nat) (x : Channel) : (d.setChannel c x).stw = d.stw := rfl
@[simp] theorem Dev.setChannel_pin (d : Dev) (c : Nat) (x : Channel) : (d.setChannel c x).pin = d.pin := rfl
@[simp] theorem Dev.setChannel_rdata (d : Dev) (c : Nat) (x : Channel) : (d.setChannel c x).rdata = d.rdata := rfl
@[simp] theorem Dev.setChannel_fresh (d : Dev) (c : Nat) (x : Channel) : (d.setChannel c x).fresh = d.fresh := rfl
@[simp] theorem Dev.setChannel_engine (d : Dev) (c : Nat) (x : Channel) (j : Nat) : (d.setChannel c x).engine j = d.engine j := rfl
@[simp] theorem Dev.setChannel_corr (d : Dev) (c : Nat) (x : Channel) (c' t' : Nat) : (d.setChannel c x).corr c' t' = d.corr c' t' := rfl
@[simp] theorem Dev.setChannel_loop (d : Dev) (c : Nat) (x : Channel) (j : Nat) : (d.setChannel c x).loop j = d.loop j := rfl
@[simp] theorem Dev.setChannel_queue (d : Dev) (c : Nat) (x : Channel) (j : Nat) : (d.setChannel c x).queue j = d.queue j := rfl
@[simp] theorem Dev.setChannel_source (d : Dev) (c : Nat) (x : Channel) (j : Nat) : (d.setChannel c x).source j = d.source j := rfl
@[simp] theorem Dev.setChannel_collector (d : Dev) (c : Nat) (x : Channel) (j : Nat) : (d.setChannel c x).collector j = d.collector j := rfl
@[simp] theorem Dev.setChannel_region (d : Dev) (c : Nat) (x : Channel) (j : Nat) : (d.setChannel c x).region j = d.region j := rfl
@[simp] theorem Dev.setChannel_slot (d : Dev) (c : Nat) (x : Channel) (j : Nat) : (d.setChannel c x).slot j = d.slot j := rfl
@[simp] theorem Dev.setChannel_port (d : Dev) (c : Nat) (x : Channel) (j : Nat) : (d.setChannel c x).port j = d.port j := rfl
@[simp] theorem Dev.setChannel_dirEnt (d : Dev) (c : Nat) (x : Channel) (j : Nat) : (d.setChannel c x).dirEnt j = d.dirEnt j := rfl
@[simp] theorem Dev.setChannel_domain (d : Dev) (c : Nat) (x : Channel) (j : Nat) : (d.setChannel c x).domain j = d.domain j := rfl
@[simp] theorem Dev.setChannel_live (d : Dev) (c : Nat) (x : Channel) : (d.setChannel c x).live = d.live := rfl

/-! ## updChannel -/

@[simp] theorem Dev.updChannel_fuse (d : Dev) (c : Nat) (f : Channel → Channel) : (d.updChannel c f).fuse = d.fuse := rfl
@[simp] theorem Dev.updChannel_time (d : Dev) (c : Nat) (f : Channel → Channel) : (d.updChannel c f).time = d.time := rfl
@[simp] theorem Dev.updChannel_mode (d : Dev) (c : Nat) (f : Channel → Channel) : (d.updChannel c f).mode = d.mode := rfl
@[simp] theorem Dev.updChannel_clk (d : Dev) (c : Nat) (f : Channel → Channel) : (d.updChannel c f).clk = d.clk := rfl
@[simp] theorem Dev.updChannel_evt (d : Dev) (c : Nat) (f : Channel → Channel) : (d.updChannel c f).evt = d.evt := rfl
@[simp] theorem Dev.updChannel_log (d : Dev) (c : Nat) (f : Channel → Channel) : (d.updChannel c f).log = d.log := rfl
@[simp] theorem Dev.updChannel_cmd (d : Dev) (c : Nat) (f : Channel → Channel) : (d.updChannel c f).cmd = d.cmd := rfl
@[simp] theorem Dev.updChannel_eng (d : Dev) (c : Nat) (f : Channel → Channel) : (d.updChannel c f).eng = d.eng := rfl
@[simp] theorem Dev.updChannel_cal (d : Dev) (c : Nat) (f : Channel → Channel) : (d.updChannel c f).cal = d.cal := rfl
@[simp] theorem Dev.updChannel_fcp (d : Dev) (c : Nat) (f : Channel → Channel) : (d.updChannel c f).fcp = d.fcp := rfl
@[simp] theorem Dev.updChannel_rae (d : Dev) (c : Nat) (f : Channel → Channel) : (d.updChannel c f).rae = d.rae := rfl
@[simp] theorem Dev.updChannel_txn (d : Dev) (c : Nat) (f : Channel → Channel) : (d.updChannel c f).txn = d.txn := rfl
@[simp] theorem Dev.updChannel_byt (d : Dev) (c : Nat) (f : Channel → Channel) : (d.updChannel c f).byt = d.byt := rfl
@[simp] theorem Dev.updChannel_pwr (d : Dev) (c : Nat) (f : Channel → Channel) : (d.updChannel c f).pwr = d.pwr := rfl
@[simp] theorem Dev.updChannel_noc (d : Dev) (c : Nat) (f : Channel → Channel) : (d.updChannel c f).noc = d.noc := rfl
@[simp] theorem Dev.updChannel_nvs (d : Dev) (c : Nat) (f : Channel → Channel) : (d.updChannel c f).nvs = d.nvs := rfl
@[simp] theorem Dev.updChannel_fab (d : Dev) (c : Nat) (f : Channel → Channel) : (d.updChannel c f).fab = d.fab := rfl
@[simp] theorem Dev.updChannel_cfg (d : Dev) (c : Nat) (f : Channel → Channel) : (d.updChannel c f).cfg = d.cfg := rfl
@[simp] theorem Dev.updChannel_bst (d : Dev) (c : Nat) (f : Channel → Channel) : (d.updChannel c f).bst = d.bst := rfl
@[simp] theorem Dev.updChannel_lcy (d : Dev) (c : Nat) (f : Channel → Channel) : (d.updChannel c f).lcy = d.lcy := rfl
@[simp] theorem Dev.updChannel_ptr (d : Dev) (c : Nat) (f : Channel → Channel) : (d.updChannel c f).ptr = d.ptr := rfl
@[simp] theorem Dev.updChannel_vmi (d : Dev) (c : Nat) (f : Channel → Channel) : (d.updChannel c f).vmi = d.vmi := rfl
@[simp] theorem Dev.updChannel_tap (d : Dev) (c : Nat) (f : Channel → Channel) : (d.updChannel c f).tap = d.tap := rfl
@[simp] theorem Dev.updChannel_stw (d : Dev) (c : Nat) (f : Channel → Channel) : (d.updChannel c f).stw = d.stw := rfl
@[simp] theorem Dev.updChannel_pin (d : Dev) (c : Nat) (f : Channel → Channel) : (d.updChannel c f).pin = d.pin := rfl
@[simp] theorem Dev.updChannel_rdata (d : Dev) (c : Nat) (f : Channel → Channel) : (d.updChannel c f).rdata = d.rdata := rfl
@[simp] theorem Dev.updChannel_fresh (d : Dev) (c : Nat) (f : Channel → Channel) : (d.updChannel c f).fresh = d.fresh := rfl
@[simp] theorem Dev.updChannel_engine (d : Dev) (c : Nat) (f : Channel → Channel) (j : Nat) : (d.updChannel c f).engine j = d.engine j := rfl
@[simp] theorem Dev.updChannel_corr (d : Dev) (c : Nat) (f : Channel → Channel) (c' t' : Nat) : (d.updChannel c f).corr c' t' = d.corr c' t' := rfl
@[simp] theorem Dev.updChannel_loop (d : Dev) (c : Nat) (f : Channel → Channel) (j : Nat) : (d.updChannel c f).loop j = d.loop j := rfl
@[simp] theorem Dev.updChannel_queue (d : Dev) (c : Nat) (f : Channel → Channel) (j : Nat) : (d.updChannel c f).queue j = d.queue j := rfl
@[simp] theorem Dev.updChannel_source (d : Dev) (c : Nat) (f : Channel → Channel) (j : Nat) : (d.updChannel c f).source j = d.source j := rfl
@[simp] theorem Dev.updChannel_collector (d : Dev) (c : Nat) (f : Channel → Channel) (j : Nat) : (d.updChannel c f).collector j = d.collector j := rfl
@[simp] theorem Dev.updChannel_region (d : Dev) (c : Nat) (f : Channel → Channel) (j : Nat) : (d.updChannel c f).region j = d.region j := rfl
@[simp] theorem Dev.updChannel_slot (d : Dev) (c : Nat) (f : Channel → Channel) (j : Nat) : (d.updChannel c f).slot j = d.slot j := rfl
@[simp] theorem Dev.updChannel_port (d : Dev) (c : Nat) (f : Channel → Channel) (j : Nat) : (d.updChannel c f).port j = d.port j := rfl
@[simp] theorem Dev.updChannel_dirEnt (d : Dev) (c : Nat) (f : Channel → Channel) (j : Nat) : (d.updChannel c f).dirEnt j = d.dirEnt j := rfl
@[simp] theorem Dev.updChannel_domain (d : Dev) (c : Nat) (f : Channel → Channel) (j : Nat) : (d.updChannel c f).domain j = d.domain j := rfl
@[simp] theorem Dev.updChannel_live (d : Dev) (c : Nat) (f : Channel → Channel) : (d.updChannel c f).live = d.live := rfl

/-! ## setCorr -/

@[simp] theorem Dev.setCorr_fuse (d : Dev) (c t : Nat) (x : CorrEntry) : (d.setCorr c t x).fuse = d.fuse := rfl
@[simp] theorem Dev.setCorr_time (d : Dev) (c t : Nat) (x : CorrEntry) : (d.setCorr c t x).time = d.time := rfl
@[simp] theorem Dev.setCorr_mode (d : Dev) (c t : Nat) (x : CorrEntry) : (d.setCorr c t x).mode = d.mode := rfl
@[simp] theorem Dev.setCorr_clk (d : Dev) (c t : Nat) (x : CorrEntry) : (d.setCorr c t x).clk = d.clk := rfl
@[simp] theorem Dev.setCorr_evt (d : Dev) (c t : Nat) (x : CorrEntry) : (d.setCorr c t x).evt = d.evt := rfl
@[simp] theorem Dev.setCorr_log (d : Dev) (c t : Nat) (x : CorrEntry) : (d.setCorr c t x).log = d.log := rfl
@[simp] theorem Dev.setCorr_cmd (d : Dev) (c t : Nat) (x : CorrEntry) : (d.setCorr c t x).cmd = d.cmd := rfl
@[simp] theorem Dev.setCorr_eng (d : Dev) (c t : Nat) (x : CorrEntry) : (d.setCorr c t x).eng = d.eng := rfl
@[simp] theorem Dev.setCorr_tim (d : Dev) (c t : Nat) (x : CorrEntry) : (d.setCorr c t x).tim = d.tim := rfl
@[simp] theorem Dev.setCorr_fcp (d : Dev) (c t : Nat) (x : CorrEntry) : (d.setCorr c t x).fcp = d.fcp := rfl
@[simp] theorem Dev.setCorr_rae (d : Dev) (c t : Nat) (x : CorrEntry) : (d.setCorr c t x).rae = d.rae := rfl
@[simp] theorem Dev.setCorr_txn (d : Dev) (c t : Nat) (x : CorrEntry) : (d.setCorr c t x).txn = d.txn := rfl
@[simp] theorem Dev.setCorr_byt (d : Dev) (c t : Nat) (x : CorrEntry) : (d.setCorr c t x).byt = d.byt := rfl
@[simp] theorem Dev.setCorr_pwr (d : Dev) (c t : Nat) (x : CorrEntry) : (d.setCorr c t x).pwr = d.pwr := rfl
@[simp] theorem Dev.setCorr_noc (d : Dev) (c t : Nat) (x : CorrEntry) : (d.setCorr c t x).noc = d.noc := rfl
@[simp] theorem Dev.setCorr_nvs (d : Dev) (c t : Nat) (x : CorrEntry) : (d.setCorr c t x).nvs = d.nvs := rfl
@[simp] theorem Dev.setCorr_fab (d : Dev) (c t : Nat) (x : CorrEntry) : (d.setCorr c t x).fab = d.fab := rfl
@[simp] theorem Dev.setCorr_cfg (d : Dev) (c t : Nat) (x : CorrEntry) : (d.setCorr c t x).cfg = d.cfg := rfl
@[simp] theorem Dev.setCorr_bst (d : Dev) (c t : Nat) (x : CorrEntry) : (d.setCorr c t x).bst = d.bst := rfl
@[simp] theorem Dev.setCorr_lcy (d : Dev) (c t : Nat) (x : CorrEntry) : (d.setCorr c t x).lcy = d.lcy := rfl
@[simp] theorem Dev.setCorr_ptr (d : Dev) (c t : Nat) (x : CorrEntry) : (d.setCorr c t x).ptr = d.ptr := rfl
@[simp] theorem Dev.setCorr_vmi (d : Dev) (c t : Nat) (x : CorrEntry) : (d.setCorr c t x).vmi = d.vmi := rfl
@[simp] theorem Dev.setCorr_tap (d : Dev) (c t : Nat) (x : CorrEntry) : (d.setCorr c t x).tap = d.tap := rfl
@[simp] theorem Dev.setCorr_stw (d : Dev) (c t : Nat) (x : CorrEntry) : (d.setCorr c t x).stw = d.stw := rfl
@[simp] theorem Dev.setCorr_pin (d : Dev) (c t : Nat) (x : CorrEntry) : (d.setCorr c t x).pin = d.pin := rfl
@[simp] theorem Dev.setCorr_rdata (d : Dev) (c t : Nat) (x : CorrEntry) : (d.setCorr c t x).rdata = d.rdata := rfl
@[simp] theorem Dev.setCorr_fresh (d : Dev) (c t : Nat) (x : CorrEntry) : (d.setCorr c t x).fresh = d.fresh := rfl
@[simp] theorem Dev.setCorr_engine (d : Dev) (c t : Nat) (x : CorrEntry) (j : Nat) : (d.setCorr c t x).engine j = d.engine j := rfl
@[simp] theorem Dev.setCorr_channel (d : Dev) (c t : Nat) (x : CorrEntry) (j : Nat) : (d.setCorr c t x).channel j = d.channel j := rfl
@[simp] theorem Dev.setCorr_loop (d : Dev) (c t : Nat) (x : CorrEntry) (j : Nat) : (d.setCorr c t x).loop j = d.loop j := rfl
@[simp] theorem Dev.setCorr_queue (d : Dev) (c t : Nat) (x : CorrEntry) (j : Nat) : (d.setCorr c t x).queue j = d.queue j := rfl
@[simp] theorem Dev.setCorr_source (d : Dev) (c t : Nat) (x : CorrEntry) (j : Nat) : (d.setCorr c t x).source j = d.source j := rfl
@[simp] theorem Dev.setCorr_collector (d : Dev) (c t : Nat) (x : CorrEntry) (j : Nat) : (d.setCorr c t x).collector j = d.collector j := rfl
@[simp] theorem Dev.setCorr_region (d : Dev) (c t : Nat) (x : CorrEntry) (j : Nat) : (d.setCorr c t x).region j = d.region j := rfl
@[simp] theorem Dev.setCorr_slot (d : Dev) (c t : Nat) (x : CorrEntry) (j : Nat) : (d.setCorr c t x).slot j = d.slot j := rfl
@[simp] theorem Dev.setCorr_port (d : Dev) (c t : Nat) (x : CorrEntry) (j : Nat) : (d.setCorr c t x).port j = d.port j := rfl
@[simp] theorem Dev.setCorr_dirEnt (d : Dev) (c t : Nat) (x : CorrEntry) (j : Nat) : (d.setCorr c t x).dirEnt j = d.dirEnt j := rfl
@[simp] theorem Dev.setCorr_domain (d : Dev) (c t : Nat) (x : CorrEntry) (j : Nat) : (d.setCorr c t x).domain j = d.domain j := rfl
@[simp] theorem Dev.setCorr_live (d : Dev) (c t : Nat) (x : CorrEntry) : (d.setCorr c t x).live = d.live := rfl

/-! ## updCorr -/

@[simp] theorem Dev.updCorr_fuse (d : Dev) (c t : Nat) (f : CorrEntry → CorrEntry) : (d.updCorr c t f).fuse = d.fuse := rfl
@[simp] theorem Dev.updCorr_time (d : Dev) (c t : Nat) (f : CorrEntry → CorrEntry) : (d.updCorr c t f).time = d.time := rfl
@[simp] theorem Dev.updCorr_mode (d : Dev) (c t : Nat) (f : CorrEntry → CorrEntry) : (d.updCorr c t f).mode = d.mode := rfl
@[simp] theorem Dev.updCorr_clk (d : Dev) (c t : Nat) (f : CorrEntry → CorrEntry) : (d.updCorr c t f).clk = d.clk := rfl
@[simp] theorem Dev.updCorr_evt (d : Dev) (c t : Nat) (f : CorrEntry → CorrEntry) : (d.updCorr c t f).evt = d.evt := rfl
@[simp] theorem Dev.updCorr_log (d : Dev) (c t : Nat) (f : CorrEntry → CorrEntry) : (d.updCorr c t f).log = d.log := rfl
@[simp] theorem Dev.updCorr_cmd (d : Dev) (c t : Nat) (f : CorrEntry → CorrEntry) : (d.updCorr c t f).cmd = d.cmd := rfl
@[simp] theorem Dev.updCorr_eng (d : Dev) (c t : Nat) (f : CorrEntry → CorrEntry) : (d.updCorr c t f).eng = d.eng := rfl
@[simp] theorem Dev.updCorr_tim (d : Dev) (c t : Nat) (f : CorrEntry → CorrEntry) : (d.updCorr c t f).tim = d.tim := rfl
@[simp] theorem Dev.updCorr_fcp (d : Dev) (c t : Nat) (f : CorrEntry → CorrEntry) : (d.updCorr c t f).fcp = d.fcp := rfl
@[simp] theorem Dev.updCorr_rae (d : Dev) (c t : Nat) (f : CorrEntry → CorrEntry) : (d.updCorr c t f).rae = d.rae := rfl
@[simp] theorem Dev.updCorr_txn (d : Dev) (c t : Nat) (f : CorrEntry → CorrEntry) : (d.updCorr c t f).txn = d.txn := rfl
@[simp] theorem Dev.updCorr_byt (d : Dev) (c t : Nat) (f : CorrEntry → CorrEntry) : (d.updCorr c t f).byt = d.byt := rfl
@[simp] theorem Dev.updCorr_pwr (d : Dev) (c t : Nat) (f : CorrEntry → CorrEntry) : (d.updCorr c t f).pwr = d.pwr := rfl
@[simp] theorem Dev.updCorr_noc (d : Dev) (c t : Nat) (f : CorrEntry → CorrEntry) : (d.updCorr c t f).noc = d.noc := rfl
@[simp] theorem Dev.updCorr_nvs (d : Dev) (c t : Nat) (f : CorrEntry → CorrEntry) : (d.updCorr c t f).nvs = d.nvs := rfl
@[simp] theorem Dev.updCorr_fab (d : Dev) (c t : Nat) (f : CorrEntry → CorrEntry) : (d.updCorr c t f).fab = d.fab := rfl
@[simp] theorem Dev.updCorr_cfg (d : Dev) (c t : Nat) (f : CorrEntry → CorrEntry) : (d.updCorr c t f).cfg = d.cfg := rfl
@[simp] theorem Dev.updCorr_bst (d : Dev) (c t : Nat) (f : CorrEntry → CorrEntry) : (d.updCorr c t f).bst = d.bst := rfl
@[simp] theorem Dev.updCorr_lcy (d : Dev) (c t : Nat) (f : CorrEntry → CorrEntry) : (d.updCorr c t f).lcy = d.lcy := rfl
@[simp] theorem Dev.updCorr_ptr (d : Dev) (c t : Nat) (f : CorrEntry → CorrEntry) : (d.updCorr c t f).ptr = d.ptr := rfl
@[simp] theorem Dev.updCorr_vmi (d : Dev) (c t : Nat) (f : CorrEntry → CorrEntry) : (d.updCorr c t f).vmi = d.vmi := rfl
@[simp] theorem Dev.updCorr_tap (d : Dev) (c t : Nat) (f : CorrEntry → CorrEntry) : (d.updCorr c t f).tap = d.tap := rfl
@[simp] theorem Dev.updCorr_stw (d : Dev) (c t : Nat) (f : CorrEntry → CorrEntry) : (d.updCorr c t f).stw = d.stw := rfl
@[simp] theorem Dev.updCorr_pin (d : Dev) (c t : Nat) (f : CorrEntry → CorrEntry) : (d.updCorr c t f).pin = d.pin := rfl
@[simp] theorem Dev.updCorr_rdata (d : Dev) (c t : Nat) (f : CorrEntry → CorrEntry) : (d.updCorr c t f).rdata = d.rdata := rfl
@[simp] theorem Dev.updCorr_fresh (d : Dev) (c t : Nat) (f : CorrEntry → CorrEntry) : (d.updCorr c t f).fresh = d.fresh := rfl
@[simp] theorem Dev.updCorr_engine (d : Dev) (c t : Nat) (f : CorrEntry → CorrEntry) (j : Nat) : (d.updCorr c t f).engine j = d.engine j := rfl
@[simp] theorem Dev.updCorr_channel (d : Dev) (c t : Nat) (f : CorrEntry → CorrEntry) (j : Nat) : (d.updCorr c t f).channel j = d.channel j := rfl
@[simp] theorem Dev.updCorr_loop (d : Dev) (c t : Nat) (f : CorrEntry → CorrEntry) (j : Nat) : (d.updCorr c t f).loop j = d.loop j := rfl
@[simp] theorem Dev.updCorr_queue (d : Dev) (c t : Nat) (f : CorrEntry → CorrEntry) (j : Nat) : (d.updCorr c t f).queue j = d.queue j := rfl
@[simp] theorem Dev.updCorr_source (d : Dev) (c t : Nat) (f : CorrEntry → CorrEntry) (j : Nat) : (d.updCorr c t f).source j = d.source j := rfl
@[simp] theorem Dev.updCorr_collector (d : Dev) (c t : Nat) (f : CorrEntry → CorrEntry) (j : Nat) : (d.updCorr c t f).collector j = d.collector j := rfl
@[simp] theorem Dev.updCorr_region (d : Dev) (c t : Nat) (f : CorrEntry → CorrEntry) (j : Nat) : (d.updCorr c t f).region j = d.region j := rfl
@[simp] theorem Dev.updCorr_slot (d : Dev) (c t : Nat) (f : CorrEntry → CorrEntry) (j : Nat) : (d.updCorr c t f).slot j = d.slot j := rfl
@[simp] theorem Dev.updCorr_port (d : Dev) (c t : Nat) (f : CorrEntry → CorrEntry) (j : Nat) : (d.updCorr c t f).port j = d.port j := rfl
@[simp] theorem Dev.updCorr_dirEnt (d : Dev) (c t : Nat) (f : CorrEntry → CorrEntry) (j : Nat) : (d.updCorr c t f).dirEnt j = d.dirEnt j := rfl
@[simp] theorem Dev.updCorr_domain (d : Dev) (c t : Nat) (f : CorrEntry → CorrEntry) (j : Nat) : (d.updCorr c t f).domain j = d.domain j := rfl
@[simp] theorem Dev.updCorr_live (d : Dev) (c t : Nat) (f : CorrEntry → CorrEntry) : (d.updCorr c t f).live = d.live := rfl

/-! ## setLoop -/

@[simp] theorem Dev.setLoop_fuse (d : Dev) (i : Nat) (l : Loop) : (d.setLoop i l).fuse = d.fuse := rfl
@[simp] theorem Dev.setLoop_time (d : Dev) (i : Nat) (l : Loop) : (d.setLoop i l).time = d.time := rfl
@[simp] theorem Dev.setLoop_mode (d : Dev) (i : Nat) (l : Loop) : (d.setLoop i l).mode = d.mode := rfl
@[simp] theorem Dev.setLoop_evt (d : Dev) (i : Nat) (l : Loop) : (d.setLoop i l).evt = d.evt := rfl
@[simp] theorem Dev.setLoop_log (d : Dev) (i : Nat) (l : Loop) : (d.setLoop i l).log = d.log := rfl
@[simp] theorem Dev.setLoop_cmd (d : Dev) (i : Nat) (l : Loop) : (d.setLoop i l).cmd = d.cmd := rfl
@[simp] theorem Dev.setLoop_eng (d : Dev) (i : Nat) (l : Loop) : (d.setLoop i l).eng = d.eng := rfl
@[simp] theorem Dev.setLoop_tim (d : Dev) (i : Nat) (l : Loop) : (d.setLoop i l).tim = d.tim := rfl
@[simp] theorem Dev.setLoop_cal (d : Dev) (i : Nat) (l : Loop) : (d.setLoop i l).cal = d.cal := rfl
@[simp] theorem Dev.setLoop_fcp (d : Dev) (i : Nat) (l : Loop) : (d.setLoop i l).fcp = d.fcp := rfl
@[simp] theorem Dev.setLoop_rae (d : Dev) (i : Nat) (l : Loop) : (d.setLoop i l).rae = d.rae := rfl
@[simp] theorem Dev.setLoop_txn (d : Dev) (i : Nat) (l : Loop) : (d.setLoop i l).txn = d.txn := rfl
@[simp] theorem Dev.setLoop_byt (d : Dev) (i : Nat) (l : Loop) : (d.setLoop i l).byt = d.byt := rfl
@[simp] theorem Dev.setLoop_pwr (d : Dev) (i : Nat) (l : Loop) : (d.setLoop i l).pwr = d.pwr := rfl
@[simp] theorem Dev.setLoop_noc (d : Dev) (i : Nat) (l : Loop) : (d.setLoop i l).noc = d.noc := rfl
@[simp] theorem Dev.setLoop_nvs (d : Dev) (i : Nat) (l : Loop) : (d.setLoop i l).nvs = d.nvs := rfl
@[simp] theorem Dev.setLoop_fab (d : Dev) (i : Nat) (l : Loop) : (d.setLoop i l).fab = d.fab := rfl
@[simp] theorem Dev.setLoop_cfg (d : Dev) (i : Nat) (l : Loop) : (d.setLoop i l).cfg = d.cfg := rfl
@[simp] theorem Dev.setLoop_bst (d : Dev) (i : Nat) (l : Loop) : (d.setLoop i l).bst = d.bst := rfl
@[simp] theorem Dev.setLoop_lcy (d : Dev) (i : Nat) (l : Loop) : (d.setLoop i l).lcy = d.lcy := rfl
@[simp] theorem Dev.setLoop_ptr (d : Dev) (i : Nat) (l : Loop) : (d.setLoop i l).ptr = d.ptr := rfl
@[simp] theorem Dev.setLoop_vmi (d : Dev) (i : Nat) (l : Loop) : (d.setLoop i l).vmi = d.vmi := rfl
@[simp] theorem Dev.setLoop_tap (d : Dev) (i : Nat) (l : Loop) : (d.setLoop i l).tap = d.tap := rfl
@[simp] theorem Dev.setLoop_stw (d : Dev) (i : Nat) (l : Loop) : (d.setLoop i l).stw = d.stw := rfl
@[simp] theorem Dev.setLoop_pin (d : Dev) (i : Nat) (l : Loop) : (d.setLoop i l).pin = d.pin := rfl
@[simp] theorem Dev.setLoop_rdata (d : Dev) (i : Nat) (l : Loop) : (d.setLoop i l).rdata = d.rdata := rfl
@[simp] theorem Dev.setLoop_fresh (d : Dev) (i : Nat) (l : Loop) : (d.setLoop i l).fresh = d.fresh := rfl
@[simp] theorem Dev.setLoop_engine (d : Dev) (i : Nat) (l : Loop) (j : Nat) : (d.setLoop i l).engine j = d.engine j := rfl
@[simp] theorem Dev.setLoop_channel (d : Dev) (i : Nat) (l : Loop) (j : Nat) : (d.setLoop i l).channel j = d.channel j := rfl
@[simp] theorem Dev.setLoop_corr (d : Dev) (i : Nat) (l : Loop) (c' t' : Nat) : (d.setLoop i l).corr c' t' = d.corr c' t' := rfl
@[simp] theorem Dev.setLoop_queue (d : Dev) (i : Nat) (l : Loop) (j : Nat) : (d.setLoop i l).queue j = d.queue j := rfl
@[simp] theorem Dev.setLoop_source (d : Dev) (i : Nat) (l : Loop) (j : Nat) : (d.setLoop i l).source j = d.source j := rfl
@[simp] theorem Dev.setLoop_collector (d : Dev) (i : Nat) (l : Loop) (j : Nat) : (d.setLoop i l).collector j = d.collector j := rfl
@[simp] theorem Dev.setLoop_region (d : Dev) (i : Nat) (l : Loop) (j : Nat) : (d.setLoop i l).region j = d.region j := rfl
@[simp] theorem Dev.setLoop_slot (d : Dev) (i : Nat) (l : Loop) (j : Nat) : (d.setLoop i l).slot j = d.slot j := rfl
@[simp] theorem Dev.setLoop_port (d : Dev) (i : Nat) (l : Loop) (j : Nat) : (d.setLoop i l).port j = d.port j := rfl
@[simp] theorem Dev.setLoop_dirEnt (d : Dev) (i : Nat) (l : Loop) (j : Nat) : (d.setLoop i l).dirEnt j = d.dirEnt j := rfl
@[simp] theorem Dev.setLoop_domain (d : Dev) (i : Nat) (l : Loop) (j : Nat) : (d.setLoop i l).domain j = d.domain j := rfl
@[simp] theorem Dev.setLoop_live (d : Dev) (i : Nat) (l : Loop) : (d.setLoop i l).live = d.live := rfl

/-! ## updLoop -/

@[simp] theorem Dev.updLoop_fuse (d : Dev) (i : Nat) (f : Loop → Loop) : (d.updLoop i f).fuse = d.fuse := rfl
@[simp] theorem Dev.updLoop_time (d : Dev) (i : Nat) (f : Loop → Loop) : (d.updLoop i f).time = d.time := rfl
@[simp] theorem Dev.updLoop_mode (d : Dev) (i : Nat) (f : Loop → Loop) : (d.updLoop i f).mode = d.mode := rfl
@[simp] theorem Dev.updLoop_evt (d : Dev) (i : Nat) (f : Loop → Loop) : (d.updLoop i f).evt = d.evt := rfl
@[simp] theorem Dev.updLoop_log (d : Dev) (i : Nat) (f : Loop → Loop) : (d.updLoop i f).log = d.log := rfl
@[simp] theorem Dev.updLoop_cmd (d : Dev) (i : Nat) (f : Loop → Loop) : (d.updLoop i f).cmd = d.cmd := rfl
@[simp] theorem Dev.updLoop_eng (d : Dev) (i : Nat) (f : Loop → Loop) : (d.updLoop i f).eng = d.eng := rfl
@[simp] theorem Dev.updLoop_tim (d : Dev) (i : Nat) (f : Loop → Loop) : (d.updLoop i f).tim = d.tim := rfl
@[simp] theorem Dev.updLoop_cal (d : Dev) (i : Nat) (f : Loop → Loop) : (d.updLoop i f).cal = d.cal := rfl
@[simp] theorem Dev.updLoop_fcp (d : Dev) (i : Nat) (f : Loop → Loop) : (d.updLoop i f).fcp = d.fcp := rfl
@[simp] theorem Dev.updLoop_rae (d : Dev) (i : Nat) (f : Loop → Loop) : (d.updLoop i f).rae = d.rae := rfl
@[simp] theorem Dev.updLoop_txn (d : Dev) (i : Nat) (f : Loop → Loop) : (d.updLoop i f).txn = d.txn := rfl
@[simp] theorem Dev.updLoop_byt (d : Dev) (i : Nat) (f : Loop → Loop) : (d.updLoop i f).byt = d.byt := rfl
@[simp] theorem Dev.updLoop_pwr (d : Dev) (i : Nat) (f : Loop → Loop) : (d.updLoop i f).pwr = d.pwr := rfl
@[simp] theorem Dev.updLoop_noc (d : Dev) (i : Nat) (f : Loop → Loop) : (d.updLoop i f).noc = d.noc := rfl
@[simp] theorem Dev.updLoop_nvs (d : Dev) (i : Nat) (f : Loop → Loop) : (d.updLoop i f).nvs = d.nvs := rfl
@[simp] theorem Dev.updLoop_fab (d : Dev) (i : Nat) (f : Loop → Loop) : (d.updLoop i f).fab = d.fab := rfl
@[simp] theorem Dev.updLoop_cfg (d : Dev) (i : Nat) (f : Loop → Loop) : (d.updLoop i f).cfg = d.cfg := rfl
@[simp] theorem Dev.updLoop_bst (d : Dev) (i : Nat) (f : Loop → Loop) : (d.updLoop i f).bst = d.bst := rfl
@[simp] theorem Dev.updLoop_lcy (d : Dev) (i : Nat) (f : Loop → Loop) : (d.updLoop i f).lcy = d.lcy := rfl
@[simp] theorem Dev.updLoop_ptr (d : Dev) (i : Nat) (f : Loop → Loop) : (d.updLoop i f).ptr = d.ptr := rfl
@[simp] theorem Dev.updLoop_vmi (d : Dev) (i : Nat) (f : Loop → Loop) : (d.updLoop i f).vmi = d.vmi := rfl
@[simp] theorem Dev.updLoop_tap (d : Dev) (i : Nat) (f : Loop → Loop) : (d.updLoop i f).tap = d.tap := rfl
@[simp] theorem Dev.updLoop_stw (d : Dev) (i : Nat) (f : Loop → Loop) : (d.updLoop i f).stw = d.stw := rfl
@[simp] theorem Dev.updLoop_pin (d : Dev) (i : Nat) (f : Loop → Loop) : (d.updLoop i f).pin = d.pin := rfl
@[simp] theorem Dev.updLoop_rdata (d : Dev) (i : Nat) (f : Loop → Loop) : (d.updLoop i f).rdata = d.rdata := rfl
@[simp] theorem Dev.updLoop_fresh (d : Dev) (i : Nat) (f : Loop → Loop) : (d.updLoop i f).fresh = d.fresh := rfl
@[simp] theorem Dev.updLoop_engine (d : Dev) (i : Nat) (f : Loop → Loop) (j : Nat) : (d.updLoop i f).engine j = d.engine j := rfl
@[simp] theorem Dev.updLoop_channel (d : Dev) (i : Nat) (f : Loop → Loop) (j : Nat) : (d.updLoop i f).channel j = d.channel j := rfl
@[simp] theorem Dev.updLoop_corr (d : Dev) (i : Nat) (f : Loop → Loop) (c' t' : Nat) : (d.updLoop i f).corr c' t' = d.corr c' t' := rfl
@[simp] theorem Dev.updLoop_queue (d : Dev) (i : Nat) (f : Loop → Loop) (j : Nat) : (d.updLoop i f).queue j = d.queue j := rfl
@[simp] theorem Dev.updLoop_source (d : Dev) (i : Nat) (f : Loop → Loop) (j : Nat) : (d.updLoop i f).source j = d.source j := rfl
@[simp] theorem Dev.updLoop_collector (d : Dev) (i : Nat) (f : Loop → Loop) (j : Nat) : (d.updLoop i f).collector j = d.collector j := rfl
@[simp] theorem Dev.updLoop_region (d : Dev) (i : Nat) (f : Loop → Loop) (j : Nat) : (d.updLoop i f).region j = d.region j := rfl
@[simp] theorem Dev.updLoop_slot (d : Dev) (i : Nat) (f : Loop → Loop) (j : Nat) : (d.updLoop i f).slot j = d.slot j := rfl
@[simp] theorem Dev.updLoop_port (d : Dev) (i : Nat) (f : Loop → Loop) (j : Nat) : (d.updLoop i f).port j = d.port j := rfl
@[simp] theorem Dev.updLoop_dirEnt (d : Dev) (i : Nat) (f : Loop → Loop) (j : Nat) : (d.updLoop i f).dirEnt j = d.dirEnt j := rfl
@[simp] theorem Dev.updLoop_domain (d : Dev) (i : Nat) (f : Loop → Loop) (j : Nat) : (d.updLoop i f).domain j = d.domain j := rfl
@[simp] theorem Dev.updLoop_live (d : Dev) (i : Nat) (f : Loop → Loop) : (d.updLoop i f).live = d.live := rfl

/-! ## setQueue -/

@[simp] theorem Dev.setQueue_fuse (d : Dev) (q : Nat) (x : Queue) : (d.setQueue q x).fuse = d.fuse := rfl
@[simp] theorem Dev.setQueue_time (d : Dev) (q : Nat) (x : Queue) : (d.setQueue q x).time = d.time := rfl
@[simp] theorem Dev.setQueue_mode (d : Dev) (q : Nat) (x : Queue) : (d.setQueue q x).mode = d.mode := rfl
@[simp] theorem Dev.setQueue_clk (d : Dev) (q : Nat) (x : Queue) : (d.setQueue q x).clk = d.clk := rfl
@[simp] theorem Dev.setQueue_evt (d : Dev) (q : Nat) (x : Queue) : (d.setQueue q x).evt = d.evt := rfl
@[simp] theorem Dev.setQueue_log (d : Dev) (q : Nat) (x : Queue) : (d.setQueue q x).log = d.log := rfl
@[simp] theorem Dev.setQueue_eng (d : Dev) (q : Nat) (x : Queue) : (d.setQueue q x).eng = d.eng := rfl
@[simp] theorem Dev.setQueue_tim (d : Dev) (q : Nat) (x : Queue) : (d.setQueue q x).tim = d.tim := rfl
@[simp] theorem Dev.setQueue_cal (d : Dev) (q : Nat) (x : Queue) : (d.setQueue q x).cal = d.cal := rfl
@[simp] theorem Dev.setQueue_fcp (d : Dev) (q : Nat) (x : Queue) : (d.setQueue q x).fcp = d.fcp := rfl
@[simp] theorem Dev.setQueue_rae (d : Dev) (q : Nat) (x : Queue) : (d.setQueue q x).rae = d.rae := rfl
@[simp] theorem Dev.setQueue_txn (d : Dev) (q : Nat) (x : Queue) : (d.setQueue q x).txn = d.txn := rfl
@[simp] theorem Dev.setQueue_byt (d : Dev) (q : Nat) (x : Queue) : (d.setQueue q x).byt = d.byt := rfl
@[simp] theorem Dev.setQueue_pwr (d : Dev) (q : Nat) (x : Queue) : (d.setQueue q x).pwr = d.pwr := rfl
@[simp] theorem Dev.setQueue_noc (d : Dev) (q : Nat) (x : Queue) : (d.setQueue q x).noc = d.noc := rfl
@[simp] theorem Dev.setQueue_nvs (d : Dev) (q : Nat) (x : Queue) : (d.setQueue q x).nvs = d.nvs := rfl
@[simp] theorem Dev.setQueue_fab (d : Dev) (q : Nat) (x : Queue) : (d.setQueue q x).fab = d.fab := rfl
@[simp] theorem Dev.setQueue_cfg (d : Dev) (q : Nat) (x : Queue) : (d.setQueue q x).cfg = d.cfg := rfl
@[simp] theorem Dev.setQueue_bst (d : Dev) (q : Nat) (x : Queue) : (d.setQueue q x).bst = d.bst := rfl
@[simp] theorem Dev.setQueue_lcy (d : Dev) (q : Nat) (x : Queue) : (d.setQueue q x).lcy = d.lcy := rfl
@[simp] theorem Dev.setQueue_ptr (d : Dev) (q : Nat) (x : Queue) : (d.setQueue q x).ptr = d.ptr := rfl
@[simp] theorem Dev.setQueue_vmi (d : Dev) (q : Nat) (x : Queue) : (d.setQueue q x).vmi = d.vmi := rfl
@[simp] theorem Dev.setQueue_tap (d : Dev) (q : Nat) (x : Queue) : (d.setQueue q x).tap = d.tap := rfl
@[simp] theorem Dev.setQueue_stw (d : Dev) (q : Nat) (x : Queue) : (d.setQueue q x).stw = d.stw := rfl
@[simp] theorem Dev.setQueue_pin (d : Dev) (q : Nat) (x : Queue) : (d.setQueue q x).pin = d.pin := rfl
@[simp] theorem Dev.setQueue_rdata (d : Dev) (q : Nat) (x : Queue) : (d.setQueue q x).rdata = d.rdata := rfl
@[simp] theorem Dev.setQueue_fresh (d : Dev) (q : Nat) (x : Queue) : (d.setQueue q x).fresh = d.fresh := rfl
@[simp] theorem Dev.setQueue_engine (d : Dev) (q : Nat) (x : Queue) (j : Nat) : (d.setQueue q x).engine j = d.engine j := rfl
@[simp] theorem Dev.setQueue_channel (d : Dev) (q : Nat) (x : Queue) (j : Nat) : (d.setQueue q x).channel j = d.channel j := rfl
@[simp] theorem Dev.setQueue_corr (d : Dev) (q : Nat) (x : Queue) (c' t' : Nat) : (d.setQueue q x).corr c' t' = d.corr c' t' := rfl
@[simp] theorem Dev.setQueue_loop (d : Dev) (q : Nat) (x : Queue) (j : Nat) : (d.setQueue q x).loop j = d.loop j := rfl
@[simp] theorem Dev.setQueue_source (d : Dev) (q : Nat) (x : Queue) (j : Nat) : (d.setQueue q x).source j = d.source j := rfl
@[simp] theorem Dev.setQueue_collector (d : Dev) (q : Nat) (x : Queue) (j : Nat) : (d.setQueue q x).collector j = d.collector j := rfl
@[simp] theorem Dev.setQueue_region (d : Dev) (q : Nat) (x : Queue) (j : Nat) : (d.setQueue q x).region j = d.region j := rfl
@[simp] theorem Dev.setQueue_slot (d : Dev) (q : Nat) (x : Queue) (j : Nat) : (d.setQueue q x).slot j = d.slot j := rfl
@[simp] theorem Dev.setQueue_port (d : Dev) (q : Nat) (x : Queue) (j : Nat) : (d.setQueue q x).port j = d.port j := rfl
@[simp] theorem Dev.setQueue_dirEnt (d : Dev) (q : Nat) (x : Queue) (j : Nat) : (d.setQueue q x).dirEnt j = d.dirEnt j := rfl
@[simp] theorem Dev.setQueue_domain (d : Dev) (q : Nat) (x : Queue) (j : Nat) : (d.setQueue q x).domain j = d.domain j := rfl
@[simp] theorem Dev.setQueue_live (d : Dev) (q : Nat) (x : Queue) : (d.setQueue q x).live = d.live := rfl

/-! ## updQueue -/

@[simp] theorem Dev.updQueue_fuse (d : Dev) (q : Nat) (f : Queue → Queue) : (d.updQueue q f).fuse = d.fuse := rfl
@[simp] theorem Dev.updQueue_time (d : Dev) (q : Nat) (f : Queue → Queue) : (d.updQueue q f).time = d.time := rfl
@[simp] theorem Dev.updQueue_mode (d : Dev) (q : Nat) (f : Queue → Queue) : (d.updQueue q f).mode = d.mode := rfl
@[simp] theorem Dev.updQueue_clk (d : Dev) (q : Nat) (f : Queue → Queue) : (d.updQueue q f).clk = d.clk := rfl
@[simp] theorem Dev.updQueue_evt (d : Dev) (q : Nat) (f : Queue → Queue) : (d.updQueue q f).evt = d.evt := rfl
@[simp] theorem Dev.updQueue_log (d : Dev) (q : Nat) (f : Queue → Queue) : (d.updQueue q f).log = d.log := rfl
@[simp] theorem Dev.updQueue_eng (d : Dev) (q : Nat) (f : Queue → Queue) : (d.updQueue q f).eng = d.eng := rfl
@[simp] theorem Dev.updQueue_tim (d : Dev) (q : Nat) (f : Queue → Queue) : (d.updQueue q f).tim = d.tim := rfl
@[simp] theorem Dev.updQueue_cal (d : Dev) (q : Nat) (f : Queue → Queue) : (d.updQueue q f).cal = d.cal := rfl
@[simp] theorem Dev.updQueue_fcp (d : Dev) (q : Nat) (f : Queue → Queue) : (d.updQueue q f).fcp = d.fcp := rfl
@[simp] theorem Dev.updQueue_rae (d : Dev) (q : Nat) (f : Queue → Queue) : (d.updQueue q f).rae = d.rae := rfl
@[simp] theorem Dev.updQueue_txn (d : Dev) (q : Nat) (f : Queue → Queue) : (d.updQueue q f).txn = d.txn := rfl
@[simp] theorem Dev.updQueue_byt (d : Dev) (q : Nat) (f : Queue → Queue) : (d.updQueue q f).byt = d.byt := rfl
@[simp] theorem Dev.updQueue_pwr (d : Dev) (q : Nat) (f : Queue → Queue) : (d.updQueue q f).pwr = d.pwr := rfl
@[simp] theorem Dev.updQueue_noc (d : Dev) (q : Nat) (f : Queue → Queue) : (d.updQueue q f).noc = d.noc := rfl
@[simp] theorem Dev.updQueue_nvs (d : Dev) (q : Nat) (f : Queue → Queue) : (d.updQueue q f).nvs = d.nvs := rfl
@[simp] theorem Dev.updQueue_fab (d : Dev) (q : Nat) (f : Queue → Queue) : (d.updQueue q f).fab = d.fab := rfl
@[simp] theorem Dev.updQueue_cfg (d : Dev) (q : Nat) (f : Queue → Queue) : (d.updQueue q f).cfg = d.cfg := rfl
@[simp] theorem Dev.updQueue_bst (d : Dev) (q : Nat) (f : Queue → Queue) : (d.updQueue q f).bst = d.bst := rfl
@[simp] theorem Dev.updQueue_lcy (d : Dev) (q : Nat) (f : Queue → Queue) : (d.updQueue q f).lcy = d.lcy := rfl
@[simp] theorem Dev.updQueue_ptr (d : Dev) (q : Nat) (f : Queue → Queue) : (d.updQueue q f).ptr = d.ptr := rfl
@[simp] theorem Dev.updQueue_vmi (d : Dev) (q : Nat) (f : Queue → Queue) : (d.updQueue q f).vmi = d.vmi := rfl
@[simp] theorem Dev.updQueue_tap (d : Dev) (q : Nat) (f : Queue → Queue) : (d.updQueue q f).tap = d.tap := rfl
@[simp] theorem Dev.updQueue_stw (d : Dev) (q : Nat) (f : Queue → Queue) : (d.updQueue q f).stw = d.stw := rfl
@[simp] theorem Dev.updQueue_pin (d : Dev) (q : Nat) (f : Queue → Queue) : (d.updQueue q f).pin = d.pin := rfl
@[simp] theorem Dev.updQueue_rdata (d : Dev) (q : Nat) (f : Queue → Queue) : (d.updQueue q f).rdata = d.rdata := rfl
@[simp] theorem Dev.updQueue_fresh (d : Dev) (q : Nat) (f : Queue → Queue) : (d.updQueue q f).fresh = d.fresh := rfl
@[simp] theorem Dev.updQueue_engine (d : Dev) (q : Nat) (f : Queue → Queue) (j : Nat) : (d.updQueue q f).engine j = d.engine j := rfl
@[simp] theorem Dev.updQueue_channel (d : Dev) (q : Nat) (f : Queue → Queue) (j : Nat) : (d.updQueue q f).channel j = d.channel j := rfl
@[simp] theorem Dev.updQueue_corr (d : Dev) (q : Nat) (f : Queue → Queue) (c' t' : Nat) : (d.updQueue q f).corr c' t' = d.corr c' t' := rfl
@[simp] theorem Dev.updQueue_loop (d : Dev) (q : Nat) (f : Queue → Queue) (j : Nat) : (d.updQueue q f).loop j = d.loop j := rfl
@[simp] theorem Dev.updQueue_source (d : Dev) (q : Nat) (f : Queue → Queue) (j : Nat) : (d.updQueue q f).source j = d.source j := rfl
@[simp] theorem Dev.updQueue_collector (d : Dev) (q : Nat) (f : Queue → Queue) (j : Nat) : (d.updQueue q f).collector j = d.collector j := rfl
@[simp] theorem Dev.updQueue_region (d : Dev) (q : Nat) (f : Queue → Queue) (j : Nat) : (d.updQueue q f).region j = d.region j := rfl
@[simp] theorem Dev.updQueue_slot (d : Dev) (q : Nat) (f : Queue → Queue) (j : Nat) : (d.updQueue q f).slot j = d.slot j := rfl
@[simp] theorem Dev.updQueue_port (d : Dev) (q : Nat) (f : Queue → Queue) (j : Nat) : (d.updQueue q f).port j = d.port j := rfl
@[simp] theorem Dev.updQueue_dirEnt (d : Dev) (q : Nat) (f : Queue → Queue) (j : Nat) : (d.updQueue q f).dirEnt j = d.dirEnt j := rfl
@[simp] theorem Dev.updQueue_domain (d : Dev) (q : Nat) (f : Queue → Queue) (j : Nat) : (d.updQueue q f).domain j = d.domain j := rfl
@[simp] theorem Dev.updQueue_live (d : Dev) (q : Nat) (f : Queue → Queue) : (d.updQueue q f).live = d.live := rfl

/-! ## updSource -/

@[simp] theorem Dev.updSource_fuse (d : Dev) (n : Nat) (f : Source → Source) : (d.updSource n f).fuse = d.fuse := rfl
@[simp] theorem Dev.updSource_time (d : Dev) (n : Nat) (f : Source → Source) : (d.updSource n f).time = d.time := rfl
@[simp] theorem Dev.updSource_mode (d : Dev) (n : Nat) (f : Source → Source) : (d.updSource n f).mode = d.mode := rfl
@[simp] theorem Dev.updSource_clk (d : Dev) (n : Nat) (f : Source → Source) : (d.updSource n f).clk = d.clk := rfl
@[simp] theorem Dev.updSource_evt (d : Dev) (n : Nat) (f : Source → Source) : (d.updSource n f).evt = d.evt := rfl
@[simp] theorem Dev.updSource_log (d : Dev) (n : Nat) (f : Source → Source) : (d.updSource n f).log = d.log := rfl
@[simp] theorem Dev.updSource_cmd (d : Dev) (n : Nat) (f : Source → Source) : (d.updSource n f).cmd = d.cmd := rfl
@[simp] theorem Dev.updSource_eng (d : Dev) (n : Nat) (f : Source → Source) : (d.updSource n f).eng = d.eng := rfl
@[simp] theorem Dev.updSource_tim (d : Dev) (n : Nat) (f : Source → Source) : (d.updSource n f).tim = d.tim := rfl
@[simp] theorem Dev.updSource_cal (d : Dev) (n : Nat) (f : Source → Source) : (d.updSource n f).cal = d.cal := rfl
@[simp] theorem Dev.updSource_rae (d : Dev) (n : Nat) (f : Source → Source) : (d.updSource n f).rae = d.rae := rfl
@[simp] theorem Dev.updSource_txn (d : Dev) (n : Nat) (f : Source → Source) : (d.updSource n f).txn = d.txn := rfl
@[simp] theorem Dev.updSource_byt (d : Dev) (n : Nat) (f : Source → Source) : (d.updSource n f).byt = d.byt := rfl
@[simp] theorem Dev.updSource_pwr (d : Dev) (n : Nat) (f : Source → Source) : (d.updSource n f).pwr = d.pwr := rfl
@[simp] theorem Dev.updSource_noc (d : Dev) (n : Nat) (f : Source → Source) : (d.updSource n f).noc = d.noc := rfl
@[simp] theorem Dev.updSource_nvs (d : Dev) (n : Nat) (f : Source → Source) : (d.updSource n f).nvs = d.nvs := rfl
@[simp] theorem Dev.updSource_fab (d : Dev) (n : Nat) (f : Source → Source) : (d.updSource n f).fab = d.fab := rfl
@[simp] theorem Dev.updSource_cfg (d : Dev) (n : Nat) (f : Source → Source) : (d.updSource n f).cfg = d.cfg := rfl
@[simp] theorem Dev.updSource_bst (d : Dev) (n : Nat) (f : Source → Source) : (d.updSource n f).bst = d.bst := rfl
@[simp] theorem Dev.updSource_lcy (d : Dev) (n : Nat) (f : Source → Source) : (d.updSource n f).lcy = d.lcy := rfl
@[simp] theorem Dev.updSource_ptr (d : Dev) (n : Nat) (f : Source → Source) : (d.updSource n f).ptr = d.ptr := rfl
@[simp] theorem Dev.updSource_vmi (d : Dev) (n : Nat) (f : Source → Source) : (d.updSource n f).vmi = d.vmi := rfl
@[simp] theorem Dev.updSource_tap (d : Dev) (n : Nat) (f : Source → Source) : (d.updSource n f).tap = d.tap := rfl
@[simp] theorem Dev.updSource_stw (d : Dev) (n : Nat) (f : Source → Source) : (d.updSource n f).stw = d.stw := rfl
@[simp] theorem Dev.updSource_pin (d : Dev) (n : Nat) (f : Source → Source) : (d.updSource n f).pin = d.pin := rfl
@[simp] theorem Dev.updSource_rdata (d : Dev) (n : Nat) (f : Source → Source) : (d.updSource n f).rdata = d.rdata := rfl
@[simp] theorem Dev.updSource_fresh (d : Dev) (n : Nat) (f : Source → Source) : (d.updSource n f).fresh = d.fresh := rfl
@[simp] theorem Dev.updSource_engine (d : Dev) (n : Nat) (f : Source → Source) (j : Nat) : (d.updSource n f).engine j = d.engine j := rfl
@[simp] theorem Dev.updSource_channel (d : Dev) (n : Nat) (f : Source → Source) (j : Nat) : (d.updSource n f).channel j = d.channel j := rfl
@[simp] theorem Dev.updSource_corr (d : Dev) (n : Nat) (f : Source → Source) (c' t' : Nat) : (d.updSource n f).corr c' t' = d.corr c' t' := rfl
@[simp] theorem Dev.updSource_loop (d : Dev) (n : Nat) (f : Source → Source) (j : Nat) : (d.updSource n f).loop j = d.loop j := rfl
@[simp] theorem Dev.updSource_queue (d : Dev) (n : Nat) (f : Source → Source) (j : Nat) : (d.updSource n f).queue j = d.queue j := rfl
@[simp] theorem Dev.updSource_region (d : Dev) (n : Nat) (f : Source → Source) (j : Nat) : (d.updSource n f).region j = d.region j := rfl
@[simp] theorem Dev.updSource_slot (d : Dev) (n : Nat) (f : Source → Source) (j : Nat) : (d.updSource n f).slot j = d.slot j := rfl
@[simp] theorem Dev.updSource_port (d : Dev) (n : Nat) (f : Source → Source) (j : Nat) : (d.updSource n f).port j = d.port j := rfl
@[simp] theorem Dev.updSource_dirEnt (d : Dev) (n : Nat) (f : Source → Source) (j : Nat) : (d.updSource n f).dirEnt j = d.dirEnt j := rfl
@[simp] theorem Dev.updSource_domain (d : Dev) (n : Nat) (f : Source → Source) (j : Nat) : (d.updSource n f).domain j = d.domain j := rfl
@[simp] theorem Dev.updSource_live (d : Dev) (n : Nat) (f : Source → Source) : (d.updSource n f).live = d.live := rfl

/-! ## setCollector -/

@[simp] theorem Dev.setCollector_fuse (d : Dev) (k : Nat) (x : Collector) : (d.setCollector k x).fuse = d.fuse := rfl
@[simp] theorem Dev.setCollector_time (d : Dev) (k : Nat) (x : Collector) : (d.setCollector k x).time = d.time := rfl
@[simp] theorem Dev.setCollector_mode (d : Dev) (k : Nat) (x : Collector) : (d.setCollector k x).mode = d.mode := rfl
@[simp] theorem Dev.setCollector_clk (d : Dev) (k : Nat) (x : Collector) : (d.setCollector k x).clk = d.clk := rfl
@[simp] theorem Dev.setCollector_evt (d : Dev) (k : Nat) (x : Collector) : (d.setCollector k x).evt = d.evt := rfl
@[simp] theorem Dev.setCollector_log (d : Dev) (k : Nat) (x : Collector) : (d.setCollector k x).log = d.log := rfl
@[simp] theorem Dev.setCollector_cmd (d : Dev) (k : Nat) (x : Collector) : (d.setCollector k x).cmd = d.cmd := rfl
@[simp] theorem Dev.setCollector_eng (d : Dev) (k : Nat) (x : Collector) : (d.setCollector k x).eng = d.eng := rfl
@[simp] theorem Dev.setCollector_tim (d : Dev) (k : Nat) (x : Collector) : (d.setCollector k x).tim = d.tim := rfl
@[simp] theorem Dev.setCollector_cal (d : Dev) (k : Nat) (x : Collector) : (d.setCollector k x).cal = d.cal := rfl
@[simp] theorem Dev.setCollector_rae (d : Dev) (k : Nat) (x : Collector) : (d.setCollector k x).rae = d.rae := rfl
@[simp] theorem Dev.setCollector_txn (d : Dev) (k : Nat) (x : Collector) : (d.setCollector k x).txn = d.txn := rfl
@[simp] theorem Dev.setCollector_byt (d : Dev) (k : Nat) (x : Collector) : (d.setCollector k x).byt = d.byt := rfl
@[simp] theorem Dev.setCollector_pwr (d : Dev) (k : Nat) (x : Collector) : (d.setCollector k x).pwr = d.pwr := rfl
@[simp] theorem Dev.setCollector_noc (d : Dev) (k : Nat) (x : Collector) : (d.setCollector k x).noc = d.noc := rfl
@[simp] theorem Dev.setCollector_nvs (d : Dev) (k : Nat) (x : Collector) : (d.setCollector k x).nvs = d.nvs := rfl
@[simp] theorem Dev.setCollector_fab (d : Dev) (k : Nat) (x : Collector) : (d.setCollector k x).fab = d.fab := rfl
@[simp] theorem Dev.setCollector_cfg (d : Dev) (k : Nat) (x : Collector) : (d.setCollector k x).cfg = d.cfg := rfl
@[simp] theorem Dev.setCollector_bst (d : Dev) (k : Nat) (x : Collector) : (d.setCollector k x).bst = d.bst := rfl
@[simp] theorem Dev.setCollector_lcy (d : Dev) (k : Nat) (x : Collector) : (d.setCollector k x).lcy = d.lcy := rfl
@[simp] theorem Dev.setCollector_ptr (d : Dev) (k : Nat) (x : Collector) : (d.setCollector k x).ptr = d.ptr := rfl
@[simp] theorem Dev.setCollector_vmi (d : Dev) (k : Nat) (x : Collector) : (d.setCollector k x).vmi = d.vmi := rfl
@[simp] theorem Dev.setCollector_tap (d : Dev) (k : Nat) (x : Collector) : (d.setCollector k x).tap = d.tap := rfl
@[simp] theorem Dev.setCollector_stw (d : Dev) (k : Nat) (x : Collector) : (d.setCollector k x).stw = d.stw := rfl
@[simp] theorem Dev.setCollector_pin (d : Dev) (k : Nat) (x : Collector) : (d.setCollector k x).pin = d.pin := rfl
@[simp] theorem Dev.setCollector_rdata (d : Dev) (k : Nat) (x : Collector) : (d.setCollector k x).rdata = d.rdata := rfl
@[simp] theorem Dev.setCollector_fresh (d : Dev) (k : Nat) (x : Collector) : (d.setCollector k x).fresh = d.fresh := rfl
@[simp] theorem Dev.setCollector_engine (d : Dev) (k : Nat) (x : Collector) (j : Nat) : (d.setCollector k x).engine j = d.engine j := rfl
@[simp] theorem Dev.setCollector_channel (d : Dev) (k : Nat) (x : Collector) (j : Nat) : (d.setCollector k x).channel j = d.channel j := rfl
@[simp] theorem Dev.setCollector_corr (d : Dev) (k : Nat) (x : Collector) (c' t' : Nat) : (d.setCollector k x).corr c' t' = d.corr c' t' := rfl
@[simp] theorem Dev.setCollector_loop (d : Dev) (k : Nat) (x : Collector) (j : Nat) : (d.setCollector k x).loop j = d.loop j := rfl
@[simp] theorem Dev.setCollector_queue (d : Dev) (k : Nat) (x : Collector) (j : Nat) : (d.setCollector k x).queue j = d.queue j := rfl
@[simp] theorem Dev.setCollector_region (d : Dev) (k : Nat) (x : Collector) (j : Nat) : (d.setCollector k x).region j = d.region j := rfl
@[simp] theorem Dev.setCollector_slot (d : Dev) (k : Nat) (x : Collector) (j : Nat) : (d.setCollector k x).slot j = d.slot j := rfl
@[simp] theorem Dev.setCollector_port (d : Dev) (k : Nat) (x : Collector) (j : Nat) : (d.setCollector k x).port j = d.port j := rfl
@[simp] theorem Dev.setCollector_dirEnt (d : Dev) (k : Nat) (x : Collector) (j : Nat) : (d.setCollector k x).dirEnt j = d.dirEnt j := rfl
@[simp] theorem Dev.setCollector_domain (d : Dev) (k : Nat) (x : Collector) (j : Nat) : (d.setCollector k x).domain j = d.domain j := rfl
@[simp] theorem Dev.setCollector_live (d : Dev) (k : Nat) (x : Collector) : (d.setCollector k x).live = d.live := rfl

/-! ## updCollector -/

@[simp] theorem Dev.updCollector_fuse (d : Dev) (k : Nat) (f : Collector → Collector) : (d.updCollector k f).fuse = d.fuse := rfl
@[simp] theorem Dev.updCollector_time (d : Dev) (k : Nat) (f : Collector → Collector) : (d.updCollector k f).time = d.time := rfl
@[simp] theorem Dev.updCollector_mode (d : Dev) (k : Nat) (f : Collector → Collector) : (d.updCollector k f).mode = d.mode := rfl
@[simp] theorem Dev.updCollector_clk (d : Dev) (k : Nat) (f : Collector → Collector) : (d.updCollector k f).clk = d.clk := rfl
@[simp] theorem Dev.updCollector_evt (d : Dev) (k : Nat) (f : Collector → Collector) : (d.updCollector k f).evt = d.evt := rfl
@[simp] theorem Dev.updCollector_log (d : Dev) (k : Nat) (f : Collector → Collector) : (d.updCollector k f).log = d.log := rfl
@[simp] theorem Dev.updCollector_cmd (d : Dev) (k : Nat) (f : Collector → Collector) : (d.updCollector k f).cmd = d.cmd := rfl
@[simp] theorem Dev.updCollector_eng (d : Dev) (k : Nat) (f : Collector → Collector) : (d.updCollector k f).eng = d.eng := rfl
@[simp] theorem Dev.updCollector_tim (d : Dev) (k : Nat) (f : Collector → Collector) : (d.updCollector k f).tim = d.tim := rfl
@[simp] theorem Dev.updCollector_cal (d : Dev) (k : Nat) (f : Collector → Collector) : (d.updCollector k f).cal = d.cal := rfl
@[simp] theorem Dev.updCollector_rae (d : Dev) (k : Nat) (f : Collector → Collector) : (d.updCollector k f).rae = d.rae := rfl
@[simp] theorem Dev.updCollector_txn (d : Dev) (k : Nat) (f : Collector → Collector) : (d.updCollector k f).txn = d.txn := rfl
@[simp] theorem Dev.updCollector_byt (d : Dev) (k : Nat) (f : Collector → Collector) : (d.updCollector k f).byt = d.byt := rfl
@[simp] theorem Dev.updCollector_pwr (d : Dev) (k : Nat) (f : Collector → Collector) : (d.updCollector k f).pwr = d.pwr := rfl
@[simp] theorem Dev.updCollector_noc (d : Dev) (k : Nat) (f : Collector → Collector) : (d.updCollector k f).noc = d.noc := rfl
@[simp] theorem Dev.updCollector_nvs (d : Dev) (k : Nat) (f : Collector → Collector) : (d.updCollector k f).nvs = d.nvs := rfl
@[simp] theorem Dev.updCollector_fab (d : Dev) (k : Nat) (f : Collector → Collector) : (d.updCollector k f).fab = d.fab := rfl
@[simp] theorem Dev.updCollector_cfg (d : Dev) (k : Nat) (f : Collector → Collector) : (d.updCollector k f).cfg = d.cfg := rfl
@[simp] theorem Dev.updCollector_bst (d : Dev) (k : Nat) (f : Collector → Collector) : (d.updCollector k f).bst = d.bst := rfl
@[simp] theorem Dev.updCollector_lcy (d : Dev) (k : Nat) (f : Collector → Collector) : (d.updCollector k f).lcy = d.lcy := rfl
@[simp] theorem Dev.updCollector_ptr (d : Dev) (k : Nat) (f : Collector → Collector) : (d.updCollector k f).ptr = d.ptr := rfl
@[simp] theorem Dev.updCollector_vmi (d : Dev) (k : Nat) (f : Collector → Collector) : (d.updCollector k f).vmi = d.vmi := rfl
@[simp] theorem Dev.updCollector_tap (d : Dev) (k : Nat) (f : Collector → Collector) : (d.updCollector k f).tap = d.tap := rfl
@[simp] theorem Dev.updCollector_stw (d : Dev) (k : Nat) (f : Collector → Collector) : (d.updCollector k f).stw = d.stw := rfl
@[simp] theorem Dev.updCollector_pin (d : Dev) (k : Nat) (f : Collector → Collector) : (d.updCollector k f).pin = d.pin := rfl
@[simp] theorem Dev.updCollector_rdata (d : Dev) (k : Nat) (f : Collector → Collector) : (d.updCollector k f).rdata = d.rdata := rfl
@[simp] theorem Dev.updCollector_fresh (d : Dev) (k : Nat) (f : Collector → Collector) : (d.updCollector k f).fresh = d.fresh := rfl
@[simp] theorem Dev.updCollector_engine (d : Dev) (k : Nat) (f : Collector → Collector) (j : Nat) : (d.updCollector k f).engine j = d.engine j := rfl
@[simp] theorem Dev.updCollector_channel (d : Dev) (k : Nat) (f : Collector → Collector) (j : Nat) : (d.updCollector k f).channel j = d.channel j := rfl
@[simp] theorem Dev.updCollector_corr (d : Dev) (k : Nat) (f : Collector → Collector) (c' t' : Nat) : (d.updCollector k f).corr c' t' = d.corr c' t' := rfl
@[simp] theorem Dev.updCollector_loop (d : Dev) (k : Nat) (f : Collector → Collector) (j : Nat) : (d.updCollector k f).loop j = d.loop j := rfl
@[simp] theorem Dev.updCollector_queue (d : Dev) (k : Nat) (f : Collector → Collector) (j : Nat) : (d.updCollector k f).queue j = d.queue j := rfl
@[simp] theorem Dev.updCollector_region (d : Dev) (k : Nat) (f : Collector → Collector) (j : Nat) : (d.updCollector k f).region j = d.region j := rfl
@[simp] theorem Dev.updCollector_slot (d : Dev) (k : Nat) (f : Collector → Collector) (j : Nat) : (d.updCollector k f).slot j = d.slot j := rfl
@[simp] theorem Dev.updCollector_port (d : Dev) (k : Nat) (f : Collector → Collector) (j : Nat) : (d.updCollector k f).port j = d.port j := rfl
@[simp] theorem Dev.updCollector_dirEnt (d : Dev) (k : Nat) (f : Collector → Collector) (j : Nat) : (d.updCollector k f).dirEnt j = d.dirEnt j := rfl
@[simp] theorem Dev.updCollector_domain (d : Dev) (k : Nat) (f : Collector → Collector) (j : Nat) : (d.updCollector k f).domain j = d.domain j := rfl
@[simp] theorem Dev.updCollector_live (d : Dev) (k : Nat) (f : Collector → Collector) : (d.updCollector k f).live = d.live := rfl

/-! ## updRegion -/

@[simp] theorem Dev.updRegion_fuse (d : Dev) (r : Nat) (f : Region → Region) : (d.updRegion r f).fuse = d.fuse := rfl
@[simp] theorem Dev.updRegion_time (d : Dev) (r : Nat) (f : Region → Region) : (d.updRegion r f).time = d.time := rfl
@[simp] theorem Dev.updRegion_mode (d : Dev) (r : Nat) (f : Region → Region) : (d.updRegion r f).mode = d.mode := rfl
@[simp] theorem Dev.updRegion_clk (d : Dev) (r : Nat) (f : Region → Region) : (d.updRegion r f).clk = d.clk := rfl
@[simp] theorem Dev.updRegion_evt (d : Dev) (r : Nat) (f : Region → Region) : (d.updRegion r f).evt = d.evt := rfl
@[simp] theorem Dev.updRegion_log (d : Dev) (r : Nat) (f : Region → Region) : (d.updRegion r f).log = d.log := rfl
@[simp] theorem Dev.updRegion_cmd (d : Dev) (r : Nat) (f : Region → Region) : (d.updRegion r f).cmd = d.cmd := rfl
@[simp] theorem Dev.updRegion_eng (d : Dev) (r : Nat) (f : Region → Region) : (d.updRegion r f).eng = d.eng := rfl
@[simp] theorem Dev.updRegion_tim (d : Dev) (r : Nat) (f : Region → Region) : (d.updRegion r f).tim = d.tim := rfl
@[simp] theorem Dev.updRegion_cal (d : Dev) (r : Nat) (f : Region → Region) : (d.updRegion r f).cal = d.cal := rfl
@[simp] theorem Dev.updRegion_fcp (d : Dev) (r : Nat) (f : Region → Region) : (d.updRegion r f).fcp = d.fcp := rfl
@[simp] theorem Dev.updRegion_txn (d : Dev) (r : Nat) (f : Region → Region) : (d.updRegion r f).txn = d.txn := rfl
@[simp] theorem Dev.updRegion_byt (d : Dev) (r : Nat) (f : Region → Region) : (d.updRegion r f).byt = d.byt := rfl
@[simp] theorem Dev.updRegion_pwr (d : Dev) (r : Nat) (f : Region → Region) : (d.updRegion r f).pwr = d.pwr := rfl
@[simp] theorem Dev.updRegion_noc (d : Dev) (r : Nat) (f : Region → Region) : (d.updRegion r f).noc = d.noc := rfl
@[simp] theorem Dev.updRegion_nvs (d : Dev) (r : Nat) (f : Region → Region) : (d.updRegion r f).nvs = d.nvs := rfl
@[simp] theorem Dev.updRegion_fab (d : Dev) (r : Nat) (f : Region → Region) : (d.updRegion r f).fab = d.fab := rfl
@[simp] theorem Dev.updRegion_cfg (d : Dev) (r : Nat) (f : Region → Region) : (d.updRegion r f).cfg = d.cfg := rfl
@[simp] theorem Dev.updRegion_bst (d : Dev) (r : Nat) (f : Region → Region) : (d.updRegion r f).bst = d.bst := rfl
@[simp] theorem Dev.updRegion_lcy (d : Dev) (r : Nat) (f : Region → Region) : (d.updRegion r f).lcy = d.lcy := rfl
@[simp] theorem Dev.updRegion_ptr (d : Dev) (r : Nat) (f : Region → Region) : (d.updRegion r f).ptr = d.ptr := rfl
@[simp] theorem Dev.updRegion_vmi (d : Dev) (r : Nat) (f : Region → Region) : (d.updRegion r f).vmi = d.vmi := rfl
@[simp] theorem Dev.updRegion_tap (d : Dev) (r : Nat) (f : Region → Region) : (d.updRegion r f).tap = d.tap := rfl
@[simp] theorem Dev.updRegion_stw (d : Dev) (r : Nat) (f : Region → Region) : (d.updRegion r f).stw = d.stw := rfl
@[simp] theorem Dev.updRegion_pin (d : Dev) (r : Nat) (f : Region → Region) : (d.updRegion r f).pin = d.pin := rfl
@[simp] theorem Dev.updRegion_rdata (d : Dev) (r : Nat) (f : Region → Region) : (d.updRegion r f).rdata = d.rdata := rfl
@[simp] theorem Dev.updRegion_fresh (d : Dev) (r : Nat) (f : Region → Region) : (d.updRegion r f).fresh = d.fresh := rfl
@[simp] theorem Dev.updRegion_engine (d : Dev) (r : Nat) (f : Region → Region) (j : Nat) : (d.updRegion r f).engine j = d.engine j := rfl
@[simp] theorem Dev.updRegion_channel (d : Dev) (r : Nat) (f : Region → Region) (j : Nat) : (d.updRegion r f).channel j = d.channel j := rfl
@[simp] theorem Dev.updRegion_corr (d : Dev) (r : Nat) (f : Region → Region) (c' t' : Nat) : (d.updRegion r f).corr c' t' = d.corr c' t' := rfl
@[simp] theorem Dev.updRegion_loop (d : Dev) (r : Nat) (f : Region → Region) (j : Nat) : (d.updRegion r f).loop j = d.loop j := rfl
@[simp] theorem Dev.updRegion_queue (d : Dev) (r : Nat) (f : Region → Region) (j : Nat) : (d.updRegion r f).queue j = d.queue j := rfl
@[simp] theorem Dev.updRegion_source (d : Dev) (r : Nat) (f : Region → Region) (j : Nat) : (d.updRegion r f).source j = d.source j := rfl
@[simp] theorem Dev.updRegion_collector (d : Dev) (r : Nat) (f : Region → Region) (j : Nat) : (d.updRegion r f).collector j = d.collector j := rfl
@[simp] theorem Dev.updRegion_slot (d : Dev) (r : Nat) (f : Region → Region) (j : Nat) : (d.updRegion r f).slot j = d.slot j := rfl
@[simp] theorem Dev.updRegion_port (d : Dev) (r : Nat) (f : Region → Region) (j : Nat) : (d.updRegion r f).port j = d.port j := rfl
@[simp] theorem Dev.updRegion_dirEnt (d : Dev) (r : Nat) (f : Region → Region) (j : Nat) : (d.updRegion r f).dirEnt j = d.dirEnt j := rfl
@[simp] theorem Dev.updRegion_domain (d : Dev) (r : Nat) (f : Region → Region) (j : Nat) : (d.updRegion r f).domain j = d.domain j := rfl
@[simp] theorem Dev.updRegion_live (d : Dev) (r : Nat) (f : Region → Region) : (d.updRegion r f).live = d.live := rfl

/-! ## setSlot -/

@[simp] theorem Dev.setSlot_fuse (d : Dev) (t : Nat) (x : TxnSlot) : (d.setSlot t x).fuse = d.fuse := rfl
@[simp] theorem Dev.setSlot_time (d : Dev) (t : Nat) (x : TxnSlot) : (d.setSlot t x).time = d.time := rfl
@[simp] theorem Dev.setSlot_mode (d : Dev) (t : Nat) (x : TxnSlot) : (d.setSlot t x).mode = d.mode := rfl
@[simp] theorem Dev.setSlot_clk (d : Dev) (t : Nat) (x : TxnSlot) : (d.setSlot t x).clk = d.clk := rfl
@[simp] theorem Dev.setSlot_evt (d : Dev) (t : Nat) (x : TxnSlot) : (d.setSlot t x).evt = d.evt := rfl
@[simp] theorem Dev.setSlot_log (d : Dev) (t : Nat) (x : TxnSlot) : (d.setSlot t x).log = d.log := rfl
@[simp] theorem Dev.setSlot_cmd (d : Dev) (t : Nat) (x : TxnSlot) : (d.setSlot t x).cmd = d.cmd := rfl
@[simp] theorem Dev.setSlot_eng (d : Dev) (t : Nat) (x : TxnSlot) : (d.setSlot t x).eng = d.eng := rfl
@[simp] theorem Dev.setSlot_tim (d : Dev) (t : Nat) (x : TxnSlot) : (d.setSlot t x).tim = d.tim := rfl
@[simp] theorem Dev.setSlot_cal (d : Dev) (t : Nat) (x : TxnSlot) : (d.setSlot t x).cal = d.cal := rfl
@[simp] theorem Dev.setSlot_fcp (d : Dev) (t : Nat) (x : TxnSlot) : (d.setSlot t x).fcp = d.fcp := rfl
@[simp] theorem Dev.setSlot_rae (d : Dev) (t : Nat) (x : TxnSlot) : (d.setSlot t x).rae = d.rae := rfl
@[simp] theorem Dev.setSlot_byt (d : Dev) (t : Nat) (x : TxnSlot) : (d.setSlot t x).byt = d.byt := rfl
@[simp] theorem Dev.setSlot_pwr (d : Dev) (t : Nat) (x : TxnSlot) : (d.setSlot t x).pwr = d.pwr := rfl
@[simp] theorem Dev.setSlot_noc (d : Dev) (t : Nat) (x : TxnSlot) : (d.setSlot t x).noc = d.noc := rfl
@[simp] theorem Dev.setSlot_nvs (d : Dev) (t : Nat) (x : TxnSlot) : (d.setSlot t x).nvs = d.nvs := rfl
@[simp] theorem Dev.setSlot_fab (d : Dev) (t : Nat) (x : TxnSlot) : (d.setSlot t x).fab = d.fab := rfl
@[simp] theorem Dev.setSlot_cfg (d : Dev) (t : Nat) (x : TxnSlot) : (d.setSlot t x).cfg = d.cfg := rfl
@[simp] theorem Dev.setSlot_bst (d : Dev) (t : Nat) (x : TxnSlot) : (d.setSlot t x).bst = d.bst := rfl
@[simp] theorem Dev.setSlot_lcy (d : Dev) (t : Nat) (x : TxnSlot) : (d.setSlot t x).lcy = d.lcy := rfl
@[simp] theorem Dev.setSlot_ptr (d : Dev) (t : Nat) (x : TxnSlot) : (d.setSlot t x).ptr = d.ptr := rfl
@[simp] theorem Dev.setSlot_vmi (d : Dev) (t : Nat) (x : TxnSlot) : (d.setSlot t x).vmi = d.vmi := rfl
@[simp] theorem Dev.setSlot_tap (d : Dev) (t : Nat) (x : TxnSlot) : (d.setSlot t x).tap = d.tap := rfl
@[simp] theorem Dev.setSlot_stw (d : Dev) (t : Nat) (x : TxnSlot) : (d.setSlot t x).stw = d.stw := rfl
@[simp] theorem Dev.setSlot_pin (d : Dev) (t : Nat) (x : TxnSlot) : (d.setSlot t x).pin = d.pin := rfl
@[simp] theorem Dev.setSlot_rdata (d : Dev) (t : Nat) (x : TxnSlot) : (d.setSlot t x).rdata = d.rdata := rfl
@[simp] theorem Dev.setSlot_fresh (d : Dev) (t : Nat) (x : TxnSlot) : (d.setSlot t x).fresh = d.fresh := rfl
@[simp] theorem Dev.setSlot_engine (d : Dev) (t : Nat) (x : TxnSlot) (j : Nat) : (d.setSlot t x).engine j = d.engine j := rfl
@[simp] theorem Dev.setSlot_channel (d : Dev) (t : Nat) (x : TxnSlot) (j : Nat) : (d.setSlot t x).channel j = d.channel j := rfl
@[simp] theorem Dev.setSlot_corr (d : Dev) (t : Nat) (x : TxnSlot) (c' t' : Nat) : (d.setSlot t x).corr c' t' = d.corr c' t' := rfl
@[simp] theorem Dev.setSlot_loop (d : Dev) (t : Nat) (x : TxnSlot) (j : Nat) : (d.setSlot t x).loop j = d.loop j := rfl
@[simp] theorem Dev.setSlot_queue (d : Dev) (t : Nat) (x : TxnSlot) (j : Nat) : (d.setSlot t x).queue j = d.queue j := rfl
@[simp] theorem Dev.setSlot_source (d : Dev) (t : Nat) (x : TxnSlot) (j : Nat) : (d.setSlot t x).source j = d.source j := rfl
@[simp] theorem Dev.setSlot_collector (d : Dev) (t : Nat) (x : TxnSlot) (j : Nat) : (d.setSlot t x).collector j = d.collector j := rfl
@[simp] theorem Dev.setSlot_region (d : Dev) (t : Nat) (x : TxnSlot) (j : Nat) : (d.setSlot t x).region j = d.region j := rfl
@[simp] theorem Dev.setSlot_port (d : Dev) (t : Nat) (x : TxnSlot) (j : Nat) : (d.setSlot t x).port j = d.port j := rfl
@[simp] theorem Dev.setSlot_dirEnt (d : Dev) (t : Nat) (x : TxnSlot) (j : Nat) : (d.setSlot t x).dirEnt j = d.dirEnt j := rfl
@[simp] theorem Dev.setSlot_domain (d : Dev) (t : Nat) (x : TxnSlot) (j : Nat) : (d.setSlot t x).domain j = d.domain j := rfl
@[simp] theorem Dev.setSlot_live (d : Dev) (t : Nat) (x : TxnSlot) : (d.setSlot t x).live = d.live := rfl

/-! ## updSlot -/

@[simp] theorem Dev.updSlot_fuse (d : Dev) (t : Nat) (f : TxnSlot → TxnSlot) : (d.updSlot t f).fuse = d.fuse := rfl
@[simp] theorem Dev.updSlot_time (d : Dev) (t : Nat) (f : TxnSlot → TxnSlot) : (d.updSlot t f).time = d.time := rfl
@[simp] theorem Dev.updSlot_mode (d : Dev) (t : Nat) (f : TxnSlot → TxnSlot) : (d.updSlot t f).mode = d.mode := rfl
@[simp] theorem Dev.updSlot_clk (d : Dev) (t : Nat) (f : TxnSlot → TxnSlot) : (d.updSlot t f).clk = d.clk := rfl
@[simp] theorem Dev.updSlot_evt (d : Dev) (t : Nat) (f : TxnSlot → TxnSlot) : (d.updSlot t f).evt = d.evt := rfl
@[simp] theorem Dev.updSlot_log (d : Dev) (t : Nat) (f : TxnSlot → TxnSlot) : (d.updSlot t f).log = d.log := rfl
@[simp] theorem Dev.updSlot_cmd (d : Dev) (t : Nat) (f : TxnSlot → TxnSlot) : (d.updSlot t f).cmd = d.cmd := rfl
@[simp] theorem Dev.updSlot_eng (d : Dev) (t : Nat) (f : TxnSlot → TxnSlot) : (d.updSlot t f).eng = d.eng := rfl
@[simp] theorem Dev.updSlot_tim (d : Dev) (t : Nat) (f : TxnSlot → TxnSlot) : (d.updSlot t f).tim = d.tim := rfl
@[simp] theorem Dev.updSlot_cal (d : Dev) (t : Nat) (f : TxnSlot → TxnSlot) : (d.updSlot t f).cal = d.cal := rfl
@[simp] theorem Dev.updSlot_fcp (d : Dev) (t : Nat) (f : TxnSlot → TxnSlot) : (d.updSlot t f).fcp = d.fcp := rfl
@[simp] theorem Dev.updSlot_rae (d : Dev) (t : Nat) (f : TxnSlot → TxnSlot) : (d.updSlot t f).rae = d.rae := rfl
@[simp] theorem Dev.updSlot_byt (d : Dev) (t : Nat) (f : TxnSlot → TxnSlot) : (d.updSlot t f).byt = d.byt := rfl
@[simp] theorem Dev.updSlot_pwr (d : Dev) (t : Nat) (f : TxnSlot → TxnSlot) : (d.updSlot t f).pwr = d.pwr := rfl
@[simp] theorem Dev.updSlot_noc (d : Dev) (t : Nat) (f : TxnSlot → TxnSlot) : (d.updSlot t f).noc = d.noc := rfl
@[simp] theorem Dev.updSlot_nvs (d : Dev) (t : Nat) (f : TxnSlot → TxnSlot) : (d.updSlot t f).nvs = d.nvs := rfl
@[simp] theorem Dev.updSlot_fab (d : Dev) (t : Nat) (f : TxnSlot → TxnSlot) : (d.updSlot t f).fab = d.fab := rfl
@[simp] theorem Dev.updSlot_cfg (d : Dev) (t : Nat) (f : TxnSlot → TxnSlot) : (d.updSlot t f).cfg = d.cfg := rfl
@[simp] theorem Dev.updSlot_bst (d : Dev) (t : Nat) (f : TxnSlot → TxnSlot) : (d.updSlot t f).bst = d.bst := rfl
@[simp] theorem Dev.updSlot_lcy (d : Dev) (t : Nat) (f : TxnSlot → TxnSlot) : (d.updSlot t f).lcy = d.lcy := rfl
@[simp] theorem Dev.updSlot_ptr (d : Dev) (t : Nat) (f : TxnSlot → TxnSlot) : (d.updSlot t f).ptr = d.ptr := rfl
@[simp] theorem Dev.updSlot_vmi (d : Dev) (t : Nat) (f : TxnSlot → TxnSlot) : (d.updSlot t f).vmi = d.vmi := rfl
@[simp] theorem Dev.updSlot_tap (d : Dev) (t : Nat) (f : TxnSlot → TxnSlot) : (d.updSlot t f).tap = d.tap := rfl
@[simp] theorem Dev.updSlot_stw (d : Dev) (t : Nat) (f : TxnSlot → TxnSlot) : (d.updSlot t f).stw = d.stw := rfl
@[simp] theorem Dev.updSlot_pin (d : Dev) (t : Nat) (f : TxnSlot → TxnSlot) : (d.updSlot t f).pin = d.pin := rfl
@[simp] theorem Dev.updSlot_rdata (d : Dev) (t : Nat) (f : TxnSlot → TxnSlot) : (d.updSlot t f).rdata = d.rdata := rfl
@[simp] theorem Dev.updSlot_fresh (d : Dev) (t : Nat) (f : TxnSlot → TxnSlot) : (d.updSlot t f).fresh = d.fresh := rfl
@[simp] theorem Dev.updSlot_engine (d : Dev) (t : Nat) (f : TxnSlot → TxnSlot) (j : Nat) : (d.updSlot t f).engine j = d.engine j := rfl
@[simp] theorem Dev.updSlot_channel (d : Dev) (t : Nat) (f : TxnSlot → TxnSlot) (j : Nat) : (d.updSlot t f).channel j = d.channel j := rfl
@[simp] theorem Dev.updSlot_corr (d : Dev) (t : Nat) (f : TxnSlot → TxnSlot) (c' t' : Nat) : (d.updSlot t f).corr c' t' = d.corr c' t' := rfl
@[simp] theorem Dev.updSlot_loop (d : Dev) (t : Nat) (f : TxnSlot → TxnSlot) (j : Nat) : (d.updSlot t f).loop j = d.loop j := rfl
@[simp] theorem Dev.updSlot_queue (d : Dev) (t : Nat) (f : TxnSlot → TxnSlot) (j : Nat) : (d.updSlot t f).queue j = d.queue j := rfl
@[simp] theorem Dev.updSlot_source (d : Dev) (t : Nat) (f : TxnSlot → TxnSlot) (j : Nat) : (d.updSlot t f).source j = d.source j := rfl
@[simp] theorem Dev.updSlot_collector (d : Dev) (t : Nat) (f : TxnSlot → TxnSlot) (j : Nat) : (d.updSlot t f).collector j = d.collector j := rfl
@[simp] theorem Dev.updSlot_region (d : Dev) (t : Nat) (f : TxnSlot → TxnSlot) (j : Nat) : (d.updSlot t f).region j = d.region j := rfl
@[simp] theorem Dev.updSlot_port (d : Dev) (t : Nat) (f : TxnSlot → TxnSlot) (j : Nat) : (d.updSlot t f).port j = d.port j := rfl
@[simp] theorem Dev.updSlot_dirEnt (d : Dev) (t : Nat) (f : TxnSlot → TxnSlot) (j : Nat) : (d.updSlot t f).dirEnt j = d.dirEnt j := rfl
@[simp] theorem Dev.updSlot_domain (d : Dev) (t : Nat) (f : TxnSlot → TxnSlot) (j : Nat) : (d.updSlot t f).domain j = d.domain j := rfl
@[simp] theorem Dev.updSlot_live (d : Dev) (t : Nat) (f : TxnSlot → TxnSlot) : (d.updSlot t f).live = d.live := rfl

/-! ## updPort -/

@[simp] theorem Dev.updPort_fuse (d : Dev) (p : Nat) (f : Port → Port) : (d.updPort p f).fuse = d.fuse := rfl
@[simp] theorem Dev.updPort_time (d : Dev) (p : Nat) (f : Port → Port) : (d.updPort p f).time = d.time := rfl
@[simp] theorem Dev.updPort_mode (d : Dev) (p : Nat) (f : Port → Port) : (d.updPort p f).mode = d.mode := rfl
@[simp] theorem Dev.updPort_clk (d : Dev) (p : Nat) (f : Port → Port) : (d.updPort p f).clk = d.clk := rfl
@[simp] theorem Dev.updPort_evt (d : Dev) (p : Nat) (f : Port → Port) : (d.updPort p f).evt = d.evt := rfl
@[simp] theorem Dev.updPort_log (d : Dev) (p : Nat) (f : Port → Port) : (d.updPort p f).log = d.log := rfl
@[simp] theorem Dev.updPort_cmd (d : Dev) (p : Nat) (f : Port → Port) : (d.updPort p f).cmd = d.cmd := rfl
@[simp] theorem Dev.updPort_eng (d : Dev) (p : Nat) (f : Port → Port) : (d.updPort p f).eng = d.eng := rfl
@[simp] theorem Dev.updPort_tim (d : Dev) (p : Nat) (f : Port → Port) : (d.updPort p f).tim = d.tim := rfl
@[simp] theorem Dev.updPort_cal (d : Dev) (p : Nat) (f : Port → Port) : (d.updPort p f).cal = d.cal := rfl
@[simp] theorem Dev.updPort_fcp (d : Dev) (p : Nat) (f : Port → Port) : (d.updPort p f).fcp = d.fcp := rfl
@[simp] theorem Dev.updPort_rae (d : Dev) (p : Nat) (f : Port → Port) : (d.updPort p f).rae = d.rae := rfl
@[simp] theorem Dev.updPort_txn (d : Dev) (p : Nat) (f : Port → Port) : (d.updPort p f).txn = d.txn := rfl
@[simp] theorem Dev.updPort_pwr (d : Dev) (p : Nat) (f : Port → Port) : (d.updPort p f).pwr = d.pwr := rfl
@[simp] theorem Dev.updPort_noc (d : Dev) (p : Nat) (f : Port → Port) : (d.updPort p f).noc = d.noc := rfl
@[simp] theorem Dev.updPort_nvs (d : Dev) (p : Nat) (f : Port → Port) : (d.updPort p f).nvs = d.nvs := rfl
@[simp] theorem Dev.updPort_fab (d : Dev) (p : Nat) (f : Port → Port) : (d.updPort p f).fab = d.fab := rfl
@[simp] theorem Dev.updPort_cfg (d : Dev) (p : Nat) (f : Port → Port) : (d.updPort p f).cfg = d.cfg := rfl
@[simp] theorem Dev.updPort_bst (d : Dev) (p : Nat) (f : Port → Port) : (d.updPort p f).bst = d.bst := rfl
@[simp] theorem Dev.updPort_lcy (d : Dev) (p : Nat) (f : Port → Port) : (d.updPort p f).lcy = d.lcy := rfl
@[simp] theorem Dev.updPort_ptr (d : Dev) (p : Nat) (f : Port → Port) : (d.updPort p f).ptr = d.ptr := rfl
@[simp] theorem Dev.updPort_vmi (d : Dev) (p : Nat) (f : Port → Port) : (d.updPort p f).vmi = d.vmi := rfl
@[simp] theorem Dev.updPort_tap (d : Dev) (p : Nat) (f : Port → Port) : (d.updPort p f).tap = d.tap := rfl
@[simp] theorem Dev.updPort_stw (d : Dev) (p : Nat) (f : Port → Port) : (d.updPort p f).stw = d.stw := rfl
@[simp] theorem Dev.updPort_pin (d : Dev) (p : Nat) (f : Port → Port) : (d.updPort p f).pin = d.pin := rfl
@[simp] theorem Dev.updPort_rdata (d : Dev) (p : Nat) (f : Port → Port) : (d.updPort p f).rdata = d.rdata := rfl
@[simp] theorem Dev.updPort_fresh (d : Dev) (p : Nat) (f : Port → Port) : (d.updPort p f).fresh = d.fresh := rfl
@[simp] theorem Dev.updPort_engine (d : Dev) (p : Nat) (f : Port → Port) (j : Nat) : (d.updPort p f).engine j = d.engine j := rfl
@[simp] theorem Dev.updPort_channel (d : Dev) (p : Nat) (f : Port → Port) (j : Nat) : (d.updPort p f).channel j = d.channel j := rfl
@[simp] theorem Dev.updPort_corr (d : Dev) (p : Nat) (f : Port → Port) (c' t' : Nat) : (d.updPort p f).corr c' t' = d.corr c' t' := rfl
@[simp] theorem Dev.updPort_loop (d : Dev) (p : Nat) (f : Port → Port) (j : Nat) : (d.updPort p f).loop j = d.loop j := rfl
@[simp] theorem Dev.updPort_queue (d : Dev) (p : Nat) (f : Port → Port) (j : Nat) : (d.updPort p f).queue j = d.queue j := rfl
@[simp] theorem Dev.updPort_source (d : Dev) (p : Nat) (f : Port → Port) (j : Nat) : (d.updPort p f).source j = d.source j := rfl
@[simp] theorem Dev.updPort_collector (d : Dev) (p : Nat) (f : Port → Port) (j : Nat) : (d.updPort p f).collector j = d.collector j := rfl
@[simp] theorem Dev.updPort_region (d : Dev) (p : Nat) (f : Port → Port) (j : Nat) : (d.updPort p f).region j = d.region j := rfl
@[simp] theorem Dev.updPort_slot (d : Dev) (p : Nat) (f : Port → Port) (j : Nat) : (d.updPort p f).slot j = d.slot j := rfl
@[simp] theorem Dev.updPort_domain (d : Dev) (p : Nat) (f : Port → Port) (j : Nat) : (d.updPort p f).domain j = d.domain j := rfl
@[simp] theorem Dev.updPort_live (d : Dev) (p : Nat) (f : Port → Port) : (d.updPort p f).live = d.live := rfl

/-! ## updDir -/

@[simp] theorem Dev.updDir_fuse (d : Dev) (a : Nat) (f : DirEnt → DirEnt) : (d.updDir a f).fuse = d.fuse := rfl
@[simp] theorem Dev.updDir_time (d : Dev) (a : Nat) (f : DirEnt → DirEnt) : (d.updDir a f).time = d.time := rfl
@[simp] theorem Dev.updDir_mode (d : Dev) (a : Nat) (f : DirEnt → DirEnt) : (d.updDir a f).mode = d.mode := rfl
@[simp] theorem Dev.updDir_clk (d : Dev) (a : Nat) (f : DirEnt → DirEnt) : (d.updDir a f).clk = d.clk := rfl
@[simp] theorem Dev.updDir_evt (d : Dev) (a : Nat) (f : DirEnt → DirEnt) : (d.updDir a f).evt = d.evt := rfl
@[simp] theorem Dev.updDir_log (d : Dev) (a : Nat) (f : DirEnt → DirEnt) : (d.updDir a f).log = d.log := rfl
@[simp] theorem Dev.updDir_cmd (d : Dev) (a : Nat) (f : DirEnt → DirEnt) : (d.updDir a f).cmd = d.cmd := rfl
@[simp] theorem Dev.updDir_eng (d : Dev) (a : Nat) (f : DirEnt → DirEnt) : (d.updDir a f).eng = d.eng := rfl
@[simp] theorem Dev.updDir_tim (d : Dev) (a : Nat) (f : DirEnt → DirEnt) : (d.updDir a f).tim = d.tim := rfl
@[simp] theorem Dev.updDir_cal (d : Dev) (a : Nat) (f : DirEnt → DirEnt) : (d.updDir a f).cal = d.cal := rfl
@[simp] theorem Dev.updDir_fcp (d : Dev) (a : Nat) (f : DirEnt → DirEnt) : (d.updDir a f).fcp = d.fcp := rfl
@[simp] theorem Dev.updDir_rae (d : Dev) (a : Nat) (f : DirEnt → DirEnt) : (d.updDir a f).rae = d.rae := rfl
@[simp] theorem Dev.updDir_txn (d : Dev) (a : Nat) (f : DirEnt → DirEnt) : (d.updDir a f).txn = d.txn := rfl
@[simp] theorem Dev.updDir_pwr (d : Dev) (a : Nat) (f : DirEnt → DirEnt) : (d.updDir a f).pwr = d.pwr := rfl
@[simp] theorem Dev.updDir_noc (d : Dev) (a : Nat) (f : DirEnt → DirEnt) : (d.updDir a f).noc = d.noc := rfl
@[simp] theorem Dev.updDir_nvs (d : Dev) (a : Nat) (f : DirEnt → DirEnt) : (d.updDir a f).nvs = d.nvs := rfl
@[simp] theorem Dev.updDir_fab (d : Dev) (a : Nat) (f : DirEnt → DirEnt) : (d.updDir a f).fab = d.fab := rfl
@[simp] theorem Dev.updDir_cfg (d : Dev) (a : Nat) (f : DirEnt → DirEnt) : (d.updDir a f).cfg = d.cfg := rfl
@[simp] theorem Dev.updDir_bst (d : Dev) (a : Nat) (f : DirEnt → DirEnt) : (d.updDir a f).bst = d.bst := rfl
@[simp] theorem Dev.updDir_lcy (d : Dev) (a : Nat) (f : DirEnt → DirEnt) : (d.updDir a f).lcy = d.lcy := rfl
@[simp] theorem Dev.updDir_ptr (d : Dev) (a : Nat) (f : DirEnt → DirEnt) : (d.updDir a f).ptr = d.ptr := rfl
@[simp] theorem Dev.updDir_vmi (d : Dev) (a : Nat) (f : DirEnt → DirEnt) : (d.updDir a f).vmi = d.vmi := rfl
@[simp] theorem Dev.updDir_tap (d : Dev) (a : Nat) (f : DirEnt → DirEnt) : (d.updDir a f).tap = d.tap := rfl
@[simp] theorem Dev.updDir_stw (d : Dev) (a : Nat) (f : DirEnt → DirEnt) : (d.updDir a f).stw = d.stw := rfl
@[simp] theorem Dev.updDir_pin (d : Dev) (a : Nat) (f : DirEnt → DirEnt) : (d.updDir a f).pin = d.pin := rfl
@[simp] theorem Dev.updDir_rdata (d : Dev) (a : Nat) (f : DirEnt → DirEnt) : (d.updDir a f).rdata = d.rdata := rfl
@[simp] theorem Dev.updDir_fresh (d : Dev) (a : Nat) (f : DirEnt → DirEnt) : (d.updDir a f).fresh = d.fresh := rfl
@[simp] theorem Dev.updDir_engine (d : Dev) (a : Nat) (f : DirEnt → DirEnt) (j : Nat) : (d.updDir a f).engine j = d.engine j := rfl
@[simp] theorem Dev.updDir_channel (d : Dev) (a : Nat) (f : DirEnt → DirEnt) (j : Nat) : (d.updDir a f).channel j = d.channel j := rfl
@[simp] theorem Dev.updDir_corr (d : Dev) (a : Nat) (f : DirEnt → DirEnt) (c' t' : Nat) : (d.updDir a f).corr c' t' = d.corr c' t' := rfl
@[simp] theorem Dev.updDir_loop (d : Dev) (a : Nat) (f : DirEnt → DirEnt) (j : Nat) : (d.updDir a f).loop j = d.loop j := rfl
@[simp] theorem Dev.updDir_queue (d : Dev) (a : Nat) (f : DirEnt → DirEnt) (j : Nat) : (d.updDir a f).queue j = d.queue j := rfl
@[simp] theorem Dev.updDir_source (d : Dev) (a : Nat) (f : DirEnt → DirEnt) (j : Nat) : (d.updDir a f).source j = d.source j := rfl
@[simp] theorem Dev.updDir_collector (d : Dev) (a : Nat) (f : DirEnt → DirEnt) (j : Nat) : (d.updDir a f).collector j = d.collector j := rfl
@[simp] theorem Dev.updDir_region (d : Dev) (a : Nat) (f : DirEnt → DirEnt) (j : Nat) : (d.updDir a f).region j = d.region j := rfl
@[simp] theorem Dev.updDir_slot (d : Dev) (a : Nat) (f : DirEnt → DirEnt) (j : Nat) : (d.updDir a f).slot j = d.slot j := rfl
@[simp] theorem Dev.updDir_domain (d : Dev) (a : Nat) (f : DirEnt → DirEnt) (j : Nat) : (d.updDir a f).domain j = d.domain j := rfl
@[simp] theorem Dev.updDir_live (d : Dev) (a : Nat) (f : DirEnt → DirEnt) : (d.updDir a f).live = d.live := rfl

/-! ## updDomain -/

@[simp] theorem Dev.updDomain_fuse (d : Dev) (n : Nat) (f : Domain → Domain) : (d.updDomain n f).fuse = d.fuse := rfl
@[simp] theorem Dev.updDomain_time (d : Dev) (n : Nat) (f : Domain → Domain) : (d.updDomain n f).time = d.time := rfl
@[simp] theorem Dev.updDomain_mode (d : Dev) (n : Nat) (f : Domain → Domain) : (d.updDomain n f).mode = d.mode := rfl
@[simp] theorem Dev.updDomain_clk (d : Dev) (n : Nat) (f : Domain → Domain) : (d.updDomain n f).clk = d.clk := rfl
@[simp] theorem Dev.updDomain_evt (d : Dev) (n : Nat) (f : Domain → Domain) : (d.updDomain n f).evt = d.evt := rfl
@[simp] theorem Dev.updDomain_log (d : Dev) (n : Nat) (f : Domain → Domain) : (d.updDomain n f).log = d.log := rfl
@[simp] theorem Dev.updDomain_cmd (d : Dev) (n : Nat) (f : Domain → Domain) : (d.updDomain n f).cmd = d.cmd := rfl
@[simp] theorem Dev.updDomain_eng (d : Dev) (n : Nat) (f : Domain → Domain) : (d.updDomain n f).eng = d.eng := rfl
@[simp] theorem Dev.updDomain_tim (d : Dev) (n : Nat) (f : Domain → Domain) : (d.updDomain n f).tim = d.tim := rfl
@[simp] theorem Dev.updDomain_cal (d : Dev) (n : Nat) (f : Domain → Domain) : (d.updDomain n f).cal = d.cal := rfl
@[simp] theorem Dev.updDomain_fcp (d : Dev) (n : Nat) (f : Domain → Domain) : (d.updDomain n f).fcp = d.fcp := rfl
@[simp] theorem Dev.updDomain_rae (d : Dev) (n : Nat) (f : Domain → Domain) : (d.updDomain n f).rae = d.rae := rfl
@[simp] theorem Dev.updDomain_txn (d : Dev) (n : Nat) (f : Domain → Domain) : (d.updDomain n f).txn = d.txn := rfl
@[simp] theorem Dev.updDomain_byt (d : Dev) (n : Nat) (f : Domain → Domain) : (d.updDomain n f).byt = d.byt := rfl
@[simp] theorem Dev.updDomain_noc (d : Dev) (n : Nat) (f : Domain → Domain) : (d.updDomain n f).noc = d.noc := rfl
@[simp] theorem Dev.updDomain_nvs (d : Dev) (n : Nat) (f : Domain → Domain) : (d.updDomain n f).nvs = d.nvs := rfl
@[simp] theorem Dev.updDomain_fab (d : Dev) (n : Nat) (f : Domain → Domain) : (d.updDomain n f).fab = d.fab := rfl
@[simp] theorem Dev.updDomain_cfg (d : Dev) (n : Nat) (f : Domain → Domain) : (d.updDomain n f).cfg = d.cfg := rfl
@[simp] theorem Dev.updDomain_bst (d : Dev) (n : Nat) (f : Domain → Domain) : (d.updDomain n f).bst = d.bst := rfl
@[simp] theorem Dev.updDomain_lcy (d : Dev) (n : Nat) (f : Domain → Domain) : (d.updDomain n f).lcy = d.lcy := rfl
@[simp] theorem Dev.updDomain_ptr (d : Dev) (n : Nat) (f : Domain → Domain) : (d.updDomain n f).ptr = d.ptr := rfl
@[simp] theorem Dev.updDomain_vmi (d : Dev) (n : Nat) (f : Domain → Domain) : (d.updDomain n f).vmi = d.vmi := rfl
@[simp] theorem Dev.updDomain_tap (d : Dev) (n : Nat) (f : Domain → Domain) : (d.updDomain n f).tap = d.tap := rfl
@[simp] theorem Dev.updDomain_stw (d : Dev) (n : Nat) (f : Domain → Domain) : (d.updDomain n f).stw = d.stw := rfl
@[simp] theorem Dev.updDomain_pin (d : Dev) (n : Nat) (f : Domain → Domain) : (d.updDomain n f).pin = d.pin := rfl
@[simp] theorem Dev.updDomain_rdata (d : Dev) (n : Nat) (f : Domain → Domain) : (d.updDomain n f).rdata = d.rdata := rfl
@[simp] theorem Dev.updDomain_fresh (d : Dev) (n : Nat) (f : Domain → Domain) : (d.updDomain n f).fresh = d.fresh := rfl
@[simp] theorem Dev.updDomain_engine (d : Dev) (n : Nat) (f : Domain → Domain) (j : Nat) : (d.updDomain n f).engine j = d.engine j := rfl
@[simp] theorem Dev.updDomain_channel (d : Dev) (n : Nat) (f : Domain → Domain) (j : Nat) : (d.updDomain n f).channel j = d.channel j := rfl
@[simp] theorem Dev.updDomain_corr (d : Dev) (n : Nat) (f : Domain → Domain) (c' t' : Nat) : (d.updDomain n f).corr c' t' = d.corr c' t' := rfl
@[simp] theorem Dev.updDomain_loop (d : Dev) (n : Nat) (f : Domain → Domain) (j : Nat) : (d.updDomain n f).loop j = d.loop j := rfl
@[simp] theorem Dev.updDomain_queue (d : Dev) (n : Nat) (f : Domain → Domain) (j : Nat) : (d.updDomain n f).queue j = d.queue j := rfl
@[simp] theorem Dev.updDomain_source (d : Dev) (n : Nat) (f : Domain → Domain) (j : Nat) : (d.updDomain n f).source j = d.source j := rfl
@[simp] theorem Dev.updDomain_collector (d : Dev) (n : Nat) (f : Domain → Domain) (j : Nat) : (d.updDomain n f).collector j = d.collector j := rfl
@[simp] theorem Dev.updDomain_region (d : Dev) (n : Nat) (f : Domain → Domain) (j : Nat) : (d.updDomain n f).region j = d.region j := rfl
@[simp] theorem Dev.updDomain_slot (d : Dev) (n : Nat) (f : Domain → Domain) (j : Nat) : (d.updDomain n f).slot j = d.slot j := rfl
@[simp] theorem Dev.updDomain_port (d : Dev) (n : Nat) (f : Domain → Domain) (j : Nat) : (d.updDomain n f).port j = d.port j := rfl
@[simp] theorem Dev.updDomain_dirEnt (d : Dev) (n : Nat) (f : Domain → Domain) (j : Nat) : (d.updDomain n f).dirEnt j = d.dirEnt j := rfl
@[simp] theorem Dev.updDomain_live (d : Dev) (n : Nat) (f : Domain → Domain) : (d.updDomain n f).live = d.live := rfl

/-! ## Reads after writes -/

@[simp] theorem Dev.setEngine_engine_self (d : Dev) (n : Nat) (e : Engine) : (d.setEngine n e).engine n = e := Store.get_put_self ..
theorem Dev.setEngine_engine_of_ne (d : Dev) (n : Nat) (e : Engine) {j : Nat} (h : n ≠ j) : (d.setEngine n e).engine j = d.engine j :=
  Store.get_put_of_ne _ _ _ _ _ h
@[simp] theorem Dev.updEngine_engine_self (d : Dev) (n : Nat) (f : Engine → Engine) : (d.updEngine n f).engine n = f (d.engine n) := Store.get_put_self ..
theorem Dev.updEngine_engine_of_ne (d : Dev) (n : Nat) (f : Engine → Engine) {j : Nat} (h : n ≠ j) : (d.updEngine n f).engine j = d.engine j :=
  Store.get_put_of_ne _ _ _ _ _ h
@[simp] theorem Dev.setChannel_channel_self (d : Dev) (n : Nat) (e : Channel) : (d.setChannel n e).channel n = e := Store.get_put_self ..
theorem Dev.setChannel_channel_of_ne (d : Dev) (n : Nat) (e : Channel) {j : Nat} (h : n ≠ j) : (d.setChannel n e).channel j = d.channel j :=
  Store.get_put_of_ne _ _ _ _ _ h
@[simp] theorem Dev.updChannel_channel_self (d : Dev) (n : Nat) (f : Channel → Channel) : (d.updChannel n f).channel n = f (d.channel n) := Store.get_put_self ..
theorem Dev.updChannel_channel_of_ne (d : Dev) (n : Nat) (f : Channel → Channel) {j : Nat} (h : n ≠ j) : (d.updChannel n f).channel j = d.channel j :=
  Store.get_put_of_ne _ _ _ _ _ h
@[simp] theorem Dev.setLoop_loop_self (d : Dev) (n : Nat) (e : Loop) : (d.setLoop n e).loop n = e := Store.get_put_self ..
theorem Dev.setLoop_loop_of_ne (d : Dev) (n : Nat) (e : Loop) {j : Nat} (h : n ≠ j) : (d.setLoop n e).loop j = d.loop j :=
  Store.get_put_of_ne _ _ _ _ _ h
@[simp] theorem Dev.updLoop_loop_self (d : Dev) (n : Nat) (f : Loop → Loop) : (d.updLoop n f).loop n = f (d.loop n) := Store.get_put_self ..
theorem Dev.updLoop_loop_of_ne (d : Dev) (n : Nat) (f : Loop → Loop) {j : Nat} (h : n ≠ j) : (d.updLoop n f).loop j = d.loop j :=
  Store.get_put_of_ne _ _ _ _ _ h
@[simp] theorem Dev.setQueue_queue_self (d : Dev) (n : Nat) (e : Queue) : (d.setQueue n e).queue n = e := Store.get_put_self ..
theorem Dev.setQueue_queue_of_ne (d : Dev) (n : Nat) (e : Queue) {j : Nat} (h : n ≠ j) : (d.setQueue n e).queue j = d.queue j :=
  Store.get_put_of_ne _ _ _ _ _ h
@[simp] theorem Dev.updQueue_queue_self (d : Dev) (n : Nat) (f : Queue → Queue) : (d.updQueue n f).queue n = f (d.queue n) := Store.get_put_self ..
theorem Dev.updQueue_queue_of_ne (d : Dev) (n : Nat) (f : Queue → Queue) {j : Nat} (h : n ≠ j) : (d.updQueue n f).queue j = d.queue j :=
  Store.get_put_of_ne _ _ _ _ _ h
@[simp] theorem Dev.updSource_source_self (d : Dev) (n : Nat) (f : Source → Source) : (d.updSource n f).source n = f (d.source n) := Store.get_put_self ..
theorem Dev.updSource_source_of_ne (d : Dev) (n : Nat) (f : Source → Source) {j : Nat} (h : n ≠ j) : (d.updSource n f).source j = d.source j :=
  Store.get_put_of_ne _ _ _ _ _ h
@[simp] theorem Dev.setCollector_collector_self (d : Dev) (n : Nat) (e : Collector) : (d.setCollector n e).collector n = e := Store.get_put_self ..
theorem Dev.setCollector_collector_of_ne (d : Dev) (n : Nat) (e : Collector) {j : Nat} (h : n ≠ j) : (d.setCollector n e).collector j = d.collector j :=
  Store.get_put_of_ne _ _ _ _ _ h
@[simp] theorem Dev.updCollector_collector_self (d : Dev) (n : Nat) (f : Collector → Collector) : (d.updCollector n f).collector n = f (d.collector n) := Store.get_put_self ..
theorem Dev.updCollector_collector_of_ne (d : Dev) (n : Nat) (f : Collector → Collector) {j : Nat} (h : n ≠ j) : (d.updCollector n f).collector j = d.collector j :=
  Store.get_put_of_ne _ _ _ _ _ h
@[simp] theorem Dev.updRegion_region_self (d : Dev) (n : Nat) (f : Region → Region) : (d.updRegion n f).region n = f (d.region n) := Store.get_put_self ..
theorem Dev.updRegion_region_of_ne (d : Dev) (n : Nat) (f : Region → Region) {j : Nat} (h : n ≠ j) : (d.updRegion n f).region j = d.region j :=
  Store.get_put_of_ne _ _ _ _ _ h
@[simp] theorem Dev.setSlot_slot_self (d : Dev) (n : Nat) (e : TxnSlot) : (d.setSlot n e).slot n = e := Store.get_put_self ..
theorem Dev.setSlot_slot_of_ne (d : Dev) (n : Nat) (e : TxnSlot) {j : Nat} (h : n ≠ j) : (d.setSlot n e).slot j = d.slot j :=
  Store.get_put_of_ne _ _ _ _ _ h
@[simp] theorem Dev.updSlot_slot_self (d : Dev) (n : Nat) (f : TxnSlot → TxnSlot) : (d.updSlot n f).slot n = f (d.slot n) := Store.get_put_self ..
theorem Dev.updSlot_slot_of_ne (d : Dev) (n : Nat) (f : TxnSlot → TxnSlot) {j : Nat} (h : n ≠ j) : (d.updSlot n f).slot j = d.slot j :=
  Store.get_put_of_ne _ _ _ _ _ h
@[simp] theorem Dev.updPort_port_self (d : Dev) (n : Nat) (f : Port → Port) : (d.updPort n f).port n = f (d.port n) := Store.get_put_self ..
theorem Dev.updPort_port_of_ne (d : Dev) (n : Nat) (f : Port → Port) {j : Nat} (h : n ≠ j) : (d.updPort n f).port j = d.port j :=
  Store.get_put_of_ne _ _ _ _ _ h
@[simp] theorem Dev.updDir_dirEnt_self (d : Dev) (n : Nat) (f : DirEnt → DirEnt) : (d.updDir n f).dirEnt n = f (d.dirEnt n) := Store.get_put_self ..
theorem Dev.updDir_dirEnt_of_ne (d : Dev) (n : Nat) (f : DirEnt → DirEnt) {j : Nat} (h : n ≠ j) : (d.updDir n f).dirEnt j = d.dirEnt j :=
  Store.get_put_of_ne _ _ _ _ _ h
@[simp] theorem Dev.updDomain_domain_self (d : Dev) (n : Nat) (f : Domain → Domain) : (d.updDomain n f).domain n = f (d.domain n) := Store.get_put_self ..
theorem Dev.updDomain_domain_of_ne (d : Dev) (n : Nat) (f : Domain → Domain) {j : Nat} (h : n ≠ j) : (d.updDomain n f).domain j = d.domain j :=
  Store.get_put_of_ne _ _ _ _ _ h

@[simp] theorem Dev.updPort_dirEnt (d : Dev) (p : Nat) (f : Port → Port) (j : Nat) : (d.updPort p f).dirEnt j = d.dirEnt j := rfl
@[simp] theorem Dev.updDir_port (d : Dev) (a : Nat) (f : DirEnt → DirEnt) (j : Nat) : (d.updDir a f).port j = d.port j := rfl
@[simp] theorem Dev.updSource_collector (d : Dev) (n : Nat) (f : Source → Source) (j : Nat) :
    (d.updSource n f).collector j = d.collector j := rfl
@[simp] theorem Dev.setCollector_source (d : Dev) (k : Nat) (x : Collector) (j : Nat) :
    (d.setCollector k x).source j = d.source j := rfl
@[simp] theorem Dev.updCollector_source (d : Dev) (k : Nat) (f : Collector → Collector) (j : Nat) :
    (d.updCollector k f).source j = d.source j := rfl

/-! ## Lifting -/

/-- A command acts on a live device through its change of the device alone. -/
theorem State.onDev_live (s : State) (f : Otp → Dev → Dev) (h : s.dev.live = true) :
    s.onDev f = .next { s with dev := f s.otp s.dev } := by simp [State.onDev, h]
theorem State.onDev_dead (s : State) (f : Otp → Dev → Dev) (h : s.dev.live = false) : s.onDev f = .next s := by
  simp [State.onDev, h]
/-- Everything that a lifted change can do: it answers a next state, and leaves the queue and the one-time bits alone. -/
theorem State.onDev_cases (s : State) (f : Otp → Dev → Dev) :
    ∃ d, s.onDev f = .next { s with dev := d } := by
  cases h : s.dev.live
  · exact ⟨s.dev, by rw [State.onDev_dead s f h]⟩
  · exact ⟨_, State.onDev_live s f h⟩
theorem State.onBoth_live (s : State) (f : Otp → Dev → Otp × Dev) (h : s.dev.live = true) :
    s.onBoth f = .next { s with otp := (f s.otp s.dev).1, dev := (f s.otp s.dev).2 } := by simp [State.onBoth, h]
theorem State.onBoth_dead (s : State) (f : Otp → Dev → Otp × Dev) (h : s.dev.live = false) : s.onBoth f = .next s := by
  simp [State.onBoth, h]

end Sys2Proof.Machine
end

