-- ==== Sys2Proof/Laws/Events.lean ====
section
/-! SUPPORT. What firing an event can change: the event tables, the vectors of the CMD block, the forwarding of the Byith link
and the recorder's ring. Everything else stays. -/

namespace Sys2Proof.Machine

/-- The device differs at most in the event tables, the CMD block, the Byith link and the recorder. -/
def Dev.evtLike (a b : Dev) : Prop := ∃ e c y l, b = { a with evt := e, cmd := c, byt := y, log := l }

theorem Dev.evtLike.refl (a : Dev) : a.evtLike a := ⟨a.evt, a.cmd, a.byt, a.log, rfl⟩

theorem Dev.evtLike.trans {a b c : Dev} (h1 : a.evtLike b) (h2 : b.evtLike c) : a.evtLike c := by
  obtain ⟨e, m, y, l, rfl⟩ := h1
  obtain ⟨e', m', y', l', rfl⟩ := h2
  exact ⟨e', m', y', l', rfl⟩

theorem Dev.requestVector_like (d : Dev) (n : Nat) : d.evtLike (d.requestVector n) := by
  simp only [Dev.requestVector]
  split
  · exact ⟨d.evt, _, d.byt, d.log, rfl⟩
  · exact ⟨d.evt, _, d.byt, d.log, rfl⟩

theorem Dev.sendFrame_like (d : Dev) (p : Nat) (f : Frame) (a : Bool) : d.evtLike (d.sendFrame p f a) :=
  ⟨d.evt, d.cmd, _, d.log, rfl⟩

theorem Dev.forwardEvent_like (d : Dev) (w : BitVec 256) : d.evtLike (d.forwardEvent w) := by
  unfold Dev.forwardEvent
  split
  · exact ⟨d.evt, d.cmd, _, d.log, rfl⟩
  · exact ⟨d.evt, d.cmd, _, d.log, rfl⟩

theorem Dev.requestRecord_push_like (e : LogEnt) (d : Dev) : d.evtLike (Dev.requestRecord.push e d).1 := by
  unfold Dev.requestRecord.push
  split
  · exact ⟨d.evt, d.cmd, d.byt, _, rfl⟩
  · dsimp only
    split
    · exact ⟨d.evt, d.cmd, d.byt, _, rfl⟩
    · split
      · exact ⟨d.evt, d.cmd, d.byt, _, rfl⟩
      · exact ⟨d.evt, d.cmd, d.byt, _, rfl⟩

theorem Dev.requestRecord_like (d : Dev) (e : LogEnt) : d.evtLike (d.requestRecord e).1 := by
  unfold Dev.requestRecord
  split
  · split
    · exact ⟨d.evt, d.cmd, d.byt, _, rfl⟩
    · exact Dev.evtLike.trans ⟨d.evt, d.cmd, d.byt, _, rfl⟩ (Dev.requestRecord_push_like e _)
  · exact Dev.requestRecord_push_like e d

theorem Dev.fireRoutes_like (d : Dev) (n : Nat) (p : Word) (s : Stamp) : d.evtLike (d.fireRoutes n p s) := by
  unfold Dev.fireRoutes
  extract_lets cfg rose l d0 d1 d2
  have h1 : d.evtLike d1 := ⟨_, d.cmd, d.byt, d.log, rfl⟩
  have h2 : d.evtLike d2 := by
    simp only [d2]
    split
    · exact h1.trans (Dev.requestVector_like d1 n)
    · exact h1
  split
  · split
    · exact h2.trans (Dev.forwardEvent_like _ _)
    · split
      · exact h2.trans (Dev.sendFrame_like _ _ _ _)
      · exact h2
  · exact h2

theorem Dev.raiseDrop_like (d : Dev) (v : Nat) (s : Stamp) : d.evtLike (d.raiseDrop v s) := by
  unfold Dev.raiseDrop
  split
  · exact Dev.evtLike.refl d
  · dsimp only
    split
    · exact Dev.evtLike.trans ⟨d.evt, d.cmd, d.byt, _, rfl⟩ (Dev.fireRoutes_like _ _ _ _)
    · exact ⟨d.evt, d.cmd, d.byt, _, rfl⟩

/-- Everything that a firing can change. -/
theorem Dev.fireAt_like (d : Dev) (n : Nat) (p : Word) (s : Stamp) : d.evtLike (d.fireAt n p s) := by
  unfold Dev.fireAt
  extract_lets cfg d1 e
  have h1 : d.evtLike d1 := Dev.fireRoutes_like d n p s
  split
  · exact Dev.evtLike.refl d
  · split
    · have h := h1.trans (Dev.requestRecord_like d1 e)
      split
      · next x lost heq =>
        rw [heq] at h
        split
        · exact h.trans (Dev.raiseDrop_like _ _ _)
        · exact h
    · exact h1

theorem Dev.fire_like (d : Dev) (n : Nat) (p : Word) : d.evtLike (d.fire n p) := Dev.fireAt_like d n p d.stamp

@[simp] theorem Dev.fireAt_fuse (d : Dev) (n : Nat) (p : Word) (s : Stamp) : (d.fireAt n p s).fuse = d.fuse := by
  obtain ⟨_, _, _, _, h⟩ := d.fireAt_like n p s; rw [h]
@[simp] theorem Dev.fireAt_time (d : Dev) (n : Nat) (p : Word) (s : Stamp) : (d.fireAt n p s).time = d.time := by
  obtain ⟨_, _, _, _, h⟩ := d.fireAt_like n p s; rw [h]
@[simp] theorem Dev.fireAt_mode (d : Dev) (n : Nat) (p : Word) (s : Stamp) : (d.fireAt n p s).mode = d.mode := by
  obtain ⟨_, _, _, _, h⟩ := d.fireAt_like n p s; rw [h]
@[simp] theorem Dev.fireAt_clk (d : Dev) (n : Nat) (p : Word) (s : Stamp) : (d.fireAt n p s).clk = d.clk := by
  obtain ⟨_, _, _, _, h⟩ := d.fireAt_like n p s; rw [h]
@[simp] theorem Dev.fireAt_eng (d : Dev) (n : Nat) (p : Word) (s : Stamp) : (d.fireAt n p s).eng = d.eng := by
  obtain ⟨_, _, _, _, h⟩ := d.fireAt_like n p s; rw [h]
@[simp] theorem Dev.fireAt_tim (d : Dev) (n : Nat) (p : Word) (s : Stamp) : (d.fireAt n p s).tim = d.tim := by
  obtain ⟨_, _, _, _, h⟩ := d.fireAt_like n p s; rw [h]
@[simp] theorem Dev.fireAt_cal (d : Dev) (n : Nat) (p : Word) (s : Stamp) : (d.fireAt n p s).cal = d.cal := by
  obtain ⟨_, _, _, _, h⟩ := d.fireAt_like n p s; rw [h]
@[simp] theorem Dev.fireAt_fcp (d : Dev) (n : Nat) (p : Word) (s : Stamp) : (d.fireAt n p s).fcp = d.fcp := by
  obtain ⟨_, _, _, _, h⟩ := d.fireAt_like n p s; rw [h]
@[simp] theorem Dev.fireAt_rae (d : Dev) (n : Nat) (p : Word) (s : Stamp) : (d.fireAt n p s).rae = d.rae := by
  obtain ⟨_, _, _, _, h⟩ := d.fireAt_like n p s; rw [h]
@[simp] theorem Dev.fireAt_txn (d : Dev) (n : Nat) (p : Word) (s : Stamp) : (d.fireAt n p s).txn = d.txn := by
  obtain ⟨_, _, _, _, h⟩ := d.fireAt_like n p s; rw [h]
@[simp] theorem Dev.fireAt_pwr (d : Dev) (n : Nat) (p : Word) (s : Stamp) : (d.fireAt n p s).pwr = d.pwr := by
  obtain ⟨_, _, _, _, h⟩ := d.fireAt_like n p s; rw [h]
@[simp] theorem Dev.fireAt_noc (d : Dev) (n : Nat) (p : Word) (s : Stamp) : (d.fireAt n p s).noc = d.noc := by
  obtain ⟨_, _, _, _, h⟩ := d.fireAt_like n p s; rw [h]
@[simp] theorem Dev.fireAt_nvs (d : Dev) (n : Nat) (p : Word) (s : Stamp) : (d.fireAt n p s).nvs = d.nvs := by
  obtain ⟨_, _, _, _, h⟩ := d.fireAt_like n p s; rw [h]
@[simp] theorem Dev.fireAt_fab (d : Dev) (n : Nat) (p : Word) (s : Stamp) : (d.fireAt n p s).fab = d.fab := by
  obtain ⟨_, _, _, _, h⟩ := d.fireAt_like n p s; rw [h]
@[simp] theorem Dev.fireAt_cfg (d : Dev) (n : Nat) (p : Word) (s : Stamp) : (d.fireAt n p s).cfg = d.cfg := by
  obtain ⟨_, _, _, _, h⟩ := d.fireAt_like n p s; rw [h]
@[simp] theorem Dev.fireAt_bst (d : Dev) (n : Nat) (p : Word) (s : Stamp) : (d.fireAt n p s).bst = d.bst := by
  obtain ⟨_, _, _, _, h⟩ := d.fireAt_like n p s; rw [h]
@[simp] theorem Dev.fireAt_lcy (d : Dev) (n : Nat) (p : Word) (s : Stamp) : (d.fireAt n p s).lcy = d.lcy := by
  obtain ⟨_, _, _, _, h⟩ := d.fireAt_like n p s; rw [h]
@[simp] theorem Dev.fireAt_ptr (d : Dev) (n : Nat) (p : Word) (s : Stamp) : (d.fireAt n p s).ptr = d.ptr := by
  obtain ⟨_, _, _, _, h⟩ := d.fireAt_like n p s; rw [h]
@[simp] theorem Dev.fireAt_vmi (d : Dev) (n : Nat) (p : Word) (s : Stamp) : (d.fireAt n p s).vmi = d.vmi := by
  obtain ⟨_, _, _, _, h⟩ := d.fireAt_like n p s; rw [h]
@[simp] theorem Dev.fireAt_tap (d : Dev) (n : Nat) (p : Word) (s : Stamp) : (d.fireAt n p s).tap = d.tap := by
  obtain ⟨_, _, _, _, h⟩ := d.fireAt_like n p s; rw [h]
@[simp] theorem Dev.fireAt_stw (d : Dev) (n : Nat) (p : Word) (s : Stamp) : (d.fireAt n p s).stw = d.stw := by
  obtain ⟨_, _, _, _, h⟩ := d.fireAt_like n p s; rw [h]
@[simp] theorem Dev.fireAt_pin (d : Dev) (n : Nat) (p : Word) (s : Stamp) : (d.fireAt n p s).pin = d.pin := by
  obtain ⟨_, _, _, _, h⟩ := d.fireAt_like n p s; rw [h]
@[simp] theorem Dev.fireAt_rdata (d : Dev) (n : Nat) (p : Word) (s : Stamp) : (d.fireAt n p s).rdata = d.rdata := by
  obtain ⟨_, _, _, _, h⟩ := d.fireAt_like n p s; rw [h]
@[simp] theorem Dev.fireAt_fresh (d : Dev) (n : Nat) (p : Word) (s : Stamp) : (d.fireAt n p s).fresh = d.fresh := by
  obtain ⟨_, _, _, _, h⟩ := d.fireAt_like n p s; rw [h]
@[simp] theorem Dev.fireAt_engine (d : Dev) (n : Nat) (p : Word) (s : Stamp) (j : Nat) : (d.fireAt n p s).engine j = d.engine j := by
  simp only [Dev.engine, Dev.fireAt_eng]
@[simp] theorem Dev.fireAt_channel (d : Dev) (n : Nat) (p : Word) (s : Stamp) (j : Nat) : (d.fireAt n p s).channel j = d.channel j := by
  simp only [Dev.channel, Dev.fireAt_tim]
@[simp] theorem Dev.fireAt_loop (d : Dev) (n : Nat) (p : Word) (s : Stamp) (j : Nat) : (d.fireAt n p s).loop j = d.loop j := by
  simp only [Dev.loop, Dev.fireAt_clk, Dev.fireAt_fuse]
@[simp] theorem Dev.fireAt_source (d : Dev) (n : Nat) (p : Word) (s : Stamp) (j : Nat) : (d.fireAt n p s).source j = d.source j := by
  simp only [Dev.source, Dev.fireAt_fcp]
@[simp] theorem Dev.fireAt_collector (d : Dev) (n : Nat) (p : Word) (s : Stamp) (j : Nat) : (d.fireAt n p s).collector j = d.collector j := by
  simp only [Dev.collector, Dev.fireAt_fcp]
@[simp] theorem Dev.fireAt_region (d : Dev) (n : Nat) (p : Word) (s : Stamp) (j : Nat) : (d.fireAt n p s).region j = d.region j := by
  simp only [Dev.region, Dev.fireAt_rae]
@[simp] theorem Dev.fireAt_slot (d : Dev) (n : Nat) (p : Word) (s : Stamp) (j : Nat) : (d.fireAt n p s).slot j = d.slot j := by
  simp only [Dev.slot, Dev.fireAt_txn]
@[simp] theorem Dev.fireAt_domain (d : Dev) (n : Nat) (p : Word) (s : Stamp) (j : Nat) : (d.fireAt n p s).domain j = d.domain j := by
  simp only [Dev.domain, Dev.fireAt_pwr]
@[simp] theorem Dev.fireAt_live (d : Dev) (n : Nat) (p : Word) (s : Stamp) : (d.fireAt n p s).live = d.live := by simp [Dev.live]
@[simp] theorem Dev.fire_fuse (d : Dev) (n : Nat) (p : Word) : (d.fire n p).fuse = d.fuse := by
  obtain ⟨_, _, _, _, h⟩ := d.fire_like n p; rw [h]
@[simp] theorem Dev.fire_time (d : Dev) (n : Nat) (p : Word) : (d.fire n p).time = d.time := by
  obtain ⟨_, _, _, _, h⟩ := d.fire_like n p; rw [h]
@[simp] theorem Dev.fire_mode (d : Dev) (n : Nat) (p : Word) : (d.fire n p).mode = d.mode := by
  obtain ⟨_, _, _, _, h⟩ := d.fire_like n p; rw [h]
@[simp] theorem Dev.fire_clk (d : Dev) (n : Nat) (p : Word) : (d.fire n p).clk = d.clk := by
  obtain ⟨_, _, _, _, h⟩ := d.fire_like n p; rw [h]
@[simp] theorem Dev.fire_eng (d : Dev) (n : Nat) (p : Word) : (d.fire n p).eng = d.eng := by
  obtain ⟨_, _, _, _, h⟩ := d.fire_like n p; rw [h]
@[simp] theorem Dev.fire_tim (d : Dev) (n : Nat) (p : Word) : (d.fire n p).tim = d.tim := by
  obtain ⟨_, _, _, _, h⟩ := d.fire_like n p; rw [h]
@[simp] theorem Dev.fire_cal (d : Dev) (n : Nat) (p : Word) : (d.fire n p).cal = d.cal := by
  obtain ⟨_, _, _, _, h⟩ := d.fire_like n p; rw [h]
@[simp] theorem Dev.fire_fcp (d : Dev) (n : Nat) (p : Word) : (d.fire n p).fcp = d.fcp := by
  obtain ⟨_, _, _, _, h⟩ := d.fire_like n p; rw [h]
@[simp] theorem Dev.fire_rae (d : Dev) (n : Nat) (p : Word) : (d.fire n p).rae = d.rae := by
  obtain ⟨_, _, _, _, h⟩ := d.fire_like n p; rw [h]
@[simp] theorem Dev.fire_txn (d : Dev) (n : Nat) (p : Word) : (d.fire n p).txn = d.txn := by
  obtain ⟨_, _, _, _, h⟩ := d.fire_like n p; rw [h]
@[simp] theorem Dev.fire_pwr (d : Dev) (n : Nat) (p : Word) : (d.fire n p).pwr = d.pwr := by
  obtain ⟨_, _, _, _, h⟩ := d.fire_like n p; rw [h]
@[simp] theorem Dev.fire_noc (d : Dev) (n : Nat) (p : Word) : (d.fire n p).noc = d.noc := by
  obtain ⟨_, _, _, _, h⟩ := d.fire_like n p; rw [h]
@[simp] theorem Dev.fire_nvs (d : Dev) (n : Nat) (p : Word) : (d.fire n p).nvs = d.nvs := by
  obtain ⟨_, _, _, _, h⟩ := d.fire_like n p; rw [h]
@[simp] theorem Dev.fire_fab (d : Dev) (n : Nat) (p : Word) : (d.fire n p).fab = d.fab := by
  obtain ⟨_, _, _, _, h⟩ := d.fire_like n p; rw [h]
@[simp] theorem Dev.fire_cfg (d : Dev) (n : Nat) (p : Word) : (d.fire n p).cfg = d.cfg := by
  obtain ⟨_, _, _, _, h⟩ := d.fire_like n p; rw [h]
@[simp] theorem Dev.fire_bst (d : Dev) (n : Nat) (p : Word) : (d.fire n p).bst = d.bst := by
  obtain ⟨_, _, _, _, h⟩ := d.fire_like n p; rw [h]
@[simp] theorem Dev.fire_lcy (d : Dev) (n : Nat) (p : Word) : (d.fire n p).lcy = d.lcy := by
  obtain ⟨_, _, _, _, h⟩ := d.fire_like n p; rw [h]
@[simp] theorem Dev.fire_ptr (d : Dev) (n : Nat) (p : Word) : (d.fire n p).ptr = d.ptr := by
  obtain ⟨_, _, _, _, h⟩ := d.fire_like n p; rw [h]
@[simp] theorem Dev.fire_vmi (d : Dev) (n : Nat) (p : Word) : (d.fire n p).vmi = d.vmi := by
  obtain ⟨_, _, _, _, h⟩ := d.fire_like n p; rw [h]
@[simp] theorem Dev.fire_tap (d : Dev) (n : Nat) (p : Word) : (d.fire n p).tap = d.tap := by
  obtain ⟨_, _, _, _, h⟩ := d.fire_like n p; rw [h]
@[simp] theorem Dev.fire_stw (d : Dev) (n : Nat) (p : Word) : (d.fire n p).stw = d.stw := by
  obtain ⟨_, _, _, _, h⟩ := d.fire_like n p; rw [h]
@[simp] theorem Dev.fire_pin (d : Dev) (n : Nat) (p : Word) : (d.fire n p).pin = d.pin := by
  obtain ⟨_, _, _, _, h⟩ := d.fire_like n p; rw [h]
@[simp] theorem Dev.fire_rdata (d : Dev) (n : Nat) (p : Word) : (d.fire n p).rdata = d.rdata := by
  obtain ⟨_, _, _, _, h⟩ := d.fire_like n p; rw [h]
@[simp] theorem Dev.fire_fresh (d : Dev) (n : Nat) (p : Word) : (d.fire n p).fresh = d.fresh := by
  obtain ⟨_, _, _, _, h⟩ := d.fire_like n p; rw [h]
@[simp] theorem Dev.fire_engine (d : Dev) (n : Nat) (p : Word) (j : Nat) : (d.fire n p).engine j = d.engine j := by
  simp only [Dev.engine, Dev.fire_eng]
@[simp] theorem Dev.fire_channel (d : Dev) (n : Nat) (p : Word) (j : Nat) : (d.fire n p).channel j = d.channel j := by
  simp only [Dev.channel, Dev.fire_tim]
@[simp] theorem Dev.fire_loop (d : Dev) (n : Nat) (p : Word) (j : Nat) : (d.fire n p).loop j = d.loop j := by
  simp only [Dev.loop, Dev.fire_clk, Dev.fire_fuse]
@[simp] theorem Dev.fire_source (d : Dev) (n : Nat) (p : Word) (j : Nat) : (d.fire n p).source j = d.source j := by
  simp only [Dev.source, Dev.fire_fcp]
@[simp] theorem Dev.fire_collector (d : Dev) (n : Nat) (p : Word) (j : Nat) : (d.fire n p).collector j = d.collector j := by
  simp only [Dev.collector, Dev.fire_fcp]
@[simp] theorem Dev.fire_region (d : Dev) (n : Nat) (p : Word) (j : Nat) : (d.fire n p).region j = d.region j := by
  simp only [Dev.region, Dev.fire_rae]
@[simp] theorem Dev.fire_slot (d : Dev) (n : Nat) (p : Word) (j : Nat) : (d.fire n p).slot j = d.slot j := by
  simp only [Dev.slot, Dev.fire_txn]
@[simp] theorem Dev.fire_domain (d : Dev) (n : Nat) (p : Word) (j : Nat) : (d.fire n p).domain j = d.domain j := by
  simp only [Dev.domain, Dev.fire_pwr]
@[simp] theorem Dev.fire_live (d : Dev) (n : Nat) (p : Word) : (d.fire n p).live = d.live := by simp [Dev.live]

end Sys2Proof.Machine
end

