-- ==== Sys2Proof/Laws/Fail.lean ====
section
/-! SUPPORT. What the fail path can change: the event tables, the CMD block, the Byith link, the recorder, the fail capture,
the repair analysis, the count of fails lost to a self-test, the free values used. Engines, channels and everything else stay. -/

namespace Sys2Proof.Machine

/-- The device differs at most in what the fail path changes. -/
def Dev.failLike (a b : Dev) : Prop :=
  ∃ e c y l f r t u, b = { a with evt := e, cmd := c, byt := y, log := l, fcp := f, rae := r, bst := t, fresh := u }

theorem Dev.failLike.refl (a : Dev) : a.failLike a := ⟨a.evt, a.cmd, a.byt, a.log, a.fcp, a.rae, a.bst, a.fresh, rfl⟩

theorem Dev.failLike.trans {a b c : Dev} (h1 : a.failLike b) (h2 : b.failLike c) : a.failLike c := by
  obtain ⟨e, m, y, l, f, r, t, u, rfl⟩ := h1
  obtain ⟨e', m', y', l', f', r', t', u', rfl⟩ := h2
  exact ⟨e', m', y', l', f', r', t', u', rfl⟩

theorem Dev.failLike.ite {a x y : Dev} {c : Prop} [Decidable c] (h1 : a.failLike x) (h2 : a.failLike y) :
    a.failLike (if c then x else y) := by
  split
  · exact h1
  · exact h2

theorem Dev.failLike.foldl {β : Type} {f : Dev → β → Dev} (hf : ∀ (d : Dev) (x : β), d.failLike (f d x)) (l : List β) :
    ∀ {a d : Dev}, a.failLike d → a.failLike (l.foldl f d) := by
  induction l with
  | nil => intro a d h; exact h
  | cons x r ih => intro a d h; exact ih (h.trans (hf d x))

theorem Dev.failLike.of_evt {a b : Dev} (h : a.evtLike b) : a.failLike b := by
  obtain ⟨e, m, y, l, rfl⟩ := h
  exact ⟨e, m, y, l, a.fcp, a.rae, a.bst, a.fresh, rfl⟩

theorem Dev.failLike.fcp (a : Dev) (f : FcpState) : a.failLike { a with fcp := f } :=
  ⟨a.evt, a.cmd, a.byt, a.log, f, a.rae, a.bst, a.fresh, rfl⟩
theorem Dev.failLike.rae (a : Dev) (r : RaeState) : a.failLike { a with rae := r } :=
  ⟨a.evt, a.cmd, a.byt, a.log, a.fcp, r, a.bst, a.fresh, rfl⟩
theorem Dev.failLike.bst (a : Dev) (t : BstState) : a.failLike { a with bst := t } :=
  ⟨a.evt, a.cmd, a.byt, a.log, a.fcp, a.rae, t, a.fresh, rfl⟩

theorem Dev.bump_failLike (d : Dev) : d.failLike d.bump :=
  ⟨d.evt, d.cmd, d.byt, d.log, d.fcp, d.rae, d.bst, _, rfl⟩
theorem Dev.fire_failLike (d : Dev) (n : Nat) (p : Word) : d.failLike (d.fire n p) := .of_evt (Dev.fire_like d n p)
theorem Dev.updCollector_failLike (d : Dev) (k : Nat) (f : Collector → Collector) : d.failLike (d.updCollector k f) := .fcp d _
theorem Dev.updSource_failLike (d : Dev) (k : Nat) (f : Source → Source) : d.failLike (d.updSource k f) := .fcp d _
theorem Dev.updRegion_failLike (d : Dev) (k : Nat) (f : Region → Region) : d.failLike (d.updRegion k f) := .rae d _

theorem Dev.setRloss_failLike (d : Dev) (r reason : Nat) : d.failLike (d.setRloss r reason) := by
  unfold Dev.setRloss
  exact .ite (.refl d) ((Dev.failLike.fcp d _).trans (Dev.fire_failLike _ _ _))
theorem Dev.notMerged_failLike (d : Dev) (r : Option Nat) (n reason : Nat) : d.failLike (d.notMerged r n reason) := by
  unfold Dev.notMerged
  split
  · exact (Dev.setRloss_failLike d _ reason).trans (.fcp _ _)
  · exact .fcp _ _
theorem Dev.fatWrite_failLike (d : Dev) (k : Nat) (e : BitVec 120) : d.failLike (d.fatWrite k e) := .fcp d _
theorem Dev.fatReadEffect_failLike (d : Dev) (k : Nat) : d.failLike (d.fatReadEffect k) := by
  unfold Dev.fatReadEffect
  exact .ite (.fcp d _) (.ite ((Dev.failLike.fcp d _).trans (Dev.fire_failLike _ _ _)) (.refl d))
theorem Dev.fcEvent_failLike (d : Dev) (k : Nat) (st : Status) (r n : Nat) : d.failLike (d.fcEvent k st r n) :=
  Dev.fire_failLike _ _ _
theorem Dev.mkDrop_failLike (d : Dev) (k n : Nat) : d.failLike (d.mkDrop k n) :=
  (Dev.updCollector_failLike d k _).trans (Dev.fcEvent_failLike _ _ _ _ _)
theorem Dev.queueOvf_failLike (d : Dev) (k n : Nat) : d.failLike (d.queueOvf k n) := by
  unfold Dev.queueOvf
  exact .ite (.refl d) (.trans (Dev.updCollector_failLike d k _) (.ite (Dev.updCollector_failLike _ _ _)
    (.ite (Dev.updCollector_failLike _ _ _) (.ite ((Dev.mkDrop_failLike _ _ _).trans (Dev.notMerged_failLike _ _ _ _))
      (Dev.mkDrop_failLike _ _ _)))))
theorem Dev.queueMarker_failLike (d : Dev) (k n : Nat) (e : BitVec 120) : d.failLike (d.queueMarker k n e) := by
  unfold Dev.queueMarker
  exact .trans (Dev.queueOvf_failLike d k n) (.ite (Dev.updCollector_failLike _ _ _)
    (.ite (Dev.updCollector_failLike _ _ _) (Dev.mkDrop_failLike _ _ _)))
theorem Dev.compactFail_failLike (d : Dev) (k n : Nat) (m : BitVec 8) (cyc : BitVec 26) :
    d.failLike (d.compactFail k n m cyc) := Dev.updCollector_failLike _ _ _
theorem Dev.flushCounts_failLike (d : Dev) (k n : Nat) : d.failLike (d.flushCounts k n) := by
  unfold Dev.flushCounts
  refine .ite (.refl d) (.foldl (fun x i => ?_) _ (.refl d))
  dsimp only
  exact .ite (.refl x) ((Dev.fatReadEffect_failLike _ _).trans ((Dev.fatWrite_failLike _ _ _).trans
    (Dev.updCollector_failLike _ _ _)))
theorem Dev.takeFail_failLike (d : Dev) (k n : Nat) (xa ya : BitVec 24) (m : BitVec 8) (cyc : BitVec 26) :
    d.failLike (d.takeFail k n xa ya m cyc) := by
  unfold Dev.takeFail
  exact .ite (Dev.updCollector_failLike _ _ _) (.ite (Dev.compactFail_failLike _ _ _ _ _)
    (.ite (Dev.updCollector_failLike _ _ _) ((Dev.updCollector_failLike _ _ _).trans
      ((Dev.fcEvent_failLike _ _ _ _ _).trans (Dev.compactFail_failLike _ _ _ _ _)))))
theorem Dev.takeItem_failLike (d : Dev) (k : Nat) (i : FcItem) : d.failLike (d.takeItem k i) := by
  cases i with
  | fail => exact Dev.takeFail_failLike _ _ _ _ _ _ _
  | marker => exact Dev.queueMarker_failLike _ _ _ _
  | close n r =>
    have h := (Dev.queueOvf_failLike d k n).trans (Dev.flushCounts_failLike _ k n)
    simp only [Dev.takeItem]
    exact h.trans (Dev.updCollector_failLike _ _ _)
  | opened n r =>
    have h := (Dev.queueOvf_failLike d k n).trans (Dev.flushCounts_failLike _ k n)
    simp only [Dev.takeItem]
    exact h.trans (Dev.updCollector_failLike _ _ _)
  | flush => exact (Dev.queueOvf_failLike _ _ _).trans (Dev.flushCounts_failLike _ _ _)
  | count => exact Dev.flushCounts_failLike _ _ _
theorem Dev.deliver_failLike (k : Nat) (l : List FcEntry) : ∀ d : Dev, d.failLike (Dev.deliver k l d) := by
  induction l with
  | nil => intro d; exact .refl d
  | cons e r ih =>
    intro d
    cases e with
    | close => exact (Dev.updCollector_failLike _ _ _).trans ((Dev.updRegion_failLike _ _ _).trans (ih _))
    | entry => exact .refl d
theorem Dev.takeMarks_failLike (k : Nat) (l : List FcItem) : ∀ d : Dev, d.failLike (Dev.takeMarks k l d) := by
  induction l with
  | nil => intro d; exact .refl d
  | cons i r ih =>
    intro d
    exact .ite (.refl d) ((Dev.updCollector_failLike _ _ _).trans ((Dev.takeItem_failLike _ _ _).trans (ih _)))
theorem Dev.runCollector_failLike (d : Dev) (k : Nat) : d.failLike (d.runCollector k) :=
  (Dev.takeMarks_failLike k _ d).trans (Dev.deliver_failLike k _ _)
theorem Dev.pushFc_failLike (d : Dev) (k : Nat) (i : FcItem) : d.failLike (d.pushFc k i) := by
  unfold Dev.pushFc
  exact .ite (.ite (.bst d _) (.refl d)) (.ite ((Dev.updCollector_failLike _ _ _).trans (Dev.runCollector_failLike _ _)) (.refl d))
theorem Dev.pushAll_failLike (d : Dev) (n : Nat) (i : FcItem) : d.failLike (d.pushAll n i) :=
  .foldl (fun x k => Dev.pushFc_failLike x k i) _ (.refl d)
theorem Dev.marker_failLike (d : Dev) (n t m c : Nat) : d.failLike (d.marker n t m c) := by
  unfold Dev.marker
  exact .ite (Dev.pushFc_failLike _ _ _) (.refl d)
theorem Dev.countVector_failLike (d : Dev) (n : Nat) : d.failLike (d.countVector n) := by
  unfold Dev.countVector
  exact .ite ((Dev.updSource_failLike _ _ _).trans (Dev.marker_failLike _ _ _ _ _)) (Dev.updSource_failLike _ _ _)
theorem Dev.closeRegion_failLike (d : Dev) (n r : Nat) : d.failLike (d.closeRegion n r) :=
  (Dev.updSource_failLike _ _ _).trans ((Dev.updRegion_failLike _ _ _).trans (Dev.pushAll_failLike _ _ _))
theorem Dev.abortAnalysis_failLike (d : Dev) (x : RegSt) : d.failLike (d.abortAnalysis x) := by
  unfold Dev.abortAnalysis
  split
  · exact (Dev.bump_failLike d).trans ((Dev.failLike.rae _ _).trans (Dev.updRegion_failLike _ _ _))
  · split
    · exact .refl d
    · exact .ite (.refl d) ((Dev.failLike.rae d _).trans (Dev.updRegion_failLike _ _ _))
theorem Dev.blockEnd_failLike (d : Dev) (n r : Nat) : d.failLike (d.blockEnd n r) := by
  unfold Dev.blockEnd
  exact .ite (.refl d) (.ite ((Dev.marker_failLike _ _ _ _ _).trans (Dev.closeRegion_failLike _ _ _)) (.refl d))
theorem Dev.blockStart_failLike (d : Dev) (n r : Nat) : d.failLike (d.blockStart n r) := by
  have open_like : ∀ x : Dev, x.failLike
      (if (d.source n).region = some r then x
       else
        let y := if x.raeActive r then x.abortAnalysis .opened else x
        let z := { y with rae := { y.rae with queue := y.rae.queue.filter (· != r) } }
        z.updRegion r fun g => { g with st := .opened, openers := setBit g.openers n }) := fun x =>
    .ite (.refl x) (.trans (.ite (Dev.abortAnalysis_failLike _ _) (.refl x))
      ((Dev.failLike.rae _ _).trans (Dev.updRegion_failLike _ _ _)))
  have tail_like : ∀ x : Dev, x.failLike
      (((x.pushAll n (.opened n r)).updSource n fun s => { s with region := some r, count := 0, wraps := 0 }).marker n 5 r 0) :=
    fun x => (Dev.pushAll_failLike _ _ _).trans ((Dev.updSource_failLike _ _ _).trans (Dev.marker_failLike _ _ _ _ _))
  have close_like : d.failLike (match (d.source n).region with
      | some r0 => if r0 = r then d else d.blockEnd n r0
      | none => d) := by
    split
    · exact .ite (.refl d) (Dev.blockEnd_failLike _ _ _)
    · exact .refl d
  unfold Dev.blockStart
  exact .ite (Dev.updSource_failLike _ _ _) (close_like.trans ((open_like _).trans (tail_like _)))
theorem Dev.sourceStart_failLike (d : Dev) (n : Nat) : d.failLike (d.sourceStart n) := by
  unfold Dev.sourceStart
  extract_lets d1
  have h : d.failLike d1 := by
    simp only [d1]
    split
    · exact .ite (Dev.closeRegion_failLike _ _ _) (.refl d)
    · exact .refl d
  exact h.trans (Dev.updSource_failLike _ _ _)
theorem Dev.sourceStop_failLike (d : Dev) (n c : Nat) : d.failLike (d.sourceStop n c) := by
  unfold Dev.sourceStop
  exact .trans (.ite (Dev.marker_failLike _ _ _ _ _) (.refl d)) (Dev.pushAll_failLike _ _ _)

end Sys2Proof.Machine
end

