-- ==== Sys2Proof/Laws/Engine.lean ====
section
/-! SUPPORT. What issuing, committing and forming a vector do to the engines: the lemmas that the statements about the Yunor
instructions rest on. -/

namespace Sys2Proof.Machine

theorem Store.drop_drop {α : Type} (l : Store α) (k : Nat) : Store.drop (Store.drop l k) k = Store.drop l k := by
  induction l with
  | nil => rfl
  | cons e r ih =>
    obtain ⟨i, v⟩ := e
    by_cases h : i = k
    · simp [Store.drop, h, ih]
    · simp [Store.drop, h, ih]

theorem Store.drop_insert {α : Type} (l : Store α) (k : Nat) (v : α) :
    Store.drop (Store.insert l k v) k = Store.drop l k := by
  induction l with
  | nil => simp [Store.insert, Store.drop]
  | cons e r ih =>
    obtain ⟨i, w⟩ := e
    by_cases h : k < i
    · simp [Store.insert, Store.drop, h]
    · by_cases hi : i = k
      · simp [Store.insert, Store.drop, hi, ih]
      · simp [Store.insert, Store.drop, h, hi, ih]

/-- The later of two writes of one key counts. -/
@[simp] theorem Store.put_put {α : Type} [DecidableEq α] (d : Nat → α) (l : Store α) (k : Nat) (v w : α) :
    Store.put d (Store.put d l k v) k w = Store.put d l k w := by
  have h : Store.drop (Store.put d l k v) k = Store.drop l k := by
    unfold Store.put
    split
    · exact Store.drop_drop l k
    · rw [Store.drop_insert, Store.drop_drop]
  simp only [Store.put] at h ⊢
  rw [h]

@[simp] theorem Dev.setEngine_setEngine (d : Dev) (n : Nat) (e f : Engine) :
    (d.setEngine n e).setEngine n f = d.setEngine n f := by
  simp [Dev.setEngine]

@[simp] theorem Dev.setEngine_updEngine (d : Dev) (n : Nat) (e : Engine) (f : Engine → Engine) :
    (d.setEngine n e).updEngine n f = d.setEngine n (f e) := by
  simp [Dev.updEngine]

/-! ## The fail path leaves the engines alone -/

theorem Dev.failLike.eng {a b : Dev} (h : a.failLike b) : b.eng = a.eng := by
  obtain ⟨_, _, _, _, _, _, _, _, rfl⟩ := h; rfl
theorem Dev.failLike.tim {a b : Dev} (h : a.failLike b) : b.tim = a.tim := by
  obtain ⟨_, _, _, _, _, _, _, _, rfl⟩ := h; rfl

theorem Dev.foldl_eng {β : Type} {f : Dev → β → Dev} (hf : ∀ (d : Dev) (x : β), (f d x).eng = d.eng) (l : List β) :
    ∀ d : Dev, (l.foldl f d).eng = d.eng := by
  induction l with
  | nil => intro d; rfl
  | cons x r ih => intro d; rw [List.foldl_cons, ih, hf]

@[simp] theorem Dev.applyEffect_eng (d : Dev) (n : Nat) (x : Effect) : (Dev.applyEffect n d x).eng = d.eng := by
  cases x with
  | enable => rfl
  | disable => rfl
  | blockStart r => exact (Dev.blockStart_failLike d n r).eng
  | blockEnd r => exact (Dev.blockEnd_failLike d n r).eng
  | mark c => exact (Dev.marker_failLike _ _ _ _ _).eng
  | flush => exact (Dev.pushAll_failLike _ _ _).eng
  | attn c => exact Dev.fire_eng _ _ _
  | mask h b =>
    refine Dev.foldl_eng (fun d i => ?_) _ d
    simp only
    split <;> split <;> rfl

/-- A commit empties the list of waiting effects and changes no engine otherwise. -/
@[simp] theorem Dev.commit_eng (d : Dev) (n : Nat) :
    (d.commit n).eng = (d.updEngine n fun e => { e with uncommitted := [] }).eng :=
  Dev.foldl_eng (fun x y => Dev.applyEffect_eng x n y) _ _

/-- Engine `j` in a device whose engines are those of another. -/
theorem Dev.engine_congr {a b : Dev} (h : a.eng = b.eng) (j : Nat) : a.engine j = b.engine j := by
  simp only [Dev.engine, h]

theorem Dev.commit_engine_self (d : Dev) (n : Nat) : (d.commit n).engine n = { d.engine n with uncommitted := [] } := by
  rw [Dev.engine_congr (Dev.commit_eng d n)]
  simp

theorem Dev.form_eng (ts t : Nat) (stb : Strobe) (ps : List Part) (d : Dev) : (d.form ts t stb ps).1.eng = d.eng := by
  suffices h : ∀ (l : List Part) (r : Dev × List Cand), (l.foldl (fun (r : Dev × List Cand) p =>
      let x := (r.1.channel p.ch).vector p.ch (r.1.setAt p.ch ts t) p.s1 p.s2 (r.1.corrs p.ch) (64 * t : Nat) stb.cut
        (bit stb.chA p.ch) (bit stb.clA p.ch) (bit stb.chB p.ch) (bit stb.clB p.ch)
      (r.1.setChannel p.ch x.1, r.2 ++ x.2)) r).1.eng = r.1.eng from h ps (d, [])
  intro l
  induction l with
  | nil => intro r; rfl
  | cons p q ih => intro r; rw [List.foldl_cons, ih]; rfl

theorem Dev.reportFails_failLike (d : Dev) (n : Nat) (xa ya : BitVec 24) (cs : List Cand) :
    d.failLike (d.reportFails n xa ya cs) := by
  unfold Dev.reportFails
  have h : ∀ m, d.failLike (if failBits cs = 0 then d else { d with byt := { d.byt with failMask := m } }) := fun m =>
    .ite (.refl d) ⟨d.evt, d.cmd, _, d.log, d.fcp, d.rae, d.bst, d.fresh, rfl⟩
  refine .ite (h _) (.foldl (fun x k => ?_) _ (h _))
  dsimp only
  exact .ite (.refl x) (Dev.pushFc_failLike _ _ _)

/-! ## A vector in flight -/

/-- What the start of a vector leaves of its engine (R35, R76, R98). -/
def Engine.started (e : Engine) (v : Flight) (x : Decision) (cs : List Cand) : Engine :=
  { e with decisions := addDecision x e.decisions, lastVec := .made cs, ckpt := v.after, vecEnd := v.start + v.period }

theorem Dev.updEngine_eng {a b : Dev} (h : a.eng = b.eng) (n : Nat) (f : Engine → Engine) :
    (a.updEngine n f).eng = (b.updEngine n f).eng := by
  simp only [Dev.updEngine, Dev.setEngine, Dev.engine, h]

/-- The start of a vector changes its own engine alone, and there the decisions, the last vector, the state after it and its
end. -/
theorem Dev.startVector_eng (d : Dev) (n : Nat) (v : Flight) :
    ∃ x cs, (d.startVector n v).eng = (d.updEngine n fun e => e.started v x cs).eng := by
  unfold Dev.startVector
  extract_lets d1 r d2
  refine ⟨(decisionOf (r.2.filter fun c => !c.masked)).getD { arrives := v.start, fail := false }, r.2,
    Dev.updEngine_eng ?_ n _⟩
  exact ((Dev.countVector_failLike _ _).eng.trans (Dev.reportFails_failLike _ _ _ _ _).eng).trans
    ((Dev.form_eng _ _ _ _ _).trans (Dev.foldl_eng (fun x y => Dev.applyEffect_eng x n y) _ _))

/-- What vectors that start leave of an engine: everything but the vectors in flight, the decisions, the last vector, the
state after it and its end. -/
def Engine.flown (e x : Engine) : Prop :=
  ∃ fl ds lv ck ve, x = { e with flight := fl, decisions := ds, lastVec := lv, ckpt := ck, vecEnd := ve }

theorem Engine.flown.refl (e : Engine) : e.flown e := ⟨_, _, _, _, _, rfl⟩
theorem Engine.flown.trans {a b c : Engine} (h1 : a.flown b) (h2 : b.flown c) : a.flown c := by
  obtain ⟨_, _, _, _, _, rfl⟩ := h1
  obtain ⟨_, _, _, _, _, rfl⟩ := h2
  exact ⟨_, _, _, _, _, rfl⟩

theorem Dev.flyN_eng (n k : Nat) : ∀ d : Dev, (d.engine n).flown ((Dev.flyN n k d).engine n) ∧
    ∀ j, j ≠ n → (Dev.flyN n k d).engine j = d.engine j := by
  induction k with
  | zero => intro d; exact ⟨.refl _, fun _ _ => rfl⟩
  | succ k ih =>
    intro d
    unfold Dev.flyN
    cases hv : (d.engine n).flight with
    | nil => exact ⟨.refl _, fun _ _ => rfl⟩
    | cons v rest =>
      dsimp only
      split
      · obtain ⟨x, cs, hx⟩ := Dev.startVector_eng (d.updEngine n fun e => { e with flight := rest }) n v
        obtain ⟨h1, h2⟩ := ih ((d.updEngine n fun e => { e with flight := rest }).startVector n v)
        refine ⟨Engine.flown.trans ?_ h1, fun j hj => ?_⟩
        · rw [Dev.engine_congr hx]
          simp only [Dev.updEngine_engine_self]
          exact ⟨_, _, _, _, _, rfl⟩
        · rw [h2 j hj, Dev.engine_congr hx]
          rw [Dev.updEngine_engine_of_ne _ _ _ (Ne.symm hj), Dev.updEngine_engine_of_ne _ _ _ (Ne.symm hj)]
      · exact ⟨.refl _, fun _ _ => rfl⟩

/-- A vector that engine `n` fetched leaves everything of the engine but the vectors in flight, the decisions, the last vector,
the state after it and its end, and the effects that it committed. -/
def Engine.emitted (e x : Engine) : Prop :=
  ∃ fl ds lv ck ve un, x = { e with flight := fl, decisions := ds, lastVec := lv, ckpt := ck, vecEnd := ve, uncommitted := un }

theorem Engine.flown.emitted {e x : Engine} (h : e.flown x) : e.emitted x := by
  obtain ⟨_, _, _, _, _, rfl⟩ := h; exact ⟨_, _, _, _, _, _, rfl⟩
theorem Engine.emitted.trans {a b c : Engine} (h1 : a.emitted b) (h2 : b.emitted c) : a.emitted c := by
  obtain ⟨_, _, _, _, _, _, rfl⟩ := h1
  obtain ⟨_, _, _, _, _, _, rfl⟩ := h2
  exact ⟨_, _, _, _, _, _, rfl⟩

theorem Dev.fly_eng (d : Dev) (n : Nat) :
    (d.engine n).emitted ((d.fly n).engine n) ∧ ∀ j, j ≠ n → (d.fly n).engine j = d.engine j := by
  obtain ⟨h1, h2⟩ := Dev.flyN_eng n (d.engine n).flight.length d
  unfold Dev.fly
  dsimp only
  generalize Dev.flyN n (d.engine n).flight.length d = x at *
  split
  · unfold Dev.commitIdle
    split
    · refine ⟨h1.emitted.trans ?_, fun j hj => ?_⟩
      · rw [Dev.commit_engine_self]
        exact ⟨_, _, _, _, _, _, rfl⟩
      · rw [Dev.engine_congr (Dev.commit_eng x n)]
        rw [Dev.updEngine_engine_of_ne _ _ _ (Ne.symm hj), h2 j hj]
    · exact ⟨h1.emitted, h2⟩
  · exact ⟨h1.emitted, h2⟩

/-- The engine that has fetched a vector of set `ts` on its next slot: the decisions that have arrived acted, and its next slot
begins after the period. -/
def Engine.fetched (e : Engine) (p : Nat) : Engine :=
  { e.toSlot.settle e.toSlot.slot with issueAt := e.toSlot.slot + 1, slotAt := e.toSlot.slot + p }

theorem Dev.emit_eng (d : Dev) (n ts : Nat) (pre : Arch) (gen : Option DWord) (sa sb : BitVec 4) (stb : Strobe) :
    let x := (d.engine n).toSlot
    ((d.engine n).fetched (d.period n ts (x.ballAt x.slot))).emitted ((d.emit n ts pre gen sa sb stb).engine n) ∧
      ∀ j, j ≠ n → (d.emit n ts pre gen sa sb stb).engine j = d.engine j := by
  intro x
  unfold Dev.emit
  extract_lets t start p e' v
  have h := Dev.fly_eng (d.setEngine n { e' with uncommitted := [], issueAt := t + 1, slotAt := t + p, flight := e'.flight ++ [v] }) n
  rw [Dev.setEngine_engine_self] at h
  refine ⟨Engine.emitted.trans ⟨e'.flight ++ [v], e'.decisions, e'.lastVec, e'.ckpt, e'.vecEnd, [], rfl⟩ h.1, fun j hj => ?_⟩
  rw [h.2 j hj, Dev.setEngine_engine_of_ne _ _ _ (Ne.symm hj)]

end Sys2Proof.Machine
end

