-- ==== Sys2Proof/Laws/Exec.lean ====
section
/-! SUPPORT. One equation per command: `exec` is its meaning. And what a step does. -/

namespace Sys2Proof.Machine

theorem exec_vec (n : Fin 64) (dut : List Strobe) (s : State) : exec (.vec n dut) s = execVec n dut s := rfl
theorem exec_vgen (n : Fin 64) (dut : Strobe) (s : State) : exec (.vgen n dut) s = execVgen n dut s := rfl
theorem exec_vstr (n : Fin 64) (dut : List Strobe) (s : State) : exec (.vstr n dut) s = execVstr n dut s := rfl
theorem exec_vhold (n : Fin 64) (k : Nat) (s : State) : exec (.vhold n k) s = execVhold n k s := rfl
theorem exec_brz (n : Fin 64) (s : State) : exec (.brz n) s = execBrz n s := rfl
theorem exec_nop (n : Fin 64) (s : State) : exec (.nop n) s = execNop n s := rfl
theorem exec_jmp (n : Fin 64) (s : State) : exec (.jmp n) s = execJmp n s := rfl
theorem exec_jsr (n : Fin 64) (s : State) : exec (.jsr n) s = execJsr n s := rfl
theorem exec_rts (n : Fin 64) (s : State) : exec (.rts n) s = execRts n s := rfl
theorem exec_brc (n : Fin 64) (s : State) : exec (.brc n) s = execBrc n s := rfl
theorem exec_loop (n : Fin 64) (s : State) : exec (.loop n) s = execLoop n s := rfl
theorem exec_mloop (n : Fin 64) (s : State) : exec (.mloop n) s = execMloop n s := rfl
theorem exec_page (n : Fin 64) (s : State) : exec (.page n) s = execPage n s := rfl
theorem exec_halt (n : Fin 64) (s : State) : exec (.halt n) s = execHalt n s := rfl
theorem exec_ldi (n : Fin 64) (s : State) : exec (.ldi n) s = execLdi n s := rfl
theorem exec_alu (n : Fin 64) (s : State) : exec (.alu n) s = execAlu n s := rfl
theorem exec_alui (n : Fin 64) (s : State) : exec (.alui n) s = execAlui n s := rfl
theorem exec_xop (n : Fin 64) (s : State) : exec (.xop n) s = execXop n s := rfl
theorem exec_yop (n : Fin 64) (s : State) : exec (.yop n) s = execYop n s := rfl
theorem exec_dgop (n : Fin 64) (s : State) : exec (.dgop n) s = execDgop n s := rfl
theorem exec_map (n : Fin 64) (s : State) : exec (.map n) s = execMap n s := rfl
theorem exec_mov (n : Fin 64) (s : State) : exec (.mov n) s = execMov n s := rfl
theorem exec_waitg (n : Fin 64) (s : State) : exec (.waitg n) s = execWaitg n s := rfl
theorem exec_sync (n : Fin 64) (s : State) : exec (.sync n) s = execSync n s := rfl
theorem exec_syncTimeout (n : Fin 64) (s : State) : exec (.syncTimeout n) s = execSyncTimeout n s := rfl
theorem exec_fctlEnable (n : Fin 64) (s : State) : exec (.fctlEnable n) s = execFctlEnable n s := rfl
theorem exec_fctlDisable (n : Fin 64) (s : State) : exec (.fctlDisable n) s = execFctlDisable n s := rfl
theorem exec_fctlBlockStart (n : Fin 64) (s : State) : exec (.fctlBlockStart n) s = execFctlBlockStart n s := rfl
theorem exec_fctlBlockEnd (n : Fin 64) (s : State) : exec (.fctlBlockEnd n) s = execFctlBlockEnd n s := rfl
theorem exec_fctlMark (n : Fin 64) (s : State) : exec (.fctlMark n) s = execFctlMark n s := rfl
theorem exec_fctlFlush (n : Fin 64) (s : State) : exec (.fctlFlush n) s = execFctlFlush n s := rfl
theorem exec_fctlClrstk (n : Fin 64) (s : State) : exec (.fctlClrstk n) s = execFctlClrstk n s := rfl
theorem exec_mask (n : Fin 64) (s : State) : exec (.mask n) s = execMask n s := rfl
theorem exec_attn (n : Fin 64) (s : State) : exec (.attn n) s = execAttn n s := rfl
theorem exec_fxfer (n : Fin 64) (s : State) : exec (.fxfer n) s = execFxfer n s := rfl
theorem exec_failDecision (n : Fin 64) (s : State) : exec (.failDecision n) s = execFailDecision n s := rfl
theorem exec_stopBoundary (n : Fin 64) (parity : Bool) (s : State) : exec (.stopBoundary n parity) s = execStopBoundary n parity s := rfl
theorem exec_failEntry (k : Fin 8) (s : State) : exec (.failEntry k) s = execFailEntry k s := rfl
theorem exec_compactionExit (k : Fin 8) (s : State) : exec (.compactionExit k) s = execCompactionExit k s := rfl
theorem exec_fatIngest (present : List Nat) (s : State) : exec (.fatIngest present) s = execFatIngest present s := rfl
theorem exec_regionClose (r : Fin 4096) (s : State) : exec (.regionClose r) s = execRegionClose r s := rfl
theorem exec_fatClearDone (s : State) : exec (.fatClearDone) s = execFatClearDone s := rfl
theorem exec_raeAnalysisStart (s : State) : exec (.raeAnalysisStart) s = execRaeAnalysisStart s := rfl
theorem exec_gatherDone (s : State) : exec (.gatherDone) s = execGatherDone s := rfl
theorem exec_mustRepairDone (s : State) : exec (.mustRepairDone) s = execMustRepairDone s := rfl
theorem exec_searchDone (s : State) : exec (.searchDone) s = execSearchDone s := rfl
theorem exec_recordWrite (s : State) : exec (.recordWrite) s = execRecordWrite s := rfl
theorem exec_beatBoundary (per : BitVec 24) (s : State) : exec (.beatBoundary per) s = execBeatBoundary per s := rfl
theorem exec_autoReloadAnnounce (s : State) : exec (.autoReloadAnnounce) s = execAutoReloadAnnounce s := rfl
theorem exec_stepBoundary (s : State) : exec (.stepBoundary) s = execStepBoundary s := rfl
theorem exec_measurementDone (c : Fin 64) (t : Fin 5) (s : State) : exec (.measurementDone c t) s = execMeasurementDone c t s := rfl
theorem exec_breezeSample (c : Fin 64) (x : Sample) (ok : Bool) (s : State) : exec (.breezeSample c x ok) s = execBreezeSample c x ok s := rfl
theorem exec_armLapse (q : Fin 16) (s : State) : exec (.armLapse q) s = execArmLapse q s := rfl
theorem exec_om2Window (s : State) : exec (.om2Window) s = execOm2Window s := rfl
theorem exec_windowCheck (s : State) : exec (.windowCheck) s = execWindowCheck s := rfl
theorem exec_holdoffEnd (s : State) : exec (.holdoffEnd) s = execHoldoffEnd s := rfl
theorem exec_sweepDone (res : List SweepRes) (s : State) : exec (.sweepDone res) s = execSweepDone res s := rfl
theorem exec_sweepRepeat (s : State) : exec (.sweepRepeat) s = execSweepRepeat s := rfl
theorem exec_rampDevCheck (meas : BitVec 24) (s : State) : exec (.rampDevCheck meas) s = execRampDevCheck meas s := rfl
theorem exec_rampSegmentEnd (s : State) : exec (.rampSegmentEnd) s = execRampSegmentEnd s := rfl
theorem exec_lock (pll : Fin 6) (band : BitVec 6) (cw : BitVec 16) (d1 d2 d3 diff : BitVec 8) (table : List (BitVec 16)) (s : State) : exec (.lock pll band cw d1 d2 d3 diff table) s = execLock pll band cw d1 d2 d3 diff table s := rfl
theorem exec_dllLock (pll : Fin 6) (d1 d2 d3 diff : BitVec 8) (s : State) : exec (.dllLock pll d1 d2 d3 diff) s = execDllLock pll d1 d2 d3 diff s := rfl
theorem exec_lockLoss (pll : Fin 6) (cause : LossCause) (diff : BitVec 8) (cw : BitVec 16) (s : State) : exec (.lockLoss pll cause diff cw) s = execLockLoss pll cause diff cw s := rfl
theorem exec_bandFail (pll : Fin 6) (table : List (BitVec 16)) (s : State) : exec (.bandFail pll table) s = execBandFail pll table s := rfl
theorem exec_holdExpired (pll : Fin 6) (s : State) : exec (.holdExpired pll) s = execHoldExpired pll s := rfl
theorem exec_trackTimeout (pll : Fin 6) (s : State) : exec (.trackTimeout pll) s = execTrackTimeout pll s := rfl
theorem exec_fmaxTrip (pll : Fin 6) (s : State) : exec (.fmaxTrip pll) s = execFmaxTrip pll s := rfl
theorem exec_spreadApex (s : State) : exec (.spreadApex) s = execSpreadApex s := rfl
theorem exec_roleWindowEnd (clock : Bool) (s : State) : exec (.roleWindowEnd clock) s = execRoleWindowEnd clock s := rfl
theorem exec_mark (p : Fin 4) (f : Frame) (arr : BitVec 32) (s : State) : exec (.mark p f arr) s = execMark p f arr s := rfl
theorem exec_markSend (offset : BitVec 16) (s : State) : exec (.markSend offset) s = execMarkSend offset s := rfl
theorem exec_markMissing (s : State) : exec (.markMissing) s = execMarkMissing s := rfl
theorem exec_prepare (p : Fin 4) (f : Frame) (s : State) : exec (.prepare p f) s = execPrepare p f s := rfl
theorem exec_vote (p : Fin 4) (f : Frame) (s : State) : exec (.vote p f) s = execVote p f s := rfl
theorem exec_decision (p : Fin 4) (f : Frame) (s : State) : exec (.decision p f) s = execDecision p f s := rfl
theorem exec_voteTimeout (t : Fin 8) (s : State) : exec (.voteTimeout t) s = execVoteTimeout t s := rfl
theorem exec_coordinatorLate (t : Fin 8) (s : State) : exec (.coordinatorLate t) s = execCoordinatorLate t s := rfl
theorem exec_deliveryStart (t : Fin 8) (s : State) : exec (.deliveryStart t) s = execDeliveryStart t s := rfl
theorem exec_deliveryDone (t : Fin 8) (s : State) : exec (.deliveryDone t) s = execDeliveryDone t s := rfl
theorem exec_hello (p : Fin 4) (f : Frame) (s : State) : exec (.hello p f) s = execHello p f s := rfl
theorem exec_echoSend (t : DWord) (s : State) : exec (.echoSend t) s = execEchoSend t s := rfl
theorem exec_echoReq (p : Fin 4) (f : Frame) (turn : BitVec 32) (s : State) : exec (.echoReq p f turn) s = execEchoReq p f turn s := rfl
theorem exec_echoRsp (p : Fin 4) (f : Frame) (rtt : BitVec 32) (s : State) : exec (.echoRsp p f rtt) s = execEchoRsp p f rtt s := rfl
theorem exec_joinReq (p : Fin 4) (f : Frame) (s : State) : exec (.joinReq p f) s = execJoinReq p f s := rfl
theorem exec_joinAck (p : Fin 4) (f : Frame) (s : State) : exec (.joinAck p f) s = execJoinAck p f s := rfl
theorem exec_joinRefuse (p : Fin 4) (f : Frame) (s : State) : exec (.joinRefuse p f) s = execJoinRefuse p f s := rfl
theorem exec_joinRetry (s : State) : exec (.joinRetry) s = execJoinRetry s := rfl
theorem exec_ready (p : Fin 4) (f : Frame) (s : State) : exec (.ready p f) s = execReady p f s := rfl
theorem exec_notready (p : Fin 4) (f : Frame) (s : State) : exec (.notready p f) s = execNotready p f s := rfl
theorem exec_leave (p : Fin 4) (f : Frame) (s : State) : exec (.leave p f) s = execLeave p f s := rfl
theorem exec_topo (p : Fin 4) (f : Frame) (s : State) : exec (.topo p f) s = execTopo p f s := rfl
theorem exec_summary (p : Fin 4) (f : Frame) (s : State) : exec (.summary p f) s = execSummary p f s := rfl
theorem exec_event (p : Fin 4) (f : Frame) (s : State) : exec (.event p f) s = execEvent p f s := rfl
theorem exec_ack (p : Fin 4) (f : Frame) (s : State) : exec (.ack p f) s = execAck p f s := rfl
theorem exec_ackTimeout (p : Fin 4) (seq : BitVec 8) (s : State) : exec (.ackTimeout p seq) s = execAckTimeout p seq s := rfl
theorem exec_trainingStageDone (p : Fin 4) (s : State) : exec (.trainingStageDone p) s = execTrainingStageDone p s := rfl
theorem exec_trainingTimeout (p : Fin 4) (s : State) : exec (.trainingTimeout p) s = execTrainingTimeout p s := rfl
theorem exec_portDown (p : Fin 4) (s : State) : exec (.portDown p) s = execPortDown p s := rfl
theorem exec_read (p : Packet) (s : State) : exec (.read p) s = execRead p s := rfl
theorem exec_write (p : Packet) (s : State) : exec (.write p) s = execWrite p s := rfl
theorem exec_writePosted (p : Packet) (s : State) : exec (.writePosted p) s = execWritePosted p s := rfl
theorem exec_resp (origin : Fin 36) (p : Packet) (s : State) : exec (.resp origin p) s = execResp origin p s := rfl
theorem exec_errResp (origin : Fin 36) (p : Packet) (s : State) : exec (.errResp origin p) s = execErrResp origin p s := rfl
theorem exec_atomicOr (p : Packet) (s : State) : exec (.atomicOr p) s = execAtomicOr p s := rfl
theorem exec_atomicAdd (p : Packet) (s : State) : exec (.atomicAdd p) s = execAtomicAdd p s := rfl
theorem exec_atomicSwap (p : Packet) (s : State) : exec (.atomicSwap p) s = execAtomicSwap p s := rfl
theorem exec_atomicCas (p : Packet) (s : State) : exec (.atomicCas p) s = execAtomicCas p s := rfl
theorem exec_flush (p : Packet) (s : State) : exec (.flush p) s = execFlush p s := rfl
theorem exec_nocTimeout (src : Fin 64) (tag : Fin 1024) (s : State) : exec (.nocTimeout src tag) s = execNocTimeout src tag s := rfl
theorem exec_drainTimeout (n : Fin 40) (s : State) : exec (.drainTimeout n) s = execDrainTimeout n s := rfl
theorem exec_fenceComplete (n : Fin 40) (s : State) : exec (.fenceComplete n) s = execFenceComplete n s := rfl
theorem exec_restoreDone (n : Fin 40) (s : State) : exec (.restoreDone n) s = execRestoreDone n s := rfl
theorem exec_entryDone (n : Fin 40) (s : State) : exec (.entryDone n) s = execEntryDone n s := rfl
theorem exec_wake (n : Fin 40) (src : Fin 5) (lost : Bool) (s : State) : exec (.wake n src lost) s = execWake n src lost s := rfl
theorem exec_pwrTimerExpired (s : State) : exec (.pwrTimerExpired) s = execPwrTimerExpired s := rfl
theorem exec_powerOn (globErr vref33 : Bool) (planeErr : BitVec 16) (upto : Fin 8) (s : State) : exec (.powerOn globErr vref33 planeErr upto) s = execPowerOn globErr vref33 planeErr upto s := rfl
theorem exec_lockout (s : State) : exec (.lockout) s = execLockout s := rfl
theorem exec_droop (mv : Nat) (s : State) : exec (.droop mv) s = execDroop mv s := rfl
theorem exec_droopClear (mv : Nat) (s : State) : exec (.droopClear mv) s = execDroopClear mv s := rfl
theorem exec_railFault (rail : Fin 8) (deep : Bool) (s : State) : exec (.railFault rail deep) s = execRailFault rail deep s := rfl
theorem exec_thermal (temp : Int) (s : State) : exec (.thermal temp) s = execThermal temp s := rfl
theorem exec_thermalShutdown (temp : Int) (s : State) : exec (.thermalShutdown temp) s = execThermalShutdown temp s := rfl
theorem exec_resetNAssert (s : State) : exec (.resetNAssert) s = execResetNAssert s := rfl
theorem exec_resetNRelease (globErr : Bool) (planeErr : BitVec 16) (upto : Fin 8) (s : State) : exec (.resetNRelease globErr planeErr upto) s = execResetNRelease globErr planeErr upto s := rfl
theorem exec_safeNAssert (s : State) : exec (.safeNAssert) s = execSafeNAssert s := rfl
theorem exec_safeNRelease (s : State) : exec (.safeNRelease) s = execSafeNRelease s := rfl
theorem exec_presNChange (card : Fin 4) (level : Bool) (ans : DWord) (s : State) : exec (.presNChange card level ans) s = execPresNChange card level ans s := rfl
theorem exec_pcieReset (link : Option (Fin 3 × Fin 4)) (s : State) : exec (.pcieReset link) s = execPcieReset link s := rfl
theorem exec_tapReset (s : State) : exec (.tapReset) s = execTapReset s := rfl
theorem exec_watchdog (s : State) : exec (.watchdog) s = execWatchdog s := rfl
theorem exec_stewardMemerr (s : State) : exec (.stewardMemerr) s = execStewardMemerr s := rfl
theorem exec_restartDone (s : State) : exec (.restartDone) s = execRestartDone s := rfl
theorem exec_doorbell (q : Fin 4) (w : Word) (s : State) : exec (.doorbell q w) s = execDoorbell q w s := rfl
theorem exec_rqHeadWrite (q : Fin 4) (w : Word) (s : State) : exec (.rqHeadWrite q w) s = execRqHeadWrite q w s := rfl
theorem exec_cqCtlWrite (q : Fin 4) (w : Word) (s : State) : exec (.cqCtlWrite q w) s = execCqCtlWrite q w s := rfl
theorem exec_cqReset (q : Fin 4) (s : State) : exec (.cqReset q) s = execCqReset q s := rfl
theorem exec_commandFetch (q : Fin 4) (x : Dma) (s : State) : exec (.commandFetch q x) s = execCommandFetch q x s := rfl
theorem exec_responsePost (q : Fin 4) (s : State) : exec (.responsePost q) s = execResponsePost q s := rfl
theorem exec_notifyTimer (q : Fin 4) (s : State) : exec (.notifyTimer q) s = execNotifyTimer q s := rfl
theorem exec_sysNop (c : Tci) (s : State) : exec (.sysNop c) s = execSysNop c s := rfl
theorem exec_sysInfo (c : Tci) (s : State) : exec (.sysInfo c) s = execSysInfo c s := rfl
theorem exec_sysGci (c : Tci) (s : State) : exec (.sysGci c) s = execSysGci c s := rfl
theorem exec_sysEcho (c : Tci) (s : State) : exec (.sysEcho c) s = execSysEcho c s := rfl
theorem exec_engStart (c : Tci) (s : State) : exec (.engStart c) s = execEngStart c s := rfl
theorem exec_engResume (c : Tci) (s : State) : exec (.engResume c) s = execEngResume c s := rfl
theorem exec_engHalt (c : Tci) (s : State) : exec (.engHalt c) s = execEngHalt c s := rfl
theorem exec_engRelease (c : Tci) (s : State) : exec (.engRelease c) s = execEngRelease c s := rfl
theorem exec_engPageSwap (c : Tci) (s : State) : exec (.engPageSwap c) s = execEngPageSwap c s := rfl
theorem exec_engRefill (c : Tci) (s : State) : exec (.engRefill c) s = execEngRefill c s := rfl
theorem exec_refillTransfer (q : Fin 16) (s : State) : exec (.refillTransfer q) s = execRefillTransfer q s := rfl
theorem exec_refillDone (n : Fin 64) (s : State) : exec (.refillDone n) s = execRefillDone n s := rfl
theorem exec_refillDeadline (n : Fin 64) (s : State) : exec (.refillDeadline n) s = execRefillDeadline n s := rfl
theorem exec_engGang (c : Tci) (s : State) : exec (.engGang c) s = execEngGang c s := rfl
theorem exec_engStream (c : Tci) (s : State) : exec (.engStream c) s = execEngStream c s := rfl
theorem exec_streamFetch (n : Fin 64) (s : State) : exec (.streamFetch n) s = execStreamFetch n s := rfl
theorem exec_timSetMult (c : Tci) (s : State) : exec (.timSetMult c) s = execTimSetMult c s := rfl
theorem exec_timSpread (c : Tci) (s : State) : exec (.timSpread c) s = execTimSpread c s := rfl
theorem exec_calSweep (c : Tci) (s : State) : exec (.calSweep c) s = execCalSweep c s := rfl
theorem exec_fcpMode (c : Tci) (s : State) : exec (.fcpMode c) s = execFcpMode c s := rfl
theorem exec_fcpRead (c : Tci) (x : Dma) (s : State) : exec (.fcpRead c x) s = execFcpRead c x s := rfl
theorem exec_raeLoad (c : Tci) (x : Dma) (s : State) : exec (.raeLoad c x) s = execRaeLoad c x s := rfl
theorem exec_raeRead (c : Tci) (x : Dma) (s : State) : exec (.raeRead c x) s = execRaeRead c x s := rfl
theorem exec_raeStart (c : Tci) (s : State) : exec (.raeStart c) s = execRaeStart c s := rfl
theorem exec_raeAbort (c : Tci) (s : State) : exec (.raeAbort c) s = execRaeAbort c s := rfl
theorem exec_txnOpen (c : Tci) (s : State) : exec (.txnOpen c) s = execTxnOpen c s := rfl
theorem exec_txnStage (c : Tci) (s : State) : exec (.txnStage c) s = execTxnStage c s := rfl
theorem exec_txnCommit (c : Tci) (s : State) : exec (.txnCommit c) s = execTxnCommit c s := rfl
theorem exec_txnAbort (c : Tci) (s : State) : exec (.txnAbort c) s = execTxnAbort c s := rfl
theorem exec_txnRelease (c : Tci) (s : State) : exec (.txnRelease c) s = execTxnRelease c s := rfl
theorem exec_txnQuery (c : Tci) (s : State) : exec (.txnQuery c) s = execTxnQuery c s := rfl
theorem exec_txnClearOos (c : Tci) (s : State) : exec (.txnClearOos c) s = execTxnClearOos c s := rfl
theorem exec_cfgLoad (c : Tci) (x : Dma) (s : State) : exec (.cfgLoad c x) s = execCfgLoad c x s := rfl
theorem exec_loadPass1Done (bad : Option Nat) (x : Dma) (s : State) : exec (.loadPass1Done bad x) s = execLoadPass1Done bad x s := rfl
theorem exec_loadPass2Done (bad : Option Nat) (x : Dma) (s : State) : exec (.loadPass2Done bad x) s = execLoadPass2Done bad x s := rfl
theorem exec_startupStep (s : State) : exec (.startupStep) s = execStartupStep s := rfl
theorem exec_shadowCheck (r : Fin 16) (ok : Bool) (s : State) : exec (.shadowCheck r ok) s = execShadowCheck r ok s := rfl
theorem exec_activeStore (s : State) : exec (.activeStore) s = execActiveStore s := rfl
theorem exec_cfgSwap (c : Tci) (s : State) : exec (.cfgSwap c) s = execCfgSwap c s := rfl
theorem exec_cfgAbort (c : Tci) (s : State) : exec (.cfgAbort c) s = execCfgAbort c s := rfl
theorem exec_cfgKeyProg (c : Tci) (v : Verify) (s : State) : exec (.cfgKeyProg c v) s = execCfgKeyProg c v s := rfl
theorem exec_cfgEnconly (c : Tci) (s : State) : exec (.cfgEnconly c) s = execCfgEnconly c s := rfl
theorem exec_holdEnd (r : Fin 16) (s : State) : exec (.holdEnd r) s = execHoldEnd r s := rfl
theorem exec_eventLine (l : Fin 32) (v : Bool) (s : State) : exec (.eventLine l v) s = execEventLine l v s := rfl
theorem exec_fxinWrite (n : Fin 64) (w : DWord) (s : State) : exec (.fxinWrite n w) s = execFxinWrite n w s := rfl
theorem exec_bytEpochReload (c : Tci) (s : State) : exec (.bytEpochReload c) s = execBytEpochReload c s := rfl
theorem exec_bytRealign (c : Tci) (s : State) : exec (.bytRealign c) s = execBytRealign c s := rfl
theorem exec_bytPortCtl (c : Tci) (s : State) : exec (.bytPortCtl c) s = execBytPortCtl c s := rfl
theorem exec_pwrSet (c : Tci) (s : State) : exec (.pwrSet c) s = execPwrSet c s := rfl
theorem exec_pwrQuery (c : Tci) (s : State) : exec (.pwrQuery c) s = execPwrQuery c s := rfl
theorem exec_bstRun (c : Tci) (s : State) : exec (.bstRun c) s = execBstRun c s := rfl
theorem exec_bstStart (drainFail : Bool) (s : State) : exec (.bstStart drainFail) s = execBstStart drainFail s := rfl
theorem exec_bstCheckpoint (n : Fin 40) (s : State) : exec (.bstCheckpoint n) s = execBstCheckpoint n s := rfl
theorem exec_bstEnd (n : Fin 40) (pass : Bool) (dur : Word) (cells : List (Word × BitVec 9)) (s : State) : exec (.bstEnd n pass dur cells) s = execBstEnd n pass dur cells s := rfl
theorem exec_bstAbort (c : Tci) (s : State) : exec (.bstAbort c) s = execBstAbort c s := rfl
theorem exec_bstRepair (c : Tci) (v : Verify) (s : State) : exec (.bstRepair c v) s = execBstRepair c v s := rfl
theorem exec_logFreeze (c : Tci) (s : State) : exec (.logFreeze c) s = execLogFreeze c s := rfl
theorem exec_logRelease (c : Tci) (s : State) : exec (.logRelease c) s = execLogRelease c s := rfl
theorem exec_logSeq (c : Tci) (s : State) : exec (.logSeq c) s = execLogSeq c s := rfl
theorem exec_freezeEffect (v : Verify) (s : State) : exec (.freezeEffect v) s = execFreezeEffect v s := rfl
theorem exec_freezeAutoRelease (s : State) : exec (.freezeAutoRelease) s = execFreezeAutoRelease s := rfl
theorem exec_logRecordWrite (v : Verify) (s : State) : exec (.logRecordWrite v) s = execLogRecordWrite v s := rfl
theorem exec_recordSeal (v : Verify) (s : State) : exec (.recordSeal v) s = execRecordSeal v s := rfl
theorem exec_opsecTick (s : State) : exec (.opsecTick) s = execOpsecTick s := rfl
theorem exec_opsecStore (v : Verify) (s : State) : exec (.opsecStore v) s = execOpsecStore v s := rfl
theorem exec_lcyQuery (c : Tci) (s : State) : exec (.lcyQuery c) s = execLcyQuery c s := rfl
theorem exec_lcyTransition (c : Tci) (upto : Fin 8) (s : State) : exec (.lcyTransition c upto) s = execLcyTransition c upto s := rfl
theorem exec_nvsRead (c : Tci) (x : Dma) (s : State) : exec (.nvsRead c x) s = execNvsRead c x s := rfl
theorem exec_nvsProgram (c : Tci) (x : Dma) (s : State) : exec (.nvsProgram c x) s = execNvsProgram c x s := rfl
theorem exec_nvsErase (c : Tci) (s : State) : exec (.nvsErase c) s = execNvsErase c s := rfl
theorem exec_nvsUnlock (c : Tci) (s : State) : exec (.nvsUnlock c) s = execNvsUnlock c s := rfl
theorem exec_stwVersion (c : Tci) (s : State) : exec (.stwVersion c) s = execStwVersion c s := rfl
theorem exec_stwPatch (c : Tci) (s : State) : exec (.stwPatch c) s = execStwPatch c s := rfl
theorem exec_stwInstall (c : Tci) (s : State) : exec (.stwInstall c) s = execStwInstall c s := rfl
theorem exec_nvsSequence (src : Fin 64) (reg : Fin 7) (w : Word) (s : State) : exec (.nvsSequence src reg w) s = execNvsSequence src reg w s := rfl
theorem exec_nvsSeqTimeout (s : State) : exec (.nvsSeqTimeout) s = execNvsSeqTimeout s := rfl
theorem exec_program (src : Fin 64) (addr : Word) (w : QWord) (s : State) : exec (.program src addr w) s = execProgram src addr w s := rfl
theorem exec_erase (src : Fin 64) (addr : Word) (s : State) : exec (.erase src addr) s = execErase src addr s := rfl
theorem exec_suspend (src : Fin 64) (addr : Word) (s : State) : exec (.suspend src addr) s = execSuspend src addr s := rfl
theorem exec_resume (src : Fin 64) (addr : Word) (s : State) : exec (.resume src addr) s = execResume src addr s := rfl
theorem exec_zunlock (src : Fin 64) (addr : Word) (data : List Word) (s : State) : exec (.zunlock src addr data) s = execZunlock src addr data s := rfl
theorem exec_zlock (src : Fin 64) (addr : Word) (s : State) : exec (.zlock src addr) s = execZlock src addr s := rfl
theorem exec_zset (src : Fin 64) (addr : Word) (data : List Word) (s : State) : exec (.zset src addr data) s = execZset src addr data s := rfl
theorem exec_zclear (src : Fin 64) (addr : Word) (s : State) : exec (.zclear src addr) s = execZclear src addr s := rfl
theorem exec_programDone (b : Fin 4) (v : Verify) (s : State) : exec (.programDone b v) s = execProgramDone b v s := rfl
theorem exec_eraseDone (b : Fin 4) (ok : Bool) (s : State) : exec (.eraseDone b ok) s = execEraseDone b ok s := rfl
theorem exec_eraseAutoResume (b : Fin 4) (s : State) : exec (.eraseAutoResume b) s = execEraseAutoResume b s := rfl
theorem exec_discovery (ts : List BusTarget) (s : State) : exec (.discovery ts) s = execDiscovery ts s := rfl
theorem exec_getstatusPoll (ans : DWord) (s : State) : exec (.getstatusPoll ans) s = execGetstatusPoll ans s := rfl
theorem exec_hotJoin (t : BusTarget) (s : State) : exec (.hotJoin t) s = execHotJoin t s := rfl
theorem exec_ptrHdctlGo (w : Word) (s : State) : exec (.ptrHdctlGo w) s = execPtrHdctlGo w s := rfl
theorem exec_trainingDone (ok : BitVec 4) (cap : Nat) (s : State) : exec (.trainingDone ok cap) s = execTrainingDone ok cap s := rfl
theorem exec_wipeDone (s : State) : exec (.wipeDone) s = execWipeDone s := rfl
theorem exec_refresh (k : Fin 4) (s : State) : exec (.refresh k) s = execRefresh k s := rfl
theorem exec_vmiCfgTrain (w : Word) (s : State) : exec (.vmiCfgTrain w) s = execVmiCfgTrain w s := rfl
theorem exec_vmiCfgWrite (w : Word) (s : State) : exec (.vmiCfgWrite w) s = execVmiCfgWrite w s := rfl
theorem exec_vmiWpageWrite (w : Word) (s : State) : exec (.vmiWpageWrite w) s = execVmiWpageWrite w s := rfl
theorem exec_epmWrite (n : Fin 64) (word : Fin 8192) (hi : Bool) (v : Word) (s : State) : exec (.epmWrite n word hi v) s = execEpmWrite n word hi v s := rfl
theorem exec_engHaltWrite (n : Fin 64) (v : Word) (s : State) : exec (.engHaltWrite n v) s = execEngHaltWrite n v s := rfl
theorem exec_svalidWrite (n : Fin 64) (v : Word) (s : State) : exec (.svalidWrite n v) s = execSvalidWrite n v s := rfl
theorem exec_engStateWrite (n : Fin 64) (off : Fin 4096) (v : Word) (s : State) : exec (.engStateWrite n off v) s = execEngStateWrite n off v s := rfl
theorem exec_pinmapWrite (c : Fin 64) (m : Fin 16) (v : Word) (s : State) : exec (.pinmapWrite c m v) s = execPinmapWrite c m v s := rfl
theorem exec_scrambleMaskWrite (c : Fin 64) (k : Fin 4) (v : Word) (s : State) : exec (.scrambleMaskWrite c k v) s = execScrambleMaskWrite c k v s := rfl
theorem exec_timShadowWrite (c k : Fin 64) (j : Fin 4) (w : Word) (s : State) : exec (.timShadowWrite c k j w) s = execTimShadowWrite c k j w s := rfl
theorem exec_timTschkWrite (c : Fin 64) (w : Word) (s : State) : exec (.timTschkWrite c w) s = execTimTschkWrite c w s := rfl
theorem exec_tschkDone (c : Fin 64) (s : State) : exec (.tschkDone c) s = execTschkDone c s := rfl
theorem exec_timSwapWrite (c : Fin 64) (hi : Bool) (w : Word) (s : State) : exec (.timSwapWrite c hi w) s = execTimSwapWrite c hi w s := rfl
theorem exec_timChcfgWrite (c : Fin 64) (w : Word) (s : State) : exec (.timChcfgWrite c w) s = execTimChcfgWrite c w s := rfl
theorem exec_calCorrWrite (c : Fin 64) (t : Fin 5) (w : Word) (s : State) : exec (.calCorrWrite c t w) s = execCalCorrWrite c t w s := rfl
theorem exec_calModecfgWrite (m : Fin 8) (w : Word) (s : State) : exec (.calModecfgWrite m w) s = execCalModecfgWrite m w s := rfl
theorem exec_clkRampSegWrite (k : Fin 2) (n : Fin 16) (hi : Bool) (v : Word) (s : State) : exec (.clkRampSegWrite k n hi v) s = execClkRampSegWrite k n hi v s := rfl
theorem exec_fcpRptrWrite (w : Word) (s : State) : exec (.fcpRptrWrite w) s = execFcpRptrWrite w s := rfl
theorem exec_raeRingWrite (reg : Fin 3) (w : Word) (s : State) : exec (.raeRingWrite reg w) s = execRaeRingWrite reg w s := rfl
theorem exec_raeRtailWrite (w : Word) (s : State) : exec (.raeRtailWrite w) s = execRaeRtailWrite w s := rfl
theorem exec_raeCtlWrite (w : Word) (s : State) : exec (.raeCtlWrite w) s = execRaeCtlWrite w s := rfl
theorem exec_fabGclkWrite (k : Fin 32) (w : Word) (s : State) : exec (.fabGclkWrite k w) s = execFabGclkWrite k w s := rfl
theorem exec_fabRctlWrite (n : Fin 16) (w : Word) (s : State) : exec (.fabRctlWrite n w) s = execFabRctlWrite n w s := rfl
theorem exec_nocRtCheck (w : Word) (s : State) : exec (.nocRtCheck w) s = execNocRtCheck w s := rfl
theorem exec_nocRtSwap (w : Word) (s : State) : exec (.nocRtSwap w) s = execNocRtSwap w s := rfl
theorem exec_lensArm (k : Fin 8) (w : Word) (s : State) : exec (.lensArm k w) s = execLensArm k w s := rfl
theorem exec_bytGroupWrite (g : Fin 256) (k : Fin 32) (w : Word) (s : State) : exec (.bytGroupWrite g k w) s = execBytGroupWrite g k w s := rfl
theorem exec_pwrWakeWrite (n : Fin 40) (v : Word) (s : State) : exec (.pwrWakeWrite n v) s = execPwrWakeWrite n v s := rfl
theorem exec_pwrTimerWrite (v : Word) (s : State) : exec (.pwrTimerWrite v) s = execPwrTimerWrite v s := rfl
theorem exec_evtStatClear (k : Fin 8) (bits : Word) (s : State) : exec (.evtStatClear k bits) s = execEvtStatClear k bits s := rfl
theorem exec_logFrzctlFreeze (src : Fin 64) (s : State) : exec (.logFrzctlFreeze src) s = execLogFrzctlFreeze src s := rfl
theorem exec_logFrzctlRelease (src : Fin 64) (s : State) : exec (.logFrzctlRelease src) s = execLogFrzctlRelease src s := rfl
theorem exec_logAnnGo (v : Word) (s : State) : exec (.logAnnGo v) s = execLogAnnGo v s := rfl
theorem exec_clkGciLoRead (s : State) : exec (.clkGciLoRead) s = execClkGciLoRead s := rfl
theorem exec_sysModeGciLoRead (s : State) : exec (.sysModeGciLoRead) s = execSysModeGciLoRead s := rfl
theorem exec_engStopLoRead (n : Fin 64) (s : State) : exec (.engStopLoRead n) s = execEngStopLoRead n s := rfl
theorem exec_txnTgtLoRead (t : Fin 8) (s : State) : exec (.txnTgtLoRead t) s = execTxnTgtLoRead t s := rfl
theorem exec_evtLastPayRead (n : Fin 256) (s : State) : exec (.evtLastPayRead n) s = execEvtLastPayRead n s := rfl
theorem exec_logSeqNewRead (s : State) : exec (.logSeqNewRead) s = execLogSeqNewRead s := rfl
theorem exec_readClear (a : Access) (s : State) : exec (.readClear a) s = execReadClear a s := rfl
theorem exec_registerWrite (a : Access) (s : State) : exec (.registerWrite a) s = execRegisterWrite a s := rfl
theorem exec_extest (s : State) : exec (.extest) s = execExtest s := rfl
theorem exec_idcode (s : State) : exec (.idcode) s = execIdcode s := rfl
theorem exec_samplePreload (upd ins : Bsr) (s : State) : exec (.samplePreload upd ins) s = execSamplePreload upd ins s := rfl
theorem exec_bypass (s : State) : exec (.bypass) s = execBypass s := rfl
theorem exec_nocacc (router : BitVec 6) (wr : Bool) (addr : BitVec 48) (data : Word) (s : State) : exec (.nocacc router wr addr data) s = execNocacc router wr addr data s := rfl
theorem exec_lcyacc (tgt : BitVec 4) (token : QWord) (upto : Fin 8) (s : State) : exec (.lcyacc tgt token upto) s = execLcyacc tgt token upto s := rfl
theorem exec_unusedOpcode (n : Fin 64) (s : State) : exec (.unusedOpcode n) s = execUnusedOpcode n s := rfl
theorem exec_nocReservedCmd (r : Fin 36) (cmd : Fin 16) (p : Packet) (s : State) : exec (.nocReservedCmd r cmd p) s = execNocReservedCmd r cmd p s := rfl
theorem exec_badFrame (p : Fin 4) (x : Received) (s : State) : exec (.badFrame p x) s = execBadFrame p x s := rfl
theorem exec_referenceReturn (pll : Fin 6) (s : State) : exec (.referenceReturn pll) s = execReferenceReturn pll s := rfl
theorem exec_globalNetEdge (k : Fin 32) (rising : Bool) (ins : List FabIn) (s : State) : exec (.globalNetEdge k rising ins) s = execGlobalNetEdge k rising ins s := rfl
theorem exec_routeCheckDone (s : State) : exec (.routeCheckDone) s = execRouteCheckDone s := rfl
theorem exec_hdescCheckDone (s : State) : exec (.hdescCheckDone) s = execHdescCheckDone s := rfl
theorem exec_eraseStop (b : Fin 4) (s : State) : exec (.eraseStop b) s = execEraseStop b s := rfl
theorem exec_busMasterEnable (bme mask : Bool) (s : State) : exec (.busMasterEnable bme mask) s = execBusMasterEnable bme mask s := rfl
theorem exec_msixTableWrite (v : Fin 256) (r : Fin 4) (w : Word) (s : State) : exec (.msixTableWrite v r w) s = execMsixTableWrite v r w s := rfl
theorem exec_evtCfgWrite (n : Fin 256) (v : Word) (s : State) : exec (.evtCfgWrite n v) s = execEvtCfgWrite n v s := rfl
theorem exec_nocShadowTableWrite (r : Fin 36) (p ix : Fin 5) (w : Word) (s : State) : exec (.nocShadowTableWrite r p ix w) s = execNocShadowTableWrite r p ix w s := rfl
theorem exec_noBeatTick (s : State) : exec (.noBeatTick) s = execNoBeatTick s := rfl

/-- A step with a command at the front of the queue. -/
theorem step_cons (s : State) (c : Instr) (rest : List Instr) (h : s.pending = c :: rest) :
    step s = exec c { s with pending := rest } := by simp [step, h]

/-- A step with no command waiting. -/
theorem step_nil (s : State) (h : s.pending = []) : step s = .next s.idle := by simp [step, h]

end Sys2Proof.Machine
end

