-- ==== Sys2Proof/Laws/Mem.lean ====
section
/-! SUPPORT. The byte memories: a read after a write, what a write leaves alone, and that every operation keeps the canonical
form. -/

namespace Sys2Proof.Machine

theorem rd8_wr8 (m : List Host.Cell) (a b : Nat) (v : Byte) : rd8 (wr8 m a v) b = if a = b then v else rd8 m b := by
  simp only [rd8, wr8, Store.get_put]

theorem rd8_wrBytes (l : List Byte) : ∀ (m : List Host.Cell) (a b : Nat),
    rd8 (wrBytes m a l) b = if h : a ≤ b ∧ b - a < l.length then l[b - a] else rd8 m b := by
  induction l with
  | nil => intro m a b; simp [wrBytes, Store.putList]
  | cons v r ih =>
    intro m a b
    have step : rd8 (wrBytes m a (v :: r)) b = rd8 (wrBytes (wr8 m a v) (a + 1) r) b := rfl
    rw [step, ih, rd8_wr8]
    by_cases hb : a = b
    · subst hb; simp <;> omega
    · by_cases h1 : a + 1 ≤ b ∧ b - (a + 1) < r.length
      · have h2 : a ≤ b ∧ b - a < (v :: r).length := by simp only [List.length_cons]; omega
        rw [dif_pos h1, dif_pos h2]
        have : b - a = (b - (a + 1)) + 1 := by omega
        simp [this]
      · have h2 : ¬ (a ≤ b ∧ b - a < (v :: r).length) := by simp only [List.length_cons]; omega
        rw [dif_neg h1, dif_neg h2, if_neg hb]

/-- A write leaves every byte outside it as it was. -/
theorem rd8_wrBytes_outside (l : List Byte) (m : List Host.Cell) (a b : Nat) (h : b < a ∨ a + l.length ≤ b) :
    rd8 (wrBytes m a l) b = rd8 m b := by
  rw [rd8_wrBytes, dif_neg (by omega)]

theorem rdBytes_length (m : List Host.Cell) (n : Nat) : ∀ a, (rdBytes m a n).length = n := by
  induction n with
  | zero => intro a; rfl
  | succ n ih => intro a; simpa [rdBytes, Store.getList] using ih (a + 1)

theorem rdBytes_eq (m : List Host.Cell) (n : Nat) : ∀ a, rdBytes m a n = (List.range n).map fun i => rd8 m (a + i) := by
  induction n with
  | zero => intro a; rfl
  | succ n ih =>
    intro a
    have h := ih (a + 1)
    simp only [rdBytes, Store.getList] at h ⊢
    rw [h, List.range_succ_eq_map]
    simp only [List.map_cons, List.map_map, rd8, Nat.add_zero]
    congr 1
    apply List.map_congr_left
    intro i _
    simp only [Function.comp_apply, Nat.succ_eq_add_one]
    congr 1
    omega

/-- What was written reads back. -/
theorem rdBytes_wrBytes (l : List Byte) (m : List Host.Cell) (a : Nat) : rdBytes (wrBytes m a l) a l.length = l := by
  rw [rdBytes_eq]
  apply List.ext_getElem
  · simp
  · intro i h1 h2
    simp only [List.getElem_map, List.getElem_range]
    rw [rd8_wrBytes, dif_pos (by omega)]
    simp

theorem wr8_wf {m : List Host.Cell} (a : Nat) (v : Byte) (h : Memory.wf m = true) : Memory.wf (wr8 m a v) = true :=
  Store.wf_put _ a v h
theorem wrBytes_wf {m : List Host.Cell} (a : Nat) (l : List Byte) (h : Memory.wf m = true) : Memory.wf (wrBytes m a l) = true :=
  Store.wf_putList _ l a h
theorem wr32_wf {m : List Host.Cell} (a : Nat) (w : Word) (h : Memory.wf m = true) : Memory.wf (wr32 m a w) = true :=
  wrBytes_wf a _ h
theorem wr128_wf {m : List Host.Cell} (a : Nat) (w : QWord) (h : Memory.wf m = true) : Memory.wf (wr128 m a w) = true :=
  wrBytes_wf a _ h
theorem wrWords_wf (l : List Word) : ∀ {m : List Host.Cell} (a : Nat), Memory.wf m = true → Memory.wf (wrWords m a l) = true := by
  induction l with
  | nil => intro m a h; exact h
  | cons w r ih => intro m a h; exact ih (a + 4) (wr32_wf a w h)
theorem wrMasked_wf {m : List Host.Cell} (a : Nat) (be : BitVec 16) (v : QWord) (h : Memory.wf m = true) :
    Memory.wf (wrMasked m a be v) = true := by
  unfold wrMasked
  induction List.range 16 generalizing m with
  | nil => exact h
  | cons i r ih =>
    simp only [List.foldl_cons]
    apply ih
    split
    · exact wr8_wf _ _ h
    · exact h
theorem clear_wf {m : List Host.Cell} (p : Nat → Bool) (h : Memory.wf m = true) : Memory.wf (Store.clear m p) = true :=
  Store.wf_clear _ p h

/-- Every memory of the reset state is in its canonical form. -/
theorem reset_memory_wf : Memory.wf State.reset.dev.cmd.hostMem = true ∧ Memory.wf State.reset.dev.vmi.mem = true ∧
    Memory.wf State.reset.dev.stw.sram = true ∧ Memory.wf State.reset.dev.txn.staging = true := ⟨rfl, rfl, rfl, rfl⟩

end Sys2Proof.Machine
end

