-- ==== Sys2Proof/WellFormed.lean ====
section
/-! DEFINITION. Which commands are well formed: the operands of a command have a shape that can stand at its place. The device
meets an ill-formed command as its meaning says; well-formedness says what a sender sends. -/

namespace Sys2Proof

/-- The kind of what a frame carries (Table 11-3). -/
inductive FrameKind where
  | mark | prepare | vote | decision | hello | echoReq | echoRsp | joinReq | joinAck | joinRefuse | ready | notReady | leave
  | topo | summary | event | ack
  deriving DecidableEq, Repr

/-- The kind of a message. -/
def ByMsg.kind : ByMsg → FrameKind
  | .mark _ => .mark
  | .prepare _ _ _ _ => .prepare
  | .vote _ _ _ _ => .vote
  | .decision _ _ _ _ _ => .decision
  | .hello _ _ _ _ _ => .hello
  | .echoReq _ => .echoReq
  | .echoRsp _ _ => .echoRsp
  | .joinReq _ _ _ _ => .joinReq
  | .joinAck _ _ => .joinAck
  | .joinRefuse _ _ => .joinRefuse
  | .ready _ => .ready
  | .notReady _ _ => .notReady
  | .leave _ => .leave
  | .topo _ _ => .topo
  | .summary _ => .summary
  | .event _ => .event
  | .ack => .ack

/-- The part of a command whose shape its types do not give. -/
inductive Part where
  /-- Nothing is left to check. -/
  | plain
  /-- A command of a queue (R322). -/
  | tci (c : Tci)
  /-- A frame that must carry the message of its row (Table 11-3). -/
  | frame (k : FrameKind) (f : Frame)
  /-- A packet without data (R347). -/
  | bare (p : Packet)
  /-- A packet with one unit of data for each of its LEN (R346). -/
  | loaded (p : Packet)
  /-- A packet with a reserved CMD or an unused SRC (Tables 15-6 and 15-7). -/
  | reserved (cmd : Nat) (p : Packet)
  /-- An access of host software (R21 to R25), and whether it writes. -/
  | access (a : Access) (write : Bool)
  /-- Strobe results of an instruction's vectors (R86). -/
  | strobes (l : List Strobe)
  /-- How many entries each of the eight collectors presents (R185). -/
  | ports (l : List Nat)
  /-- The data words of a zone operation (Table 18-4). -/
  | zone (l : List Word)
  /-- The offset of an engine register (R100). -/
  | offset (n : Nat)
  /-- The band table of a loop (16_clocking.md). -/
  | bands (l : List (BitVec 16))
  /-- What a full sweep found (R172). -/
  | sweep (l : List SweepRes)
  /-- What reaches the elements of the fabric (R264, R266). -/
  | fabric (l : List FabIn)
  /-- The capacity of the vector memory in GiB (R467). -/
  | capacity (n : Nat)
  /-- Targets of the partner buses (R457 to R459). -/
  | targets (l : List BusTarget)
  deriving DecidableEq, Repr

/-- Why a command is ill formed. -/
inductive Ill where
  | tooManyWords | wrongMessage | dataOfBare | dataLength | notReserved | accessShape | accessData | tooManyStrobes
  | collector | zoneWords | unalignedOffset | bandTable | sweepTwice | noTile | capacity | descriptor
  deriving DecidableEq, Repr

/-- The tile that an input of the fabric names. -/
def FabIn.tile? : FabIn → Option Nat
  | .lut t _ _ => some t
  | .bypass t _ _ => some t
  | .half t _ _ _ => some t
  | .cell t _ _ _ _ _ => some t
  | .mem _ _ _ _ _ _ _ _ => none
  | .lines _ _ _ => none
  | .hookReady => none
  | .portReady _ => none
  | .route _ _ _ _ => none
  | .spine _ _ _ => none
  | .uio _ _ => none

/-- An access enables a byte, none outside itself, and stays within its BAR (R21); what sizes and places the device accepts
is its own matter (R23, R25). -/
def Access.shaped (a : Access) : Bool :=
  a.be != 0 && decide (a.be < 2 ^ a.size) && decide (a.off.toNat + a.size ≤ if a.bar2 then 2 ^ 30 else 2 ^ 26)

/-- What is wrong with a part, if anything is. -/
def Part.ill : Part → Option Ill
  | .plain => none
  | .tci c => if 4095 < c.words.length then some .tooManyWords else none
  | .frame k f => if f.msg.kind = k then none else some .wrongMessage
  | .bare p => if p.data = [] then none else some .dataOfBare
  | .loaded p => if p.data.length = p.len.toNat then none else some .dataLength
  | .reserved cmd p => if 9 < cmd || p.src == 7 || decide (44 ≤ p.src.toNat) then none else some .notReserved
  | .access a w =>
    if !a.shaped then some .accessShape
    else if w && decide (a.data.length * 4 < a.size) then some .accessData
    else none
  | .strobes l => if 65536 < l.length then some .tooManyStrobes else none
  | .ports l => if l.length ≤ 8 then none else some .collector
  | .zone l => if l.length = 4 then none else some .zoneWords
  | .offset n => if n % 4 = 0 then none else some .unalignedOffset
  | .bands l => if l.length = 64 || l.isEmpty then none else some .bandTable
  | .sweep l => if decide (l.map fun r => (r.ch, r.typ)).Nodup then none else some .sweepTwice
  | .fabric l => if l.all fun x => decide (x.tile?.getD 0 < 12288) then none else some .noTile
  | .capacity n => if n ≤ 16 then none else some .capacity
  | .targets l => if l.all fun t => decide (t.desc.length ≤ 576) then none else some .descriptor

/-- The part of each command to check. -/
def Instr.part : Instr → Part
  | .vec _ dut => .strobes dut
  | .vgen _ _ => .plain
  | .vstr _ dut => .strobes dut
  | .vhold _ _ => .plain
  | .brz _ => .plain
  | .nop _ => .plain
  | .jmp _ => .plain
  | .jsr _ => .plain
  | .rts _ => .plain
  | .brc _ => .plain
  | .loop _ => .plain
  | .mloop _ => .plain
  | .page _ => .plain
  | .halt _ => .plain
  | .ldi _ => .plain
  | .alu _ => .plain
  | .alui _ => .plain
  | .xop _ => .plain
  | .yop _ => .plain
  | .dgop _ => .plain
  | .map _ => .plain
  | .mov _ => .plain
  | .waitg _ => .plain
  | .sync _ => .plain
  | .syncTimeout _ => .plain
  | .fctlEnable _ => .plain
  | .fctlDisable _ => .plain
  | .fctlBlockStart _ => .plain
  | .fctlBlockEnd _ => .plain
  | .fctlMark _ => .plain
  | .fctlFlush _ => .plain
  | .fctlClrstk _ => .plain
  | .mask _ => .plain
  | .attn _ => .plain
  | .fxfer _ => .plain
  | .failDecision _ => .plain
  | .stopBoundary _ _ => .plain
  | .failEntry _ => .plain
  | .compactionExit _ => .plain
  | .fatIngest present => .ports present
  | .regionClose _ => .plain
  | .fatClearDone => .plain
  | .raeAnalysisStart => .plain
  | .gatherDone => .plain
  | .mustRepairDone => .plain
  | .searchDone => .plain
  | .recordWrite => .plain
  | .beatBoundary _ => .plain
  | .autoReloadAnnounce => .plain
  | .stepBoundary => .plain
  | .measurementDone _ _ => .plain
  | .breezeSample _ _ _ => .plain
  | .armLapse _ => .plain
  | .om2Window => .plain
  | .windowCheck => .plain
  | .holdoffEnd => .plain
  | .sweepDone res => .sweep res
  | .sweepRepeat => .plain
  | .rampDevCheck _ => .plain
  | .rampSegmentEnd => .plain
  | .lock _ _ _ _ _ _ _ table => .bands table
  | .dllLock _ _ _ _ _ => .plain
  | .lockLoss _ _ _ _ => .plain
  | .bandFail _ table => .bands table
  | .holdExpired _ => .plain
  | .trackTimeout _ => .plain
  | .fmaxTrip _ => .plain
  | .spreadApex => .plain
  | .roleWindowEnd _ => .plain
  | .mark _ f _ => .frame .mark f
  | .markSend _ => .plain
  | .markMissing => .plain
  | .prepare _ f => .frame .prepare f
  | .vote _ f => .frame .vote f
  | .decision _ f => .frame .decision f
  | .voteTimeout _ => .plain
  | .coordinatorLate _ => .plain
  | .deliveryStart _ => .plain
  | .deliveryDone _ => .plain
  | .hello _ f => .frame .hello f
  | .echoSend _ => .plain
  | .echoReq _ f _ => .frame .echoReq f
  | .echoRsp _ f _ => .frame .echoRsp f
  | .joinReq _ f => .frame .joinReq f
  | .joinAck _ f => .frame .joinAck f
  | .joinRefuse _ f => .frame .joinRefuse f
  | .joinRetry => .plain
  | .ready _ f => .frame .ready f
  | .notready _ f => .frame .notReady f
  | .leave _ f => .frame .leave f
  | .topo _ f => .frame .topo f
  | .summary _ f => .frame .summary f
  | .event _ f => .frame .event f
  | .ack _ f => .frame .ack f
  | .ackTimeout _ _ => .plain
  | .trainingStageDone _ => .plain
  | .trainingTimeout _ => .plain
  | .portDown _ => .plain
  | .read p => .bare p
  | .write p => .loaded p
  | .writePosted p => .loaded p
  | .resp _ p => .loaded p
  | .errResp _ p => .loaded p
  | .atomicOr p => .loaded p
  | .atomicAdd p => .loaded p
  | .atomicSwap p => .loaded p
  | .atomicCas p => .loaded p
  | .flush p => .bare p
  | .nocTimeout _ _ => .plain
  | .drainTimeout _ => .plain
  | .fenceComplete _ => .plain
  | .restoreDone _ => .plain
  | .entryDone _ => .plain
  | .wake _ _ _ => .plain
  | .pwrTimerExpired => .plain
  | .powerOn _ _ _ _ => .plain
  | .lockout => .plain
  | .droop _ => .plain
  | .droopClear _ => .plain
  | .railFault _ _ => .plain
  | .thermal _ => .plain
  | .thermalShutdown _ => .plain
  | .resetNAssert => .plain
  | .resetNRelease _ _ _ => .plain
  | .safeNAssert => .plain
  | .safeNRelease => .plain
  | .presNChange _ _ _ => .plain
  | .pcieReset _ => .plain
  | .tapReset => .plain
  | .watchdog => .plain
  | .stewardMemerr => .plain
  | .restartDone => .plain
  | .doorbell _ _ => .plain
  | .rqHeadWrite _ _ => .plain
  | .cqCtlWrite _ _ => .plain
  | .cqReset _ => .plain
  | .commandFetch _ _ => .plain
  | .responsePost _ => .plain
  | .notifyTimer _ => .plain
  | .sysNop c => .tci c
  | .sysInfo c => .tci c
  | .sysGci c => .tci c
  | .sysEcho c => .tci c
  | .engStart c => .tci c
  | .engResume c => .tci c
  | .engHalt c => .tci c
  | .engRelease c => .tci c
  | .engPageSwap c => .tci c
  | .engRefill c => .tci c
  | .refillTransfer _ => .plain
  | .refillDone _ => .plain
  | .refillDeadline _ => .plain
  | .engGang c => .tci c
  | .engStream c => .tci c
  | .streamFetch _ => .plain
  | .timSetMult c => .tci c
  | .timSpread c => .tci c
  | .calSweep c => .tci c
  | .fcpMode c => .tci c
  | .fcpRead c _ => .tci c
  | .raeLoad c _ => .tci c
  | .raeRead c _ => .tci c
  | .raeStart c => .tci c
  | .raeAbort c => .tci c
  | .txnOpen c => .tci c
  | .txnStage c => .tci c
  | .txnCommit c => .tci c
  | .txnAbort c => .tci c
  | .txnRelease c => .tci c
  | .txnQuery c => .tci c
  | .txnClearOos c => .tci c
  | .cfgLoad c _ => .tci c
  | .loadPass1Done _ _ => .plain
  | .loadPass2Done _ _ => .plain
  | .startupStep => .plain
  | .shadowCheck _ _ => .plain
  | .activeStore => .plain
  | .cfgSwap c => .tci c
  | .cfgAbort c => .tci c
  | .cfgKeyProg c _ => .tci c
  | .cfgEnconly c => .tci c
  | .holdEnd _ => .plain
  | .eventLine _ _ => .plain
  | .fxinWrite _ _ => .plain
  | .bytEpochReload c => .tci c
  | .bytRealign c => .tci c
  | .bytPortCtl c => .tci c
  | .pwrSet c => .tci c
  | .pwrQuery c => .tci c
  | .bstRun c => .tci c
  | .bstStart _ => .plain
  | .bstCheckpoint _ => .plain
  | .bstEnd _ _ _ _ => .plain
  | .bstAbort c => .tci c
  | .bstRepair c _ => .tci c
  | .logFreeze c => .tci c
  | .logRelease c => .tci c
  | .logSeq c => .tci c
  | .freezeEffect _ => .plain
  | .freezeAutoRelease => .plain
  | .logRecordWrite _ => .plain
  | .recordSeal _ => .plain
  | .opsecTick => .plain
  | .opsecStore _ => .plain
  | .lcyQuery c => .tci c
  | .lcyTransition c _ => .tci c
  | .nvsRead c _ => .tci c
  | .nvsProgram c _ => .tci c
  | .nvsErase c => .tci c
  | .nvsUnlock c => .tci c
  | .stwVersion c => .tci c
  | .stwPatch c => .tci c
  | .stwInstall c => .tci c
  | .nvsSequence _ _ _ => .plain
  | .nvsSeqTimeout => .plain
  | .program _ _ _ => .plain
  | .erase _ _ => .plain
  | .suspend _ _ => .plain
  | .resume _ _ => .plain
  | .zunlock _ _ data => .zone data
  | .zlock _ _ => .plain
  | .zset _ _ data => .zone data
  | .zclear _ _ => .plain
  | .programDone _ _ => .plain
  | .eraseDone _ _ => .plain
  | .eraseAutoResume _ => .plain
  | .discovery ts => .targets ts
  | .getstatusPoll _ => .plain
  | .hotJoin t => .targets [t]
  | .ptrHdctlGo _ => .plain
  | .trainingDone _ cap => .capacity cap
  | .wipeDone => .plain
  | .refresh _ => .plain
  | .vmiCfgTrain _ => .plain
  | .vmiCfgWrite _ => .plain
  | .vmiWpageWrite _ => .plain
  | .epmWrite _ _ _ _ => .plain
  | .engHaltWrite _ _ => .plain
  | .svalidWrite _ _ => .plain
  | .engStateWrite _ off _ => .offset off
  | .pinmapWrite _ _ _ => .plain
  | .scrambleMaskWrite _ _ _ => .plain
  | .timShadowWrite _ _ _ _ => .plain
  | .timTschkWrite _ _ => .plain
  | .tschkDone _ => .plain
  | .timSwapWrite _ _ _ => .plain
  | .timChcfgWrite _ _ => .plain
  | .calCorrWrite _ _ _ => .plain
  | .calModecfgWrite _ _ => .plain
  | .clkRampSegWrite _ _ _ _ => .plain
  | .fcpRptrWrite _ => .plain
  | .raeRingWrite _ _ => .plain
  | .raeRtailWrite _ => .plain
  | .raeCtlWrite _ => .plain
  | .fabGclkWrite _ _ => .plain
  | .fabRctlWrite _ _ => .plain
  | .nocRtCheck _ => .plain
  | .nocRtSwap _ => .plain
  | .lensArm _ _ => .plain
  | .bytGroupWrite _ _ _ => .plain
  | .pwrWakeWrite _ _ => .plain
  | .pwrTimerWrite _ => .plain
  | .evtStatClear _ _ => .plain
  | .logFrzctlFreeze _ => .plain
  | .logFrzctlRelease _ => .plain
  | .logAnnGo _ => .plain
  | .clkGciLoRead => .plain
  | .sysModeGciLoRead => .plain
  | .engStopLoRead _ => .plain
  | .txnTgtLoRead _ => .plain
  | .evtLastPayRead _ => .plain
  | .logSeqNewRead => .plain
  | .readClear a => .access a false
  | .registerWrite a => .access a true
  | .extest => .plain
  | .idcode => .plain
  | .samplePreload _ _ => .plain
  | .bypass => .plain
  | .nocacc _ _ _ _ => .plain
  | .lcyacc _ _ _ => .plain
  | .unusedOpcode _ => .plain
  | .nocReservedCmd _ cmd p => .reserved cmd p
  | .badFrame _ _ => .plain
  | .referenceReturn _ => .plain
  | .globalNetEdge _ _ ins => .fabric ins
  | .routeCheckDone => .plain
  | .hdescCheckDone => .plain
  | .eraseStop _ => .plain
  | .busMasterEnable _ _ => .plain
  | .msixTableWrite _ _ _ => .plain
  | .evtCfgWrite _ _ => .plain
  | .nocShadowTableWrite _ _ _ _ => .plain
  | .noBeatTick => .plain

/-- What is wrong with a command, if anything is. -/
def Instr.ill (i : Instr) : Option Ill := i.part.ill
/-- The command is well formed. -/
def Instr.wf (i : Instr) : Bool := i.ill.isNone

end Sys2Proof
end

