-- ==== Sys2Proof/Laws/PerInstr.lean ====
section
/-! SUPPORT. The family Shape: what well-formedness says of a command, one lemma per constructor. -/

namespace Sys2Proof.Laws

/-- The shape of a part, said as a proposition. -/
def Fits : Part → Prop
  | .plain => True
  | .tci c => c.words.length ≤ 4095
  | .frame k f => f.msg.kind = k
  | .bare p => p.data = []
  | .loaded p => p.data.length = p.len.toNat
  | .reserved cmd p => 9 < cmd ∨ p.src = 7 ∨ 44 ≤ p.src.toNat
  | .access a w => a.shaped = true ∧ (w = true → a.size ≤ a.data.length * 4)
  | .strobes l => l.length ≤ 65536
  | .ports l => l.length ≤ 8
  | .zone l => l.length = 4
  | .offset n => n % 4 = 0
  | .bands l => l.length = 64 ∨ l = []
  | .sweep l => (l.map fun r => (r.ch, r.typ)).Nodup
  | .fabric l => ∀ x ∈ l, x.tile?.getD 0 < 12288
  | .capacity n => n ≤ 16
  | .targets l => ∀ t ∈ l, t.desc.length ≤ 576

/-- A command is well formed exactly when its part has its shape. -/
def Shape.Statement (i : Instr) : Prop := i.wf = true ↔ Fits i.part

theorem Shape.of_part (i : Instr) : Shape.Statement i := by
  simp only [Shape.Statement, Instr.wf, Instr.ill]
  cases i.part with
  | plain => simp [Part.ill, Fits]
  | tci c => by_cases h : 4095 < c.words.length <;> simp [Part.ill, Fits, h] <;> omega
  | frame k f => by_cases h : f.msg.kind = k <;> simp [Part.ill, Fits, h]
  | bare p => by_cases h : p.data = [] <;> simp [Part.ill, Fits, h]
  | loaded p => by_cases h : p.data.length = p.len.toNat <;> simp [Part.ill, Fits, h]
  | reserved cmd p => simp only [Part.ill, Fits]; split <;> simp_all [or_assoc]
  | access a w =>
    by_cases h : a.shaped = true <;> simp only [Part.ill, Fits, h]
    · cases w
      · simp
      · by_cases g : a.data.length * 4 < a.size <;> simp [g]; omega
    · simp
  | strobes l => by_cases h : 65536 < l.length <;> simp [Part.ill, Fits, h] <;> omega
  | ports l => simp only [Part.ill, Fits]; split <;> simp_all
  | zone l => by_cases h : l.length = 4 <;> simp [Part.ill, Fits, h]
  | offset n => by_cases h : n % 4 = 0 <;> simp [Part.ill, Fits, h]
  | bands l => simp only [Part.ill, Fits]; split <;> simp_all
  | sweep l => simp only [Part.ill, Fits]; split <;> simp_all
  | fabric l => simp only [Part.ill, Fits]; split <;> simp_all
  | capacity n => by_cases h : n ≤ 16 <;> simp [Part.ill, Fits, h]
  | targets l => simp only [Part.ill, Fits]; split <;> simp_all

theorem Shape.vec (n : Fin 64) (dut : List Strobe) : Shape.Statement (.vec n dut) := Shape.of_part _
theorem Shape.vgen (n : Fin 64) (dut : Strobe) : Shape.Statement (.vgen n dut) := Shape.of_part _
theorem Shape.vstr (n : Fin 64) (dut : List Strobe) : Shape.Statement (.vstr n dut) := Shape.of_part _
theorem Shape.vhold (n : Fin 64) (k : Nat) : Shape.Statement (.vhold n k) := Shape.of_part _
theorem Shape.brz (n : Fin 64) : Shape.Statement (.brz n) := Shape.of_part _
theorem Shape.nop (n : Fin 64) : Shape.Statement (.nop n) := Shape.of_part _
theorem Shape.jmp (n : Fin 64) : Shape.Statement (.jmp n) := Shape.of_part _
theorem Shape.jsr (n : Fin 64) : Shape.Statement (.jsr n) := Shape.of_part _
theorem Shape.rts (n : Fin 64) : Shape.Statement (.rts n) := Shape.of_part _
theorem Shape.brc (n : Fin 64) : Shape.Statement (.brc n) := Shape.of_part _
theorem Shape.loop (n : Fin 64) : Shape.Statement (.loop n) := Shape.of_part _
theorem Shape.mloop (n : Fin 64) : Shape.Statement (.mloop n) := Shape.of_part _
theorem Shape.page (n : Fin 64) : Shape.Statement (.page n) := Shape.of_part _
theorem Shape.halt (n : Fin 64) : Shape.Statement (.halt n) := Shape.of_part _
theorem Shape.ldi (n : Fin 64) : Shape.Statement (.ldi n) := Shape.of_part _
theorem Shape.alu (n : Fin 64) : Shape.Statement (.alu n) := Shape.of_part _
theorem Shape.alui (n : Fin 64) : Shape.Statement (.alui n) := Shape.of_part _
theorem Shape.xop (n : Fin 64) : Shape.Statement (.xop n) := Shape.of_part _
theorem Shape.yop (n : Fin 64) : Shape.Statement (.yop n) := Shape.of_part _
theorem Shape.dgop (n : Fin 64) : Shape.Statement (.dgop n) := Shape.of_part _
theorem Shape.map (n : Fin 64) : Shape.Statement (.map n) := Shape.of_part _
theorem Shape.mov (n : Fin 64) : Shape.Statement (.mov n) := Shape.of_part _
theorem Shape.waitg (n : Fin 64) : Shape.Statement (.waitg n) := Shape.of_part _
theorem Shape.sync (n : Fin 64) : Shape.Statement (.sync n) := Shape.of_part _
theorem Shape.syncTimeout (n : Fin 64) : Shape.Statement (.syncTimeout n) := Shape.of_part _
theorem Shape.fctlEnable (n : Fin 64) : Shape.Statement (.fctlEnable n) := Shape.of_part _
theorem Shape.fctlDisable (n : Fin 64) : Shape.Statement (.fctlDisable n) := Shape.of_part _
theorem Shape.fctlBlockStart (n : Fin 64) : Shape.Statement (.fctlBlockStart n) := Shape.of_part _
theorem Shape.fctlBlockEnd (n : Fin 64) : Shape.Statement (.fctlBlockEnd n) := Shape.of_part _
theorem Shape.fctlMark (n : Fin 64) : Shape.Statement (.fctlMark n) := Shape.of_part _
theorem Shape.fctlFlush (n : Fin 64) : Shape.Statement (.fctlFlush n) := Shape.of_part _
theorem Shape.fctlClrstk (n : Fin 64) : Shape.Statement (.fctlClrstk n) := Shape.of_part _
theorem Shape.mask (n : Fin 64) : Shape.Statement (.mask n) := Shape.of_part _
theorem Shape.attn (n : Fin 64) : Shape.Statement (.attn n) := Shape.of_part _
theorem Shape.fxfer (n : Fin 64) : Shape.Statement (.fxfer n) := Shape.of_part _
theorem Shape.failDecision (n : Fin 64) : Shape.Statement (.failDecision n) := Shape.of_part _
theorem Shape.stopBoundary (n : Fin 64) (parity : Bool) : Shape.Statement (.stopBoundary n parity) := Shape.of_part _
theorem Shape.failEntry (k : Fin 8) : Shape.Statement (.failEntry k) := Shape.of_part _
theorem Shape.compactionExit (k : Fin 8) : Shape.Statement (.compactionExit k) := Shape.of_part _
theorem Shape.fatIngest (present : List Nat) : Shape.Statement (.fatIngest present) := Shape.of_part _
theorem Shape.regionClose (r : Fin 4096) : Shape.Statement (.regionClose r) := Shape.of_part _
theorem Shape.fatClearDone : Shape.Statement .fatClearDone := Shape.of_part _
theorem Shape.raeAnalysisStart : Shape.Statement .raeAnalysisStart := Shape.of_part _
theorem Shape.gatherDone : Shape.Statement .gatherDone := Shape.of_part _
theorem Shape.mustRepairDone : Shape.Statement .mustRepairDone := Shape.of_part _
theorem Shape.searchDone : Shape.Statement .searchDone := Shape.of_part _
theorem Shape.recordWrite : Shape.Statement .recordWrite := Shape.of_part _
theorem Shape.beatBoundary (per : BitVec 24) : Shape.Statement (.beatBoundary per) := Shape.of_part _
theorem Shape.autoReloadAnnounce : Shape.Statement .autoReloadAnnounce := Shape.of_part _
theorem Shape.stepBoundary : Shape.Statement .stepBoundary := Shape.of_part _
theorem Shape.measurementDone (c : Fin 64) (t : Fin 5) : Shape.Statement (.measurementDone c t) := Shape.of_part _
theorem Shape.breezeSample (c : Fin 64) (x : Sample) (ok : Bool) : Shape.Statement (.breezeSample c x ok) := Shape.of_part _
theorem Shape.armLapse (q : Fin 16) : Shape.Statement (.armLapse q) := Shape.of_part _
theorem Shape.om2Window : Shape.Statement .om2Window := Shape.of_part _
theorem Shape.windowCheck : Shape.Statement .windowCheck := Shape.of_part _
theorem Shape.holdoffEnd : Shape.Statement .holdoffEnd := Shape.of_part _
theorem Shape.sweepDone (res : List SweepRes) : Shape.Statement (.sweepDone res) := Shape.of_part _
theorem Shape.sweepRepeat : Shape.Statement .sweepRepeat := Shape.of_part _
theorem Shape.rampDevCheck (meas : BitVec 24) : Shape.Statement (.rampDevCheck meas) := Shape.of_part _
theorem Shape.rampSegmentEnd : Shape.Statement .rampSegmentEnd := Shape.of_part _
theorem Shape.lock (pll : Fin 6) (band : BitVec 6) (cw : BitVec 16) (d1 d2 d3 diff : BitVec 8) (table : List (BitVec 16)) :
    Shape.Statement (.lock pll band cw d1 d2 d3 diff table) := Shape.of_part _
theorem Shape.dllLock (pll : Fin 6) (d1 d2 d3 diff : BitVec 8) : Shape.Statement (.dllLock pll d1 d2 d3 diff) := Shape.of_part _
theorem Shape.lockLoss (pll : Fin 6) (cause : LossCause) (diff : BitVec 8) (cw : BitVec 16) :
    Shape.Statement (.lockLoss pll cause diff cw) := Shape.of_part _
theorem Shape.bandFail (pll : Fin 6) (table : List (BitVec 16)) : Shape.Statement (.bandFail pll table) := Shape.of_part _
theorem Shape.holdExpired (pll : Fin 6) : Shape.Statement (.holdExpired pll) := Shape.of_part _
theorem Shape.trackTimeout (pll : Fin 6) : Shape.Statement (.trackTimeout pll) := Shape.of_part _
theorem Shape.fmaxTrip (pll : Fin 6) : Shape.Statement (.fmaxTrip pll) := Shape.of_part _
theorem Shape.spreadApex : Shape.Statement .spreadApex := Shape.of_part _
theorem Shape.roleWindowEnd (clock : Bool) : Shape.Statement (.roleWindowEnd clock) := Shape.of_part _
theorem Shape.mark (p : Fin 4) (f : Frame) (arr : BitVec 32) : Shape.Statement (.mark p f arr) := Shape.of_part _
theorem Shape.markSend (offset : BitVec 16) : Shape.Statement (.markSend offset) := Shape.of_part _
theorem Shape.markMissing : Shape.Statement .markMissing := Shape.of_part _
theorem Shape.prepare (p : Fin 4) (f : Frame) : Shape.Statement (.prepare p f) := Shape.of_part _
theorem Shape.vote (p : Fin 4) (f : Frame) : Shape.Statement (.vote p f) := Shape.of_part _
theorem Shape.decision (p : Fin 4) (f : Frame) : Shape.Statement (.decision p f) := Shape.of_part _
theorem Shape.voteTimeout (t : Fin 8) : Shape.Statement (.voteTimeout t) := Shape.of_part _
theorem Shape.coordinatorLate (t : Fin 8) : Shape.Statement (.coordinatorLate t) := Shape.of_part _
theorem Shape.deliveryStart (t : Fin 8) : Shape.Statement (.deliveryStart t) := Shape.of_part _
theorem Shape.deliveryDone (t : Fin 8) : Shape.Statement (.deliveryDone t) := Shape.of_part _
theorem Shape.hello (p : Fin 4) (f : Frame) : Shape.Statement (.hello p f) := Shape.of_part _
theorem Shape.echoSend (t : DWord) : Shape.Statement (.echoSend t) := Shape.of_part _
theorem Shape.echoReq (p : Fin 4) (f : Frame) (turn : BitVec 32) : Shape.Statement (.echoReq p f turn) := Shape.of_part _
theorem Shape.echoRsp (p : Fin 4) (f : Frame) (rtt : BitVec 32) : Shape.Statement (.echoRsp p f rtt) := Shape.of_part _
theorem Shape.joinReq (p : Fin 4) (f : Frame) : Shape.Statement (.joinReq p f) := Shape.of_part _
theorem Shape.joinAck (p : Fin 4) (f : Frame) : Shape.Statement (.joinAck p f) := Shape.of_part _
theorem Shape.joinRefuse (p : Fin 4) (f : Frame) : Shape.Statement (.joinRefuse p f) := Shape.of_part _
theorem Shape.joinRetry : Shape.Statement .joinRetry := Shape.of_part _
theorem Shape.ready (p : Fin 4) (f : Frame) : Shape.Statement (.ready p f) := Shape.of_part _
theorem Shape.notready (p : Fin 4) (f : Frame) : Shape.Statement (.notready p f) := Shape.of_part _
theorem Shape.leave (p : Fin 4) (f : Frame) : Shape.Statement (.leave p f) := Shape.of_part _
theorem Shape.topo (p : Fin 4) (f : Frame) : Shape.Statement (.topo p f) := Shape.of_part _
theorem Shape.summary (p : Fin 4) (f : Frame) : Shape.Statement (.summary p f) := Shape.of_part _
theorem Shape.event (p : Fin 4) (f : Frame) : Shape.Statement (.event p f) := Shape.of_part _
theorem Shape.ack (p : Fin 4) (f : Frame) : Shape.Statement (.ack p f) := Shape.of_part _
theorem Shape.ackTimeout (p : Fin 4) (seq : BitVec 8) : Shape.Statement (.ackTimeout p seq) := Shape.of_part _
theorem Shape.trainingStageDone (p : Fin 4) : Shape.Statement (.trainingStageDone p) := Shape.of_part _
theorem Shape.trainingTimeout (p : Fin 4) : Shape.Statement (.trainingTimeout p) := Shape.of_part _
theorem Shape.portDown (p : Fin 4) : Shape.Statement (.portDown p) := Shape.of_part _
theorem Shape.read (p : Packet) : Shape.Statement (.read p) := Shape.of_part _
theorem Shape.write (p : Packet) : Shape.Statement (.write p) := Shape.of_part _
theorem Shape.writePosted (p : Packet) : Shape.Statement (.writePosted p) := Shape.of_part _
theorem Shape.resp (origin : Fin 36) (p : Packet) : Shape.Statement (.resp origin p) := Shape.of_part _
theorem Shape.errResp (origin : Fin 36) (p : Packet) : Shape.Statement (.errResp origin p) := Shape.of_part _
theorem Shape.atomicOr (p : Packet) : Shape.Statement (.atomicOr p) := Shape.of_part _
theorem Shape.atomicAdd (p : Packet) : Shape.Statement (.atomicAdd p) := Shape.of_part _
theorem Shape.atomicSwap (p : Packet) : Shape.Statement (.atomicSwap p) := Shape.of_part _
theorem Shape.atomicCas (p : Packet) : Shape.Statement (.atomicCas p) := Shape.of_part _
theorem Shape.flush (p : Packet) : Shape.Statement (.flush p) := Shape.of_part _
theorem Shape.nocTimeout (src : Fin 64) (tag : Fin 1024) : Shape.Statement (.nocTimeout src tag) := Shape.of_part _
theorem Shape.drainTimeout (n : Fin 40) : Shape.Statement (.drainTimeout n) := Shape.of_part _
theorem Shape.fenceComplete (n : Fin 40) : Shape.Statement (.fenceComplete n) := Shape.of_part _
theorem Shape.restoreDone (n : Fin 40) : Shape.Statement (.restoreDone n) := Shape.of_part _
theorem Shape.entryDone (n : Fin 40) : Shape.Statement (.entryDone n) := Shape.of_part _
theorem Shape.wake (n : Fin 40) (src : Fin 5) (lost : Bool) : Shape.Statement (.wake n src lost) := Shape.of_part _
theorem Shape.pwrTimerExpired : Shape.Statement .pwrTimerExpired := Shape.of_part _
theorem Shape.powerOn (globErr vref33 : Bool) (planeErr : BitVec 16) (upto : Fin 8) :
    Shape.Statement (.powerOn globErr vref33 planeErr upto) := Shape.of_part _
theorem Shape.lockout : Shape.Statement .lockout := Shape.of_part _
theorem Shape.droop (mv : Nat) : Shape.Statement (.droop mv) := Shape.of_part _
theorem Shape.droopClear (mv : Nat) : Shape.Statement (.droopClear mv) := Shape.of_part _
theorem Shape.railFault (rail : Fin 8) (deep : Bool) : Shape.Statement (.railFault rail deep) := Shape.of_part _
theorem Shape.thermal (temp : Int) : Shape.Statement (.thermal temp) := Shape.of_part _
theorem Shape.thermalShutdown (temp : Int) : Shape.Statement (.thermalShutdown temp) := Shape.of_part _
theorem Shape.resetNAssert : Shape.Statement .resetNAssert := Shape.of_part _
theorem Shape.resetNRelease (globErr : Bool) (planeErr : BitVec 16) (upto : Fin 8) :
    Shape.Statement (.resetNRelease globErr planeErr upto) := Shape.of_part _
theorem Shape.safeNAssert : Shape.Statement .safeNAssert := Shape.of_part _
theorem Shape.safeNRelease : Shape.Statement .safeNRelease := Shape.of_part _
theorem Shape.presNChange (card : Fin 4) (level : Bool) (ans : DWord) :
    Shape.Statement (.presNChange card level ans) := Shape.of_part _
theorem Shape.pcieReset (link : Option (Fin 3 × Fin 4)) : Shape.Statement (.pcieReset link) := Shape.of_part _
theorem Shape.tapReset : Shape.Statement .tapReset := Shape.of_part _
theorem Shape.watchdog : Shape.Statement .watchdog := Shape.of_part _
theorem Shape.stewardMemerr : Shape.Statement .stewardMemerr := Shape.of_part _
theorem Shape.restartDone : Shape.Statement .restartDone := Shape.of_part _
theorem Shape.doorbell (q : Fin 4) (w : Word) : Shape.Statement (.doorbell q w) := Shape.of_part _
theorem Shape.rqHeadWrite (q : Fin 4) (w : Word) : Shape.Statement (.rqHeadWrite q w) := Shape.of_part _
theorem Shape.cqCtlWrite (q : Fin 4) (w : Word) : Shape.Statement (.cqCtlWrite q w) := Shape.of_part _
theorem Shape.cqReset (q : Fin 4) : Shape.Statement (.cqReset q) := Shape.of_part _
theorem Shape.commandFetch (q : Fin 4) (x : Dma) : Shape.Statement (.commandFetch q x) := Shape.of_part _
theorem Shape.responsePost (q : Fin 4) : Shape.Statement (.responsePost q) := Shape.of_part _
theorem Shape.notifyTimer (q : Fin 4) : Shape.Statement (.notifyTimer q) := Shape.of_part _
theorem Shape.sysNop (c : Tci) : Shape.Statement (.sysNop c) := Shape.of_part _
theorem Shape.sysInfo (c : Tci) : Shape.Statement (.sysInfo c) := Shape.of_part _
theorem Shape.sysGci (c : Tci) : Shape.Statement (.sysGci c) := Shape.of_part _
theorem Shape.sysEcho (c : Tci) : Shape.Statement (.sysEcho c) := Shape.of_part _
theorem Shape.engStart (c : Tci) : Shape.Statement (.engStart c) := Shape.of_part _
theorem Shape.engResume (c : Tci) : Shape.Statement (.engResume c) := Shape.of_part _
theorem Shape.engHalt (c : Tci) : Shape.Statement (.engHalt c) := Shape.of_part _
theorem Shape.engRelease (c : Tci) : Shape.Statement (.engRelease c) := Shape.of_part _
theorem Shape.engPageSwap (c : Tci) : Shape.Statement (.engPageSwap c) := Shape.of_part _
theorem Shape.engRefill (c : Tci) : Shape.Statement (.engRefill c) := Shape.of_part _
theorem Shape.refillTransfer (q : Fin 16) : Shape.Statement (.refillTransfer q) := Shape.of_part _
theorem Shape.refillDone (n : Fin 64) : Shape.Statement (.refillDone n) := Shape.of_part _
theorem Shape.refillDeadline (n : Fin 64) : Shape.Statement (.refillDeadline n) := Shape.of_part _
theorem Shape.engGang (c : Tci) : Shape.Statement (.engGang c) := Shape.of_part _
theorem Shape.engStream (c : Tci) : Shape.Statement (.engStream c) := Shape.of_part _
theorem Shape.streamFetch (n : Fin 64) : Shape.Statement (.streamFetch n) := Shape.of_part _
theorem Shape.timSetMult (c : Tci) : Shape.Statement (.timSetMult c) := Shape.of_part _
theorem Shape.timSpread (c : Tci) : Shape.Statement (.timSpread c) := Shape.of_part _
theorem Shape.calSweep (c : Tci) : Shape.Statement (.calSweep c) := Shape.of_part _
theorem Shape.fcpMode (c : Tci) : Shape.Statement (.fcpMode c) := Shape.of_part _
theorem Shape.fcpRead (c : Tci) (x : Dma) : Shape.Statement (.fcpRead c x) := Shape.of_part _
theorem Shape.raeLoad (c : Tci) (x : Dma) : Shape.Statement (.raeLoad c x) := Shape.of_part _
theorem Shape.raeRead (c : Tci) (x : Dma) : Shape.Statement (.raeRead c x) := Shape.of_part _
theorem Shape.raeStart (c : Tci) : Shape.Statement (.raeStart c) := Shape.of_part _
theorem Shape.raeAbort (c : Tci) : Shape.Statement (.raeAbort c) := Shape.of_part _
theorem Shape.txnOpen (c : Tci) : Shape.Statement (.txnOpen c) := Shape.of_part _
theorem Shape.txnStage (c : Tci) : Shape.Statement (.txnStage c) := Shape.of_part _
theorem Shape.txnCommit (c : Tci) : Shape.Statement (.txnCommit c) := Shape.of_part _
theorem Shape.txnAbort (c : Tci) : Shape.Statement (.txnAbort c) := Shape.of_part _
theorem Shape.txnRelease (c : Tci) : Shape.Statement (.txnRelease c) := Shape.of_part _
theorem Shape.txnQuery (c : Tci) : Shape.Statement (.txnQuery c) := Shape.of_part _
theorem Shape.txnClearOos (c : Tci) : Shape.Statement (.txnClearOos c) := Shape.of_part _
theorem Shape.cfgLoad (c : Tci) (x : Dma) : Shape.Statement (.cfgLoad c x) := Shape.of_part _
theorem Shape.loadPass1Done (bad : Option Nat) (x : Dma) : Shape.Statement (.loadPass1Done bad x) := Shape.of_part _
theorem Shape.loadPass2Done (bad : Option Nat) (x : Dma) : Shape.Statement (.loadPass2Done bad x) := Shape.of_part _
theorem Shape.startupStep : Shape.Statement .startupStep := Shape.of_part _
theorem Shape.shadowCheck (r : Fin 16) (ok : Bool) : Shape.Statement (.shadowCheck r ok) := Shape.of_part _
theorem Shape.activeStore : Shape.Statement .activeStore := Shape.of_part _
theorem Shape.cfgSwap (c : Tci) : Shape.Statement (.cfgSwap c) := Shape.of_part _
theorem Shape.cfgAbort (c : Tci) : Shape.Statement (.cfgAbort c) := Shape.of_part _
theorem Shape.cfgKeyProg (c : Tci) (v : Verify) : Shape.Statement (.cfgKeyProg c v) := Shape.of_part _
theorem Shape.cfgEnconly (c : Tci) : Shape.Statement (.cfgEnconly c) := Shape.of_part _
theorem Shape.holdEnd (r : Fin 16) : Shape.Statement (.holdEnd r) := Shape.of_part _
theorem Shape.eventLine (l : Fin 32) (v : Bool) : Shape.Statement (.eventLine l v) := Shape.of_part _
theorem Shape.fxinWrite (n : Fin 64) (w : DWord) : Shape.Statement (.fxinWrite n w) := Shape.of_part _
theorem Shape.bytEpochReload (c : Tci) : Shape.Statement (.bytEpochReload c) := Shape.of_part _
theorem Shape.bytRealign (c : Tci) : Shape.Statement (.bytRealign c) := Shape.of_part _
theorem Shape.bytPortCtl (c : Tci) : Shape.Statement (.bytPortCtl c) := Shape.of_part _
theorem Shape.pwrSet (c : Tci) : Shape.Statement (.pwrSet c) := Shape.of_part _
theorem Shape.pwrQuery (c : Tci) : Shape.Statement (.pwrQuery c) := Shape.of_part _
theorem Shape.bstRun (c : Tci) : Shape.Statement (.bstRun c) := Shape.of_part _
theorem Shape.bstStart (drainFail : Bool) : Shape.Statement (.bstStart drainFail) := Shape.of_part _
theorem Shape.bstCheckpoint (n : Fin 40) : Shape.Statement (.bstCheckpoint n) := Shape.of_part _
theorem Shape.bstEnd (n : Fin 40) (pass : Bool) (dur : Word) (cells : List (Word × BitVec 9)) :
    Shape.Statement (.bstEnd n pass dur cells) := Shape.of_part _
theorem Shape.bstAbort (c : Tci) : Shape.Statement (.bstAbort c) := Shape.of_part _
theorem Shape.bstRepair (c : Tci) (v : Verify) : Shape.Statement (.bstRepair c v) := Shape.of_part _
theorem Shape.logFreeze (c : Tci) : Shape.Statement (.logFreeze c) := Shape.of_part _
theorem Shape.logRelease (c : Tci) : Shape.Statement (.logRelease c) := Shape.of_part _
theorem Shape.logSeq (c : Tci) : Shape.Statement (.logSeq c) := Shape.of_part _
theorem Shape.freezeEffect (v : Verify) : Shape.Statement (.freezeEffect v) := Shape.of_part _
theorem Shape.freezeAutoRelease : Shape.Statement .freezeAutoRelease := Shape.of_part _
theorem Shape.logRecordWrite (v : Verify) : Shape.Statement (.logRecordWrite v) := Shape.of_part _
theorem Shape.recordSeal (v : Verify) : Shape.Statement (.recordSeal v) := Shape.of_part _
theorem Shape.opsecTick : Shape.Statement .opsecTick := Shape.of_part _
theorem Shape.opsecStore (v : Verify) : Shape.Statement (.opsecStore v) := Shape.of_part _
theorem Shape.lcyQuery (c : Tci) : Shape.Statement (.lcyQuery c) := Shape.of_part _
theorem Shape.lcyTransition (c : Tci) (upto : Fin 8) : Shape.Statement (.lcyTransition c upto) := Shape.of_part _
theorem Shape.nvsRead (c : Tci) (x : Dma) : Shape.Statement (.nvsRead c x) := Shape.of_part _
theorem Shape.nvsProgram (c : Tci) (x : Dma) : Shape.Statement (.nvsProgram c x) := Shape.of_part _
theorem Shape.nvsErase (c : Tci) : Shape.Statement (.nvsErase c) := Shape.of_part _
theorem Shape.nvsUnlock (c : Tci) : Shape.Statement (.nvsUnlock c) := Shape.of_part _
theorem Shape.stwVersion (c : Tci) : Shape.Statement (.stwVersion c) := Shape.of_part _
theorem Shape.stwPatch (c : Tci) : Shape.Statement (.stwPatch c) := Shape.of_part _
theorem Shape.stwInstall (c : Tci) : Shape.Statement (.stwInstall c) := Shape.of_part _
theorem Shape.nvsSequence (src : Fin 64) (reg : Fin 7) (w : Word) : Shape.Statement (.nvsSequence src reg w) := Shape.of_part _
theorem Shape.nvsSeqTimeout : Shape.Statement .nvsSeqTimeout := Shape.of_part _
theorem Shape.program (src : Fin 64) (addr : Word) (w : QWord) : Shape.Statement (.program src addr w) := Shape.of_part _
theorem Shape.erase (src : Fin 64) (addr : Word) : Shape.Statement (.erase src addr) := Shape.of_part _
theorem Shape.suspend (src : Fin 64) (addr : Word) : Shape.Statement (.suspend src addr) := Shape.of_part _
theorem Shape.resume (src : Fin 64) (addr : Word) : Shape.Statement (.resume src addr) := Shape.of_part _
theorem Shape.zunlock (src : Fin 64) (addr : Word) (data : List Word) :
    Shape.Statement (.zunlock src addr data) := Shape.of_part _
theorem Shape.zlock (src : Fin 64) (addr : Word) : Shape.Statement (.zlock src addr) := Shape.of_part _
theorem Shape.zset (src : Fin 64) (addr : Word) (data : List Word) : Shape.Statement (.zset src addr data) := Shape.of_part _
theorem Shape.zclear (src : Fin 64) (addr : Word) : Shape.Statement (.zclear src addr) := Shape.of_part _
theorem Shape.programDone (b : Fin 4) (v : Verify) : Shape.Statement (.programDone b v) := Shape.of_part _
theorem Shape.eraseDone (b : Fin 4) (ok : Bool) : Shape.Statement (.eraseDone b ok) := Shape.of_part _
theorem Shape.eraseAutoResume (b : Fin 4) : Shape.Statement (.eraseAutoResume b) := Shape.of_part _
theorem Shape.discovery (ts : List BusTarget) : Shape.Statement (.discovery ts) := Shape.of_part _
theorem Shape.getstatusPoll (ans : DWord) : Shape.Statement (.getstatusPoll ans) := Shape.of_part _
theorem Shape.hotJoin (t : BusTarget) : Shape.Statement (.hotJoin t) := Shape.of_part _
theorem Shape.ptrHdctlGo (w : Word) : Shape.Statement (.ptrHdctlGo w) := Shape.of_part _
theorem Shape.trainingDone (ok : BitVec 4) (cap : Nat) : Shape.Statement (.trainingDone ok cap) := Shape.of_part _
theorem Shape.wipeDone : Shape.Statement .wipeDone := Shape.of_part _
theorem Shape.refresh (k : Fin 4) : Shape.Statement (.refresh k) := Shape.of_part _
theorem Shape.vmiCfgTrain (w : Word) : Shape.Statement (.vmiCfgTrain w) := Shape.of_part _
theorem Shape.vmiCfgWrite (w : Word) : Shape.Statement (.vmiCfgWrite w) := Shape.of_part _
theorem Shape.vmiWpageWrite (w : Word) : Shape.Statement (.vmiWpageWrite w) := Shape.of_part _
theorem Shape.epmWrite (n : Fin 64) (word : Fin 8192) (hi : Bool) (v : Word) :
    Shape.Statement (.epmWrite n word hi v) := Shape.of_part _
theorem Shape.engHaltWrite (n : Fin 64) (v : Word) : Shape.Statement (.engHaltWrite n v) := Shape.of_part _
theorem Shape.svalidWrite (n : Fin 64) (v : Word) : Shape.Statement (.svalidWrite n v) := Shape.of_part _
theorem Shape.engStateWrite (n : Fin 64) (off : Fin 4096) (v : Word) :
    Shape.Statement (.engStateWrite n off v) := Shape.of_part _
theorem Shape.pinmapWrite (c : Fin 64) (m : Fin 16) (v : Word) : Shape.Statement (.pinmapWrite c m v) := Shape.of_part _
theorem Shape.scrambleMaskWrite (c : Fin 64) (k : Fin 4) (v : Word) :
    Shape.Statement (.scrambleMaskWrite c k v) := Shape.of_part _
theorem Shape.timShadowWrite (c k : Fin 64) (j : Fin 4) (w : Word) : Shape.Statement (.timShadowWrite c k j w) := Shape.of_part _
theorem Shape.timTschkWrite (c : Fin 64) (w : Word) : Shape.Statement (.timTschkWrite c w) := Shape.of_part _
theorem Shape.tschkDone (c : Fin 64) : Shape.Statement (.tschkDone c) := Shape.of_part _
theorem Shape.timSwapWrite (c : Fin 64) (hi : Bool) (w : Word) : Shape.Statement (.timSwapWrite c hi w) := Shape.of_part _
theorem Shape.timChcfgWrite (c : Fin 64) (w : Word) : Shape.Statement (.timChcfgWrite c w) := Shape.of_part _
theorem Shape.calCorrWrite (c : Fin 64) (t : Fin 5) (w : Word) : Shape.Statement (.calCorrWrite c t w) := Shape.of_part _
theorem Shape.calModecfgWrite (m : Fin 8) (w : Word) : Shape.Statement (.calModecfgWrite m w) := Shape.of_part _
theorem Shape.clkRampSegWrite (k : Fin 2) (n : Fin 16) (hi : Bool) (v : Word) :
    Shape.Statement (.clkRampSegWrite k n hi v) := Shape.of_part _
theorem Shape.fcpRptrWrite (w : Word) : Shape.Statement (.fcpRptrWrite w) := Shape.of_part _
theorem Shape.raeRingWrite (reg : Fin 3) (w : Word) : Shape.Statement (.raeRingWrite reg w) := Shape.of_part _
theorem Shape.raeRtailWrite (w : Word) : Shape.Statement (.raeRtailWrite w) := Shape.of_part _
theorem Shape.raeCtlWrite (w : Word) : Shape.Statement (.raeCtlWrite w) := Shape.of_part _
theorem Shape.fabGclkWrite (k : Fin 32) (w : Word) : Shape.Statement (.fabGclkWrite k w) := Shape.of_part _
theorem Shape.fabRctlWrite (n : Fin 16) (w : Word) : Shape.Statement (.fabRctlWrite n w) := Shape.of_part _
theorem Shape.nocRtCheck (w : Word) : Shape.Statement (.nocRtCheck w) := Shape.of_part _
theorem Shape.nocRtSwap (w : Word) : Shape.Statement (.nocRtSwap w) := Shape.of_part _
theorem Shape.lensArm (k : Fin 8) (w : Word) : Shape.Statement (.lensArm k w) := Shape.of_part _
theorem Shape.bytGroupWrite (g : Fin 256) (k : Fin 32) (w : Word) : Shape.Statement (.bytGroupWrite g k w) := Shape.of_part _
theorem Shape.pwrWakeWrite (n : Fin 40) (v : Word) : Shape.Statement (.pwrWakeWrite n v) := Shape.of_part _
theorem Shape.pwrTimerWrite (v : Word) : Shape.Statement (.pwrTimerWrite v) := Shape.of_part _
theorem Shape.evtStatClear (k : Fin 8) (bits : Word) : Shape.Statement (.evtStatClear k bits) := Shape.of_part _
theorem Shape.logFrzctlFreeze (src : Fin 64) : Shape.Statement (.logFrzctlFreeze src) := Shape.of_part _
theorem Shape.logFrzctlRelease (src : Fin 64) : Shape.Statement (.logFrzctlRelease src) := Shape.of_part _
theorem Shape.logAnnGo (v : Word) : Shape.Statement (.logAnnGo v) := Shape.of_part _
theorem Shape.clkGciLoRead : Shape.Statement .clkGciLoRead := Shape.of_part _
theorem Shape.sysModeGciLoRead : Shape.Statement .sysModeGciLoRead := Shape.of_part _
theorem Shape.engStopLoRead (n : Fin 64) : Shape.Statement (.engStopLoRead n) := Shape.of_part _
theorem Shape.txnTgtLoRead (t : Fin 8) : Shape.Statement (.txnTgtLoRead t) := Shape.of_part _
theorem Shape.evtLastPayRead (n : Fin 256) : Shape.Statement (.evtLastPayRead n) := Shape.of_part _
theorem Shape.logSeqNewRead : Shape.Statement .logSeqNewRead := Shape.of_part _
theorem Shape.readClear (a : Access) : Shape.Statement (.readClear a) := Shape.of_part _
theorem Shape.registerWrite (a : Access) : Shape.Statement (.registerWrite a) := Shape.of_part _
theorem Shape.extest : Shape.Statement .extest := Shape.of_part _
theorem Shape.idcode : Shape.Statement .idcode := Shape.of_part _
theorem Shape.samplePreload (upd ins : Bsr) : Shape.Statement (.samplePreload upd ins) := Shape.of_part _
theorem Shape.bypass : Shape.Statement .bypass := Shape.of_part _
theorem Shape.nocacc (router : BitVec 6) (wr : Bool) (addr : BitVec 48) (data : Word) :
    Shape.Statement (.nocacc router wr addr data) := Shape.of_part _
theorem Shape.lcyacc (tgt : BitVec 4) (token : QWord) (upto : Fin 8) :
    Shape.Statement (.lcyacc tgt token upto) := Shape.of_part _
theorem Shape.unusedOpcode (n : Fin 64) : Shape.Statement (.unusedOpcode n) := Shape.of_part _
theorem Shape.nocReservedCmd (r : Fin 36) (cmd : Fin 16) (p : Packet) :
    Shape.Statement (.nocReservedCmd r cmd p) := Shape.of_part _
theorem Shape.badFrame (p : Fin 4) (x : Received) : Shape.Statement (.badFrame p x) := Shape.of_part _
theorem Shape.referenceReturn (pll : Fin 6) : Shape.Statement (.referenceReturn pll) := Shape.of_part _
theorem Shape.globalNetEdge (k : Fin 32) (rising : Bool) (ins : List FabIn) :
    Shape.Statement (.globalNetEdge k rising ins) := Shape.of_part _
theorem Shape.routeCheckDone : Shape.Statement .routeCheckDone := Shape.of_part _
theorem Shape.hdescCheckDone : Shape.Statement .hdescCheckDone := Shape.of_part _
theorem Shape.eraseStop (b : Fin 4) : Shape.Statement (.eraseStop b) := Shape.of_part _
theorem Shape.busMasterEnable (bme mask : Bool) : Shape.Statement (.busMasterEnable bme mask) := Shape.of_part _
theorem Shape.msixTableWrite (v : Fin 256) (r : Fin 4) (w : Word) : Shape.Statement (.msixTableWrite v r w) := Shape.of_part _
theorem Shape.evtCfgWrite (n : Fin 256) (v : Word) : Shape.Statement (.evtCfgWrite n v) := Shape.of_part _
theorem Shape.nocShadowTableWrite (r : Fin 36) (p ix : Fin 5) (w : Word) :
    Shape.Statement (.nocShadowTableWrite r p ix w) := Shape.of_part _
theorem Shape.noBeatTick : Shape.Statement .noBeatTick := Shape.of_part _

end Sys2Proof.Laws
end

