-- ==== Sys2Proof/Laws/Tci.lean ====
section
/-! SUPPORT. The start and the completion of a Tuivar Command Instruction, once for every command. -/

namespace Sys2Proof.Machine

/-- Everything that the start of a command can change: its queue, or, where it had started before and waited, the list of
those that wait. -/
theorem tciGate_go {otp : Otp} {op : Nat} {c : Tci} {d d' : Dev} {o : Owner} (h : tciGate otp op c d = .go o d') :
    (∃ f, d' = d.updQueue c.q f) ∨
      ∃ x ∈ d.cmd.parked, x.1 = op ∧ x.2.1 = c ∧ o = x.2.2 ∧
        d' = { d with cmd := { d.cmd with parked := d.cmd.parked.erase x } } := by
  unfold tciGate at h
  extract_lets q fetched earlier o0 o1 o2 d1 at h
  have hd : ∃ f, d1 = d.updQueue c.q f := ⟨_, rfl⟩
  split at h
  · exact absurd h (by simp)
  split at h
  next x hx =>
    simp only [Gate.go.injEq] at h
    have hp := List.find?_some hx
    simp only [Bool.and_eq_true, beq_iff_eq, decide_eq_true_eq] at hp
    exact .inr ⟨x, List.mem_of_find?_eq_some hx, hp.1, hp.2, h.1.symm, h.2.symm⟩
  refine .inl ?_
  split at h
  · exact absurd h (by simp)
  split at h
  · exact absurd h (by simp)
  split at h
  · exact absurd h (by simp)
  split at h
  · split at h
    · exact absurd h (by simp)
    · simp only [Gate.go.injEq] at h
      rw [← h.2]; exact hd
  · exact absurd h (by simp)

/-- The start of a command changes the CMD block alone. -/
theorem State.Accepts.cmdOnly {s : State} {op : Nat} {c : Tci} {o : Owner} {d : Dev} (h : s.Accepts op c o d) :
    ∃ m : CmdState, d = { s.dev with cmd := m } := by
  rcases tciGate_go h.gate with ⟨f, hf⟩ | ⟨x, -, -, -, -, hx⟩
  · exact ⟨_, hf⟩
  · exact ⟨_, hx⟩

theorem State.Accepts.run {s : State} {op : Nat} {c : Tci} {o : Owner} {d : Dev} (h : s.Accepts op c o d)
    (f : Owner → Dev → Dev) : s.onDev (runTci op c f) = .next { s with dev := f o d } := by
  rw [State.onDev_live _ _ h.live]; simp [runTci, h.gate]

theorem State.Accepts.runOtp {s : State} {op : Nat} {c : Tci} {o : Owner} {d : Dev} (h : s.Accepts op c o d)
    (f : Owner → Otp → Dev → Otp × Dev) :
    s.onBoth (runTciOtp op c f) = .next { s with otp := (f o s.otp d).1, dev := (f o s.otp d).2 } := by
  rw [State.onBoth_live _ _ h.live]; simp [runTciOtp, h.gate]

theorem State.AcceptsAt.run {s : State} {n op : Nat} {c : Tci} {o : Owner} {d : Dev} (h : s.AcceptsAt n op c o d)
    (f : Owner → Dev → Dev) : s.onDev (runTciAt n op c f) = .next { s with dev := f o d } := by
  obtain ⟨m, hm⟩ := h.toAccepts.cmdOnly
  have hc : (d.domain n).closed = false := by rw [hm]; exact h.reach
  have ht : d.tested n = false := by rw [hm]; exact h.free
  rw [State.onDev_live _ _ h.live]; simp [runTciAt, runTci, h.gate, ht, Dev.reach, hc]

/-- Where a channel is free and, for data in host memory, Bus Master Enable is 1, the data moves at once (R318, R344). -/
theorem Dev.dma_now (d : Dev) (host : Bool) (c : Tci) (o : Owner) (act : Dev → Dev) (hf : d.freeChan.isSome = true)
    (hb : host = true → d.cmd.bme = true) : d.dma host c o act = act d := by
  unfold Dev.dma
  rw [if_neg]
  cases h : d.freeChan with
  | none => simp [h] at hf
  | some k => cases host <;> simp_all

/-- Everything that a completion can change: the CMD block. -/
theorem Dev.complete_cmd (d : Dev) (o : Owner) (st : Status) (a b : Word) :
    d.complete o st a b = { d with cmd := (d.complete o st a b).cmd } := by
  unfold Dev.complete
  split
  · rfl
  · split <;> rfl

/-- The completion of a command that is neither quiet nor from before a PCIe reset: its response waits at the end of its
queue's completions (R325 to R327). -/
theorem Dev.complete_queue (d : Dev) (o : Owner) (st : Status) (a b : Word) (hg : o.gen = d.cmd.gen)
    (hq : o.quiet = false ∨ st ≠ .ok) : d.complete o st a b = d.updQueue o.q fun q =>
      { q with done := q.done ++ [{ tag := o.tag, op := o.op, status := st, data0 := a, data1 := b, notify := o.notify }] } := by
  have : (o.quiet && decide (st = .ok)) = false := by rcases hq with h | h <;> simp [h]
  simp [Dev.complete, hg, this]

@[simp] theorem Dev.complete_fuse (d : Dev) (o : Owner) (st : Status) (a b : Word) : (d.complete o st a b).fuse = d.fuse := by
  rw [Dev.complete_cmd]
@[simp] theorem Dev.complete_time (d : Dev) (o : Owner) (st : Status) (a b : Word) : (d.complete o st a b).time = d.time := by
  rw [Dev.complete_cmd]
@[simp] theorem Dev.complete_mode (d : Dev) (o : Owner) (st : Status) (a b : Word) : (d.complete o st a b).mode = d.mode := by
  rw [Dev.complete_cmd]
@[simp] theorem Dev.complete_clk (d : Dev) (o : Owner) (st : Status) (a b : Word) : (d.complete o st a b).clk = d.clk := by
  rw [Dev.complete_cmd]
@[simp] theorem Dev.complete_evt (d : Dev) (o : Owner) (st : Status) (a b : Word) : (d.complete o st a b).evt = d.evt := by
  rw [Dev.complete_cmd]
@[simp] theorem Dev.complete_log (d : Dev) (o : Owner) (st : Status) (a b : Word) : (d.complete o st a b).log = d.log := by
  rw [Dev.complete_cmd]
@[simp] theorem Dev.complete_eng (d : Dev) (o : Owner) (st : Status) (a b : Word) : (d.complete o st a b).eng = d.eng := by
  rw [Dev.complete_cmd]
@[simp] theorem Dev.complete_tim (d : Dev) (o : Owner) (st : Status) (a b : Word) : (d.complete o st a b).tim = d.tim := by
  rw [Dev.complete_cmd]
@[simp] theorem Dev.complete_cal (d : Dev) (o : Owner) (st : Status) (a b : Word) : (d.complete o st a b).cal = d.cal := by
  rw [Dev.complete_cmd]
@[simp] theorem Dev.complete_fcp (d : Dev) (o : Owner) (st : Status) (a b : Word) : (d.complete o st a b).fcp = d.fcp := by
  rw [Dev.complete_cmd]
@[simp] theorem Dev.complete_rae (d : Dev) (o : Owner) (st : Status) (a b : Word) : (d.complete o st a b).rae = d.rae := by
  rw [Dev.complete_cmd]
@[simp] theorem Dev.complete_txn (d : Dev) (o : Owner) (st : Status) (a b : Word) : (d.complete o st a b).txn = d.txn := by
  rw [Dev.complete_cmd]
@[simp] theorem Dev.complete_byt (d : Dev) (o : Owner) (st : Status) (a b : Word) : (d.complete o st a b).byt = d.byt := by
  rw [Dev.complete_cmd]
@[simp] theorem Dev.complete_pwr (d : Dev) (o : Owner) (st : Status) (a b : Word) : (d.complete o st a b).pwr = d.pwr := by
  rw [Dev.complete_cmd]
@[simp] theorem Dev.complete_noc (d : Dev) (o : Owner) (st : Status) (a b : Word) : (d.complete o st a b).noc = d.noc := by
  rw [Dev.complete_cmd]
@[simp] theorem Dev.complete_nvs (d : Dev) (o : Owner) (st : Status) (a b : Word) : (d.complete o st a b).nvs = d.nvs := by
  rw [Dev.complete_cmd]
@[simp] theorem Dev.complete_fab (d : Dev) (o : Owner) (st : Status) (a b : Word) : (d.complete o st a b).fab = d.fab := by
  rw [Dev.complete_cmd]
@[simp] theorem Dev.complete_cfg (d : Dev) (o : Owner) (st : Status) (a b : Word) : (d.complete o st a b).cfg = d.cfg := by
  rw [Dev.complete_cmd]
@[simp] theorem Dev.complete_bst (d : Dev) (o : Owner) (st : Status) (a b : Word) : (d.complete o st a b).bst = d.bst := by
  rw [Dev.complete_cmd]
@[simp] theorem Dev.complete_lcy (d : Dev) (o : Owner) (st : Status) (a b : Word) : (d.complete o st a b).lcy = d.lcy := by
  rw [Dev.complete_cmd]
@[simp] theorem Dev.complete_ptr (d : Dev) (o : Owner) (st : Status) (a b : Word) : (d.complete o st a b).ptr = d.ptr := by
  rw [Dev.complete_cmd]
@[simp] theorem Dev.complete_vmi (d : Dev) (o : Owner) (st : Status) (a b : Word) : (d.complete o st a b).vmi = d.vmi := by
  rw [Dev.complete_cmd]
@[simp] theorem Dev.complete_tap (d : Dev) (o : Owner) (st : Status) (a b : Word) : (d.complete o st a b).tap = d.tap := by
  rw [Dev.complete_cmd]
@[simp] theorem Dev.complete_stw (d : Dev) (o : Owner) (st : Status) (a b : Word) : (d.complete o st a b).stw = d.stw := by
  rw [Dev.complete_cmd]
@[simp] theorem Dev.complete_pin (d : Dev) (o : Owner) (st : Status) (a b : Word) : (d.complete o st a b).pin = d.pin := by
  rw [Dev.complete_cmd]
@[simp] theorem Dev.complete_rdata (d : Dev) (o : Owner) (st : Status) (a b : Word) : (d.complete o st a b).rdata = d.rdata := by
  rw [Dev.complete_cmd]
@[simp] theorem Dev.complete_fresh (d : Dev) (o : Owner) (st : Status) (a b : Word) : (d.complete o st a b).fresh = d.fresh := by
  rw [Dev.complete_cmd]
@[simp] theorem Dev.answer_fuse (d : Dev) (o : Owner) (st : Status) : (d.answer o st).fuse = d.fuse := Dev.complete_fuse d o st 0 0
@[simp] theorem Dev.answer_time (d : Dev) (o : Owner) (st : Status) : (d.answer o st).time = d.time := Dev.complete_time d o st 0 0
@[simp] theorem Dev.answer_mode (d : Dev) (o : Owner) (st : Status) : (d.answer o st).mode = d.mode := Dev.complete_mode d o st 0 0
@[simp] theorem Dev.answer_clk (d : Dev) (o : Owner) (st : Status) : (d.answer o st).clk = d.clk := Dev.complete_clk d o st 0 0
@[simp] theorem Dev.answer_evt (d : Dev) (o : Owner) (st : Status) : (d.answer o st).evt = d.evt := Dev.complete_evt d o st 0 0
@[simp] theorem Dev.answer_log (d : Dev) (o : Owner) (st : Status) : (d.answer o st).log = d.log := Dev.complete_log d o st 0 0
@[simp] theorem Dev.answer_eng (d : Dev) (o : Owner) (st : Status) : (d.answer o st).eng = d.eng := Dev.complete_eng d o st 0 0
@[simp] theorem Dev.answer_tim (d : Dev) (o : Owner) (st : Status) : (d.answer o st).tim = d.tim := Dev.complete_tim d o st 0 0
@[simp] theorem Dev.answer_cal (d : Dev) (o : Owner) (st : Status) : (d.answer o st).cal = d.cal := Dev.complete_cal d o st 0 0
@[simp] theorem Dev.answer_fcp (d : Dev) (o : Owner) (st : Status) : (d.answer o st).fcp = d.fcp := Dev.complete_fcp d o st 0 0
@[simp] theorem Dev.answer_rae (d : Dev) (o : Owner) (st : Status) : (d.answer o st).rae = d.rae := Dev.complete_rae d o st 0 0
@[simp] theorem Dev.answer_txn (d : Dev) (o : Owner) (st : Status) : (d.answer o st).txn = d.txn := Dev.complete_txn d o st 0 0
@[simp] theorem Dev.answer_byt (d : Dev) (o : Owner) (st : Status) : (d.answer o st).byt = d.byt := Dev.complete_byt d o st 0 0
@[simp] theorem Dev.answer_pwr (d : Dev) (o : Owner) (st : Status) : (d.answer o st).pwr = d.pwr := Dev.complete_pwr d o st 0 0
@[simp] theorem Dev.answer_noc (d : Dev) (o : Owner) (st : Status) : (d.answer o st).noc = d.noc := Dev.complete_noc d o st 0 0
@[simp] theorem Dev.answer_nvs (d : Dev) (o : Owner) (st : Status) : (d.answer o st).nvs = d.nvs := Dev.complete_nvs d o st 0 0
@[simp] theorem Dev.answer_fab (d : Dev) (o : Owner) (st : Status) : (d.answer o st).fab = d.fab := Dev.complete_fab d o st 0 0
@[simp] theorem Dev.answer_cfg (d : Dev) (o : Owner) (st : Status) : (d.answer o st).cfg = d.cfg := Dev.complete_cfg d o st 0 0
@[simp] theorem Dev.answer_bst (d : Dev) (o : Owner) (st : Status) : (d.answer o st).bst = d.bst := Dev.complete_bst d o st 0 0
@[simp] theorem Dev.answer_lcy (d : Dev) (o : Owner) (st : Status) : (d.answer o st).lcy = d.lcy := Dev.complete_lcy d o st 0 0
@[simp] theorem Dev.answer_ptr (d : Dev) (o : Owner) (st : Status) : (d.answer o st).ptr = d.ptr := Dev.complete_ptr d o st 0 0
@[simp] theorem Dev.answer_vmi (d : Dev) (o : Owner) (st : Status) : (d.answer o st).vmi = d.vmi := Dev.complete_vmi d o st 0 0
@[simp] theorem Dev.answer_tap (d : Dev) (o : Owner) (st : Status) : (d.answer o st).tap = d.tap := Dev.complete_tap d o st 0 0
@[simp] theorem Dev.answer_stw (d : Dev) (o : Owner) (st : Status) : (d.answer o st).stw = d.stw := Dev.complete_stw d o st 0 0
@[simp] theorem Dev.answer_pin (d : Dev) (o : Owner) (st : Status) : (d.answer o st).pin = d.pin := Dev.complete_pin d o st 0 0
@[simp] theorem Dev.answer_rdata (d : Dev) (o : Owner) (st : Status) : (d.answer o st).rdata = d.rdata := Dev.complete_rdata d o st 0 0
@[simp] theorem Dev.answer_fresh (d : Dev) (o : Owner) (st : Status) : (d.answer o st).fresh = d.fresh := Dev.complete_fresh d o st 0 0

theorem State.Writable.run {s : State} {n : Nat} (h : s.Writable n) (off : Nat) (v : Word) (f : Dev → Dev) :
    s.onDev (fun _ d => d.hostWrite n off v f) = .next { s with dev := f s.dev } := by
  rw [State.onDev_live _ _ h.live]; simp [Dev.hostWrite, h.free, h.reach]

end Sys2Proof.Machine
end

