-- ==== Sys2Proof/Laws/Units.lean ====
section
/-! SUPPORT. The small lemmas of the updates of single units: streams, planes, regions of the fabric, recorder blocks, tags, banks,
zones, partner entries, capture arms and self-tests. -/

namespace Sys2Proof.Machine

/-! ## updStream -/

@[simp] theorem Dev.updStream_fuse (d : Dev) (n : Nat) (f : Stream → Stream) : (d.updStream n f).fuse = d.fuse := rfl
@[simp] theorem Dev.updStream_time (d : Dev) (n : Nat) (f : Stream → Stream) : (d.updStream n f).time = d.time := rfl
@[simp] theorem Dev.updStream_mode (d : Dev) (n : Nat) (f : Stream → Stream) : (d.updStream n f).mode = d.mode := rfl
@[simp] theorem Dev.updStream_clk (d : Dev) (n : Nat) (f : Stream → Stream) : (d.updStream n f).clk = d.clk := rfl
@[simp] theorem Dev.updStream_evt (d : Dev) (n : Nat) (f : Stream → Stream) : (d.updStream n f).evt = d.evt := rfl
@[simp] theorem Dev.updStream_log (d : Dev) (n : Nat) (f : Stream → Stream) : (d.updStream n f).log = d.log := rfl
@[simp] theorem Dev.updStream_cmd (d : Dev) (n : Nat) (f : Stream → Stream) : (d.updStream n f).cmd = d.cmd := rfl
@[simp] theorem Dev.updStream_eng (d : Dev) (n : Nat) (f : Stream → Stream) : (d.updStream n f).eng = d.eng := rfl
@[simp] theorem Dev.updStream_tim (d : Dev) (n : Nat) (f : Stream → Stream) : (d.updStream n f).tim = d.tim := rfl
@[simp] theorem Dev.updStream_cal (d : Dev) (n : Nat) (f : Stream → Stream) : (d.updStream n f).cal = d.cal := rfl
@[simp] theorem Dev.updStream_fcp (d : Dev) (n : Nat) (f : Stream → Stream) : (d.updStream n f).fcp = d.fcp := rfl
@[simp] theorem Dev.updStream_rae (d : Dev) (n : Nat) (f : Stream → Stream) : (d.updStream n f).rae = d.rae := rfl
@[simp] theorem Dev.updStream_txn (d : Dev) (n : Nat) (f : Stream → Stream) : (d.updStream n f).txn = d.txn := rfl
@[simp] theorem Dev.updStream_byt (d : Dev) (n : Nat) (f : Stream → Stream) : (d.updStream n f).byt = d.byt := rfl
@[simp] theorem Dev.updStream_pwr (d : Dev) (n : Nat) (f : Stream → Stream) : (d.updStream n f).pwr = d.pwr := rfl
@[simp] theorem Dev.updStream_noc (d : Dev) (n : Nat) (f : Stream → Stream) : (d.updStream n f).noc = d.noc := rfl
@[simp] theorem Dev.updStream_nvs (d : Dev) (n : Nat) (f : Stream → Stream) : (d.updStream n f).nvs = d.nvs := rfl
@[simp] theorem Dev.updStream_fab (d : Dev) (n : Nat) (f : Stream → Stream) : (d.updStream n f).fab = d.fab := rfl
@[simp] theorem Dev.updStream_cfg (d : Dev) (n : Nat) (f : Stream → Stream) : (d.updStream n f).cfg = d.cfg := rfl
@[simp] theorem Dev.updStream_bst (d : Dev) (n : Nat) (f : Stream → Stream) : (d.updStream n f).bst = d.bst := rfl
@[simp] theorem Dev.updStream_lcy (d : Dev) (n : Nat) (f : Stream → Stream) : (d.updStream n f).lcy = d.lcy := rfl
@[simp] theorem Dev.updStream_ptr (d : Dev) (n : Nat) (f : Stream → Stream) : (d.updStream n f).ptr = d.ptr := rfl
@[simp] theorem Dev.updStream_tap (d : Dev) (n : Nat) (f : Stream → Stream) : (d.updStream n f).tap = d.tap := rfl
@[simp] theorem Dev.updStream_stw (d : Dev) (n : Nat) (f : Stream → Stream) : (d.updStream n f).stw = d.stw := rfl
@[simp] theorem Dev.updStream_pin (d : Dev) (n : Nat) (f : Stream → Stream) : (d.updStream n f).pin = d.pin := rfl
@[simp] theorem Dev.updStream_rdata (d : Dev) (n : Nat) (f : Stream → Stream) : (d.updStream n f).rdata = d.rdata := rfl
@[simp] theorem Dev.updStream_fresh (d : Dev) (n : Nat) (f : Stream → Stream) : (d.updStream n f).fresh = d.fresh := rfl
@[simp] theorem Dev.updStream_live (d : Dev) (n : Nat) (f : Stream → Stream) : (d.updStream n f).live = d.live := rfl

/-! ## updPlane -/

@[simp] theorem Dev.updPlane_fuse (d : Dev) (n p : Nat) (f : Plane → Plane) : (d.updPlane n p f).fuse = d.fuse := rfl
@[simp] theorem Dev.updPlane_time (d : Dev) (n p : Nat) (f : Plane → Plane) : (d.updPlane n p f).time = d.time := rfl
@[simp] theorem Dev.updPlane_mode (d : Dev) (n p : Nat) (f : Plane → Plane) : (d.updPlane n p f).mode = d.mode := rfl
@[simp] theorem Dev.updPlane_clk (d : Dev) (n p : Nat) (f : Plane → Plane) : (d.updPlane n p f).clk = d.clk := rfl
@[simp] theorem Dev.updPlane_evt (d : Dev) (n p : Nat) (f : Plane → Plane) : (d.updPlane n p f).evt = d.evt := rfl
@[simp] theorem Dev.updPlane_log (d : Dev) (n p : Nat) (f : Plane → Plane) : (d.updPlane n p f).log = d.log := rfl
@[simp] theorem Dev.updPlane_cmd (d : Dev) (n p : Nat) (f : Plane → Plane) : (d.updPlane n p f).cmd = d.cmd := rfl
@[simp] theorem Dev.updPlane_eng (d : Dev) (n p : Nat) (f : Plane → Plane) : (d.updPlane n p f).eng = d.eng := rfl
@[simp] theorem Dev.updPlane_tim (d : Dev) (n p : Nat) (f : Plane → Plane) : (d.updPlane n p f).tim = d.tim := rfl
@[simp] theorem Dev.updPlane_cal (d : Dev) (n p : Nat) (f : Plane → Plane) : (d.updPlane n p f).cal = d.cal := rfl
@[simp] theorem Dev.updPlane_fcp (d : Dev) (n p : Nat) (f : Plane → Plane) : (d.updPlane n p f).fcp = d.fcp := rfl
@[simp] theorem Dev.updPlane_rae (d : Dev) (n p : Nat) (f : Plane → Plane) : (d.updPlane n p f).rae = d.rae := rfl
@[simp] theorem Dev.updPlane_txn (d : Dev) (n p : Nat) (f : Plane → Plane) : (d.updPlane n p f).txn = d.txn := rfl
@[simp] theorem Dev.updPlane_byt (d : Dev) (n p : Nat) (f : Plane → Plane) : (d.updPlane n p f).byt = d.byt := rfl
@[simp] theorem Dev.updPlane_pwr (d : Dev) (n p : Nat) (f : Plane → Plane) : (d.updPlane n p f).pwr = d.pwr := rfl
@[simp] theorem Dev.updPlane_noc (d : Dev) (n p : Nat) (f : Plane → Plane) : (d.updPlane n p f).noc = d.noc := rfl
@[simp] theorem Dev.updPlane_nvs (d : Dev) (n p : Nat) (f : Plane → Plane) : (d.updPlane n p f).nvs = d.nvs := rfl
@[simp] theorem Dev.updPlane_fab (d : Dev) (n p : Nat) (f : Plane → Plane) : (d.updPlane n p f).fab = d.fab := rfl
@[simp] theorem Dev.updPlane_bst (d : Dev) (n p : Nat) (f : Plane → Plane) : (d.updPlane n p f).bst = d.bst := rfl
@[simp] theorem Dev.updPlane_lcy (d : Dev) (n p : Nat) (f : Plane → Plane) : (d.updPlane n p f).lcy = d.lcy := rfl
@[simp] theorem Dev.updPlane_ptr (d : Dev) (n p : Nat) (f : Plane → Plane) : (d.updPlane n p f).ptr = d.ptr := rfl
@[simp] theorem Dev.updPlane_vmi (d : Dev) (n p : Nat) (f : Plane → Plane) : (d.updPlane n p f).vmi = d.vmi := rfl
@[simp] theorem Dev.updPlane_tap (d : Dev) (n p : Nat) (f : Plane → Plane) : (d.updPlane n p f).tap = d.tap := rfl
@[simp] theorem Dev.updPlane_stw (d : Dev) (n p : Nat) (f : Plane → Plane) : (d.updPlane n p f).stw = d.stw := rfl
@[simp] theorem Dev.updPlane_pin (d : Dev) (n p : Nat) (f : Plane → Plane) : (d.updPlane n p f).pin = d.pin := rfl
@[simp] theorem Dev.updPlane_rdata (d : Dev) (n p : Nat) (f : Plane → Plane) : (d.updPlane n p f).rdata = d.rdata := rfl
@[simp] theorem Dev.updPlane_fresh (d : Dev) (n p : Nat) (f : Plane → Plane) : (d.updPlane n p f).fresh = d.fresh := rfl
@[simp] theorem Dev.updPlane_live (d : Dev) (n p : Nat) (f : Plane → Plane) : (d.updPlane n p f).live = d.live := rfl

/-! ## updFabRegion -/

@[simp] theorem Dev.updFabRegion_fuse (d : Dev) (n : Nat) (f : FabRegion → FabRegion) : (d.updFabRegion n f).fuse = d.fuse := rfl
@[simp] theorem Dev.updFabRegion_time (d : Dev) (n : Nat) (f : FabRegion → FabRegion) : (d.updFabRegion n f).time = d.time := rfl
@[simp] theorem Dev.updFabRegion_mode (d : Dev) (n : Nat) (f : FabRegion → FabRegion) : (d.updFabRegion n f).mode = d.mode := rfl
@[simp] theorem Dev.updFabRegion_clk (d : Dev) (n : Nat) (f : FabRegion → FabRegion) : (d.updFabRegion n f).clk = d.clk := rfl
@[simp] theorem Dev.updFabRegion_evt (d : Dev) (n : Nat) (f : FabRegion → FabRegion) : (d.updFabRegion n f).evt = d.evt := rfl
@[simp] theorem Dev.updFabRegion_log (d : Dev) (n : Nat) (f : FabRegion → FabRegion) : (d.updFabRegion n f).log = d.log := rfl
@[simp] theorem Dev.updFabRegion_cmd (d : Dev) (n : Nat) (f : FabRegion → FabRegion) : (d.updFabRegion n f).cmd = d.cmd := rfl
@[simp] theorem Dev.updFabRegion_eng (d : Dev) (n : Nat) (f : FabRegion → FabRegion) : (d.updFabRegion n f).eng = d.eng := rfl
@[simp] theorem Dev.updFabRegion_tim (d : Dev) (n : Nat) (f : FabRegion → FabRegion) : (d.updFabRegion n f).tim = d.tim := rfl
@[simp] theorem Dev.updFabRegion_cal (d : Dev) (n : Nat) (f : FabRegion → FabRegion) : (d.updFabRegion n f).cal = d.cal := rfl
@[simp] theorem Dev.updFabRegion_fcp (d : Dev) (n : Nat) (f : FabRegion → FabRegion) : (d.updFabRegion n f).fcp = d.fcp := rfl
@[simp] theorem Dev.updFabRegion_rae (d : Dev) (n : Nat) (f : FabRegion → FabRegion) : (d.updFabRegion n f).rae = d.rae := rfl
@[simp] theorem Dev.updFabRegion_txn (d : Dev) (n : Nat) (f : FabRegion → FabRegion) : (d.updFabRegion n f).txn = d.txn := rfl
@[simp] theorem Dev.updFabRegion_byt (d : Dev) (n : Nat) (f : FabRegion → FabRegion) : (d.updFabRegion n f).byt = d.byt := rfl
@[simp] theorem Dev.updFabRegion_pwr (d : Dev) (n : Nat) (f : FabRegion → FabRegion) : (d.updFabRegion n f).pwr = d.pwr := rfl
@[simp] theorem Dev.updFabRegion_noc (d : Dev) (n : Nat) (f : FabRegion → FabRegion) : (d.updFabRegion n f).noc = d.noc := rfl
@[simp] theorem Dev.updFabRegion_nvs (d : Dev) (n : Nat) (f : FabRegion → FabRegion) : (d.updFabRegion n f).nvs = d.nvs := rfl
@[simp] theorem Dev.updFabRegion_cfg (d : Dev) (n : Nat) (f : FabRegion → FabRegion) : (d.updFabRegion n f).cfg = d.cfg := rfl
@[simp] theorem Dev.updFabRegion_bst (d : Dev) (n : Nat) (f : FabRegion → FabRegion) : (d.updFabRegion n f).bst = d.bst := rfl
@[simp] theorem Dev.updFabRegion_lcy (d : Dev) (n : Nat) (f : FabRegion → FabRegion) : (d.updFabRegion n f).lcy = d.lcy := rfl
@[simp] theorem Dev.updFabRegion_ptr (d : Dev) (n : Nat) (f : FabRegion → FabRegion) : (d.updFabRegion n f).ptr = d.ptr := rfl
@[simp] theorem Dev.updFabRegion_vmi (d : Dev) (n : Nat) (f : FabRegion → FabRegion) : (d.updFabRegion n f).vmi = d.vmi := rfl
@[simp] theorem Dev.updFabRegion_tap (d : Dev) (n : Nat) (f : FabRegion → FabRegion) : (d.updFabRegion n f).tap = d.tap := rfl
@[simp] theorem Dev.updFabRegion_stw (d : Dev) (n : Nat) (f : FabRegion → FabRegion) : (d.updFabRegion n f).stw = d.stw := rfl
@[simp] theorem Dev.updFabRegion_pin (d : Dev) (n : Nat) (f : FabRegion → FabRegion) : (d.updFabRegion n f).pin = d.pin := rfl
@[simp] theorem Dev.updFabRegion_rdata (d : Dev) (n : Nat) (f : FabRegion → FabRegion) : (d.updFabRegion n f).rdata = d.rdata := rfl
@[simp] theorem Dev.updFabRegion_fresh (d : Dev) (n : Nat) (f : FabRegion → FabRegion) : (d.updFabRegion n f).fresh = d.fresh := rfl
@[simp] theorem Dev.updFabRegion_live (d : Dev) (n : Nat) (f : FabRegion → FabRegion) : (d.updFabRegion n f).live = d.live := rfl

/-! ## updLogBlk -/

@[simp] theorem Dev.updLogBlk_fuse (d : Dev) (b : Nat) (f : LogBlk → LogBlk) : (d.updLogBlk b f).fuse = d.fuse := rfl
@[simp] theorem Dev.updLogBlk_time (d : Dev) (b : Nat) (f : LogBlk → LogBlk) : (d.updLogBlk b f).time = d.time := rfl
@[simp] theorem Dev.updLogBlk_mode (d : Dev) (b : Nat) (f : LogBlk → LogBlk) : (d.updLogBlk b f).mode = d.mode := rfl
@[simp] theorem Dev.updLogBlk_clk (d : Dev) (b : Nat) (f : LogBlk → LogBlk) : (d.updLogBlk b f).clk = d.clk := rfl
@[simp] theorem Dev.updLogBlk_evt (d : Dev) (b : Nat) (f : LogBlk → LogBlk) : (d.updLogBlk b f).evt = d.evt := rfl
@[simp] theorem Dev.updLogBlk_cmd (d : Dev) (b : Nat) (f : LogBlk → LogBlk) : (d.updLogBlk b f).cmd = d.cmd := rfl
@[simp] theorem Dev.updLogBlk_eng (d : Dev) (b : Nat) (f : LogBlk → LogBlk) : (d.updLogBlk b f).eng = d.eng := rfl
@[simp] theorem Dev.updLogBlk_tim (d : Dev) (b : Nat) (f : LogBlk → LogBlk) : (d.updLogBlk b f).tim = d.tim := rfl
@[simp] theorem Dev.updLogBlk_cal (d : Dev) (b : Nat) (f : LogBlk → LogBlk) : (d.updLogBlk b f).cal = d.cal := rfl
@[simp] theorem Dev.updLogBlk_fcp (d : Dev) (b : Nat) (f : LogBlk → LogBlk) : (d.updLogBlk b f).fcp = d.fcp := rfl
@[simp] theorem Dev.updLogBlk_rae (d : Dev) (b : Nat) (f : LogBlk → LogBlk) : (d.updLogBlk b f).rae = d.rae := rfl
@[simp] theorem Dev.updLogBlk_txn (d : Dev) (b : Nat) (f : LogBlk → LogBlk) : (d.updLogBlk b f).txn = d.txn := rfl
@[simp] theorem Dev.updLogBlk_byt (d : Dev) (b : Nat) (f : LogBlk → LogBlk) : (d.updLogBlk b f).byt = d.byt := rfl
@[simp] theorem Dev.updLogBlk_pwr (d : Dev) (b : Nat) (f : LogBlk → LogBlk) : (d.updLogBlk b f).pwr = d.pwr := rfl
@[simp] theorem Dev.updLogBlk_noc (d : Dev) (b : Nat) (f : LogBlk → LogBlk) : (d.updLogBlk b f).noc = d.noc := rfl
@[simp] theorem Dev.updLogBlk_nvs (d : Dev) (b : Nat) (f : LogBlk → LogBlk) : (d.updLogBlk b f).nvs = d.nvs := rfl
@[simp] theorem Dev.updLogBlk_fab (d : Dev) (b : Nat) (f : LogBlk → LogBlk) : (d.updLogBlk b f).fab = d.fab := rfl
@[simp] theorem Dev.updLogBlk_cfg (d : Dev) (b : Nat) (f : LogBlk → LogBlk) : (d.updLogBlk b f).cfg = d.cfg := rfl
@[simp] theorem Dev.updLogBlk_bst (d : Dev) (b : Nat) (f : LogBlk → LogBlk) : (d.updLogBlk b f).bst = d.bst := rfl
@[simp] theorem Dev.updLogBlk_lcy (d : Dev) (b : Nat) (f : LogBlk → LogBlk) : (d.updLogBlk b f).lcy = d.lcy := rfl
@[simp] theorem Dev.updLogBlk_ptr (d : Dev) (b : Nat) (f : LogBlk → LogBlk) : (d.updLogBlk b f).ptr = d.ptr := rfl
@[simp] theorem Dev.updLogBlk_vmi (d : Dev) (b : Nat) (f : LogBlk → LogBlk) : (d.updLogBlk b f).vmi = d.vmi := rfl
@[simp] theorem Dev.updLogBlk_tap (d : Dev) (b : Nat) (f : LogBlk → LogBlk) : (d.updLogBlk b f).tap = d.tap := rfl
@[simp] theorem Dev.updLogBlk_stw (d : Dev) (b : Nat) (f : LogBlk → LogBlk) : (d.updLogBlk b f).stw = d.stw := rfl
@[simp] theorem Dev.updLogBlk_pin (d : Dev) (b : Nat) (f : LogBlk → LogBlk) : (d.updLogBlk b f).pin = d.pin := rfl
@[simp] theorem Dev.updLogBlk_rdata (d : Dev) (b : Nat) (f : LogBlk → LogBlk) : (d.updLogBlk b f).rdata = d.rdata := rfl
@[simp] theorem Dev.updLogBlk_fresh (d : Dev) (b : Nat) (f : LogBlk → LogBlk) : (d.updLogBlk b f).fresh = d.fresh := rfl
@[simp] theorem Dev.updLogBlk_live (d : Dev) (b : Nat) (f : LogBlk → LogBlk) : (d.updLogBlk b f).live = d.live := rfl

/-! ## setTag -/

@[simp] theorem Dev.setTag_fuse (d : Dev) (k : Nat) (x : TagSt) : (d.setTag k x).fuse = d.fuse := rfl
@[simp] theorem Dev.setTag_time (d : Dev) (k : Nat) (x : TagSt) : (d.setTag k x).time = d.time := rfl
@[simp] theorem Dev.setTag_mode (d : Dev) (k : Nat) (x : TagSt) : (d.setTag k x).mode = d.mode := rfl
@[simp] theorem Dev.setTag_clk (d : Dev) (k : Nat) (x : TagSt) : (d.setTag k x).clk = d.clk := rfl
@[simp] theorem Dev.setTag_evt (d : Dev) (k : Nat) (x : TagSt) : (d.setTag k x).evt = d.evt := rfl
@[simp] theorem Dev.setTag_log (d : Dev) (k : Nat) (x : TagSt) : (d.setTag k x).log = d.log := rfl
@[simp] theorem Dev.setTag_cmd (d : Dev) (k : Nat) (x : TagSt) : (d.setTag k x).cmd = d.cmd := rfl
@[simp] theorem Dev.setTag_eng (d : Dev) (k : Nat) (x : TagSt) : (d.setTag k x).eng = d.eng := rfl
@[simp] theorem Dev.setTag_tim (d : Dev) (k : Nat) (x : TagSt) : (d.setTag k x).tim = d.tim := rfl
@[simp] theorem Dev.setTag_cal (d : Dev) (k : Nat) (x : TagSt) : (d.setTag k x).cal = d.cal := rfl
@[simp] theorem Dev.setTag_fcp (d : Dev) (k : Nat) (x : TagSt) : (d.setTag k x).fcp = d.fcp := rfl
@[simp] theorem Dev.setTag_rae (d : Dev) (k : Nat) (x : TagSt) : (d.setTag k x).rae = d.rae := rfl
@[simp] theorem Dev.setTag_txn (d : Dev) (k : Nat) (x : TagSt) : (d.setTag k x).txn = d.txn := rfl
@[simp] theorem Dev.setTag_byt (d : Dev) (k : Nat) (x : TagSt) : (d.setTag k x).byt = d.byt := rfl
@[simp] theorem Dev.setTag_pwr (d : Dev) (k : Nat) (x : TagSt) : (d.setTag k x).pwr = d.pwr := rfl
@[simp] theorem Dev.setTag_nvs (d : Dev) (k : Nat) (x : TagSt) : (d.setTag k x).nvs = d.nvs := rfl
@[simp] theorem Dev.setTag_fab (d : Dev) (k : Nat) (x : TagSt) : (d.setTag k x).fab = d.fab := rfl
@[simp] theorem Dev.setTag_cfg (d : Dev) (k : Nat) (x : TagSt) : (d.setTag k x).cfg = d.cfg := rfl
@[simp] theorem Dev.setTag_bst (d : Dev) (k : Nat) (x : TagSt) : (d.setTag k x).bst = d.bst := rfl
@[simp] theorem Dev.setTag_lcy (d : Dev) (k : Nat) (x : TagSt) : (d.setTag k x).lcy = d.lcy := rfl
@[simp] theorem Dev.setTag_ptr (d : Dev) (k : Nat) (x : TagSt) : (d.setTag k x).ptr = d.ptr := rfl
@[simp] theorem Dev.setTag_vmi (d : Dev) (k : Nat) (x : TagSt) : (d.setTag k x).vmi = d.vmi := rfl
@[simp] theorem Dev.setTag_tap (d : Dev) (k : Nat) (x : TagSt) : (d.setTag k x).tap = d.tap := rfl
@[simp] theorem Dev.setTag_stw (d : Dev) (k : Nat) (x : TagSt) : (d.setTag k x).stw = d.stw := rfl
@[simp] theorem Dev.setTag_pin (d : Dev) (k : Nat) (x : TagSt) : (d.setTag k x).pin = d.pin := rfl
@[simp] theorem Dev.setTag_rdata (d : Dev) (k : Nat) (x : TagSt) : (d.setTag k x).rdata = d.rdata := rfl
@[simp] theorem Dev.setTag_fresh (d : Dev) (k : Nat) (x : TagSt) : (d.setTag k x).fresh = d.fresh := rfl
@[simp] theorem Dev.setTag_live (d : Dev) (k : Nat) (x : TagSt) : (d.setTag k x).live = d.live := rfl

/-! ## updBank -/

@[simp] theorem Dev.updBank_fuse (d : Dev) (b : Nat) (f : NvBank → NvBank) : (d.updBank b f).fuse = d.fuse := rfl
@[simp] theorem Dev.updBank_time (d : Dev) (b : Nat) (f : NvBank → NvBank) : (d.updBank b f).time = d.time := rfl
@[simp] theorem Dev.updBank_mode (d : Dev) (b : Nat) (f : NvBank → NvBank) : (d.updBank b f).mode = d.mode := rfl
@[simp] theorem Dev.updBank_clk (d : Dev) (b : Nat) (f : NvBank → NvBank) : (d.updBank b f).clk = d.clk := rfl
@[simp] theorem Dev.updBank_evt (d : Dev) (b : Nat) (f : NvBank → NvBank) : (d.updBank b f).evt = d.evt := rfl
@[simp] theorem Dev.updBank_log (d : Dev) (b : Nat) (f : NvBank → NvBank) : (d.updBank b f).log = d.log := rfl
@[simp] theorem Dev.updBank_cmd (d : Dev) (b : Nat) (f : NvBank → NvBank) : (d.updBank b f).cmd = d.cmd := rfl
@[simp] theorem Dev.updBank_eng (d : Dev) (b : Nat) (f : NvBank → NvBank) : (d.updBank b f).eng = d.eng := rfl
@[simp] theorem Dev.updBank_tim (d : Dev) (b : Nat) (f : NvBank → NvBank) : (d.updBank b f).tim = d.tim := rfl
@[simp] theorem Dev.updBank_cal (d : Dev) (b : Nat) (f : NvBank → NvBank) : (d.updBank b f).cal = d.cal := rfl
@[simp] theorem Dev.updBank_fcp (d : Dev) (b : Nat) (f : NvBank → NvBank) : (d.updBank b f).fcp = d.fcp := rfl
@[simp] theorem Dev.updBank_rae (d : Dev) (b : Nat) (f : NvBank → NvBank) : (d.updBank b f).rae = d.rae := rfl
@[simp] theorem Dev.updBank_txn (d : Dev) (b : Nat) (f : NvBank → NvBank) : (d.updBank b f).txn = d.txn := rfl
@[simp] theorem Dev.updBank_byt (d : Dev) (b : Nat) (f : NvBank → NvBank) : (d.updBank b f).byt = d.byt := rfl
@[simp] theorem Dev.updBank_pwr (d : Dev) (b : Nat) (f : NvBank → NvBank) : (d.updBank b f).pwr = d.pwr := rfl
@[simp] theorem Dev.updBank_noc (d : Dev) (b : Nat) (f : NvBank → NvBank) : (d.updBank b f).noc = d.noc := rfl
@[simp] theorem Dev.updBank_fab (d : Dev) (b : Nat) (f : NvBank → NvBank) : (d.updBank b f).fab = d.fab := rfl
@[simp] theorem Dev.updBank_cfg (d : Dev) (b : Nat) (f : NvBank → NvBank) : (d.updBank b f).cfg = d.cfg := rfl
@[simp] theorem Dev.updBank_bst (d : Dev) (b : Nat) (f : NvBank → NvBank) : (d.updBank b f).bst = d.bst := rfl
@[simp] theorem Dev.updBank_lcy (d : Dev) (b : Nat) (f : NvBank → NvBank) : (d.updBank b f).lcy = d.lcy := rfl
@[simp] theorem Dev.updBank_ptr (d : Dev) (b : Nat) (f : NvBank → NvBank) : (d.updBank b f).ptr = d.ptr := rfl
@[simp] theorem Dev.updBank_vmi (d : Dev) (b : Nat) (f : NvBank → NvBank) : (d.updBank b f).vmi = d.vmi := rfl
@[simp] theorem Dev.updBank_tap (d : Dev) (b : Nat) (f : NvBank → NvBank) : (d.updBank b f).tap = d.tap := rfl
@[simp] theorem Dev.updBank_stw (d : Dev) (b : Nat) (f : NvBank → NvBank) : (d.updBank b f).stw = d.stw := rfl
@[simp] theorem Dev.updBank_pin (d : Dev) (b : Nat) (f : NvBank → NvBank) : (d.updBank b f).pin = d.pin := rfl
@[simp] theorem Dev.updBank_rdata (d : Dev) (b : Nat) (f : NvBank → NvBank) : (d.updBank b f).rdata = d.rdata := rfl
@[simp] theorem Dev.updBank_fresh (d : Dev) (b : Nat) (f : NvBank → NvBank) : (d.updBank b f).fresh = d.fresh := rfl
@[simp] theorem Dev.updBank_live (d : Dev) (b : Nat) (f : NvBank → NvBank) : (d.updBank b f).live = d.live := rfl

/-! ## updZone -/

@[simp] theorem Dev.updZone_fuse (d : Dev) (z : Nat) (f : Zone → Zone) : (d.updZone z f).fuse = d.fuse := rfl
@[simp] theorem Dev.updZone_time (d : Dev) (z : Nat) (f : Zone → Zone) : (d.updZone z f).time = d.time := rfl
@[simp] theorem Dev.updZone_mode (d : Dev) (z : Nat) (f : Zone → Zone) : (d.updZone z f).mode = d.mode := rfl
@[simp] theorem Dev.updZone_clk (d : Dev) (z : Nat) (f : Zone → Zone) : (d.updZone z f).clk = d.clk := rfl
@[simp] theorem Dev.updZone_evt (d : Dev) (z : Nat) (f : Zone → Zone) : (d.updZone z f).evt = d.evt := rfl
@[simp] theorem Dev.updZone_log (d : Dev) (z : Nat) (f : Zone → Zone) : (d.updZone z f).log = d.log := rfl
@[simp] theorem Dev.updZone_cmd (d : Dev) (z : Nat) (f : Zone → Zone) : (d.updZone z f).cmd = d.cmd := rfl
@[simp] theorem Dev.updZone_eng (d : Dev) (z : Nat) (f : Zone → Zone) : (d.updZone z f).eng = d.eng := rfl
@[simp] theorem Dev.updZone_tim (d : Dev) (z : Nat) (f : Zone → Zone) : (d.updZone z f).tim = d.tim := rfl
@[simp] theorem Dev.updZone_cal (d : Dev) (z : Nat) (f : Zone → Zone) : (d.updZone z f).cal = d.cal := rfl
@[simp] theorem Dev.updZone_fcp (d : Dev) (z : Nat) (f : Zone → Zone) : (d.updZone z f).fcp = d.fcp := rfl
@[simp] theorem Dev.updZone_rae (d : Dev) (z : Nat) (f : Zone → Zone) : (d.updZone z f).rae = d.rae := rfl
@[simp] theorem Dev.updZone_txn (d : Dev) (z : Nat) (f : Zone → Zone) : (d.updZone z f).txn = d.txn := rfl
@[simp] theorem Dev.updZone_byt (d : Dev) (z : Nat) (f : Zone → Zone) : (d.updZone z f).byt = d.byt := rfl
@[simp] theorem Dev.updZone_pwr (d : Dev) (z : Nat) (f : Zone → Zone) : (d.updZone z f).pwr = d.pwr := rfl
@[simp] theorem Dev.updZone_noc (d : Dev) (z : Nat) (f : Zone → Zone) : (d.updZone z f).noc = d.noc := rfl
@[simp] theorem Dev.updZone_fab (d : Dev) (z : Nat) (f : Zone → Zone) : (d.updZone z f).fab = d.fab := rfl
@[simp] theorem Dev.updZone_cfg (d : Dev) (z : Nat) (f : Zone → Zone) : (d.updZone z f).cfg = d.cfg := rfl
@[simp] theorem Dev.updZone_bst (d : Dev) (z : Nat) (f : Zone → Zone) : (d.updZone z f).bst = d.bst := rfl
@[simp] theorem Dev.updZone_lcy (d : Dev) (z : Nat) (f : Zone → Zone) : (d.updZone z f).lcy = d.lcy := rfl
@[simp] theorem Dev.updZone_ptr (d : Dev) (z : Nat) (f : Zone → Zone) : (d.updZone z f).ptr = d.ptr := rfl
@[simp] theorem Dev.updZone_vmi (d : Dev) (z : Nat) (f : Zone → Zone) : (d.updZone z f).vmi = d.vmi := rfl
@[simp] theorem Dev.updZone_tap (d : Dev) (z : Nat) (f : Zone → Zone) : (d.updZone z f).tap = d.tap := rfl
@[simp] theorem Dev.updZone_stw (d : Dev) (z : Nat) (f : Zone → Zone) : (d.updZone z f).stw = d.stw := rfl
@[simp] theorem Dev.updZone_pin (d : Dev) (z : Nat) (f : Zone → Zone) : (d.updZone z f).pin = d.pin := rfl
@[simp] theorem Dev.updZone_rdata (d : Dev) (z : Nat) (f : Zone → Zone) : (d.updZone z f).rdata = d.rdata := rfl
@[simp] theorem Dev.updZone_fresh (d : Dev) (z : Nat) (f : Zone → Zone) : (d.updZone z f).fresh = d.fresh := rfl
@[simp] theorem Dev.updZone_live (d : Dev) (z : Nat) (f : Zone → Zone) : (d.updZone z f).live = d.live := rfl

/-! ## setPtr -/

@[simp] theorem Dev.setPtr_fuse (d : Dev) (i : Nat) (x : PtrEnt) : (d.setPtr i x).fuse = d.fuse := rfl
@[simp] theorem Dev.setPtr_time (d : Dev) (i : Nat) (x : PtrEnt) : (d.setPtr i x).time = d.time := rfl
@[simp] theorem Dev.setPtr_mode (d : Dev) (i : Nat) (x : PtrEnt) : (d.setPtr i x).mode = d.mode := rfl
@[simp] theorem Dev.setPtr_clk (d : Dev) (i : Nat) (x : PtrEnt) : (d.setPtr i x).clk = d.clk := rfl
@[simp] theorem Dev.setPtr_evt (d : Dev) (i : Nat) (x : PtrEnt) : (d.setPtr i x).evt = d.evt := rfl
@[simp] theorem Dev.setPtr_log (d : Dev) (i : Nat) (x : PtrEnt) : (d.setPtr i x).log = d.log := rfl
@[simp] theorem Dev.setPtr_cmd (d : Dev) (i : Nat) (x : PtrEnt) : (d.setPtr i x).cmd = d.cmd := rfl
@[simp] theorem Dev.setPtr_eng (d : Dev) (i : Nat) (x : PtrEnt) : (d.setPtr i x).eng = d.eng := rfl
@[simp] theorem Dev.setPtr_tim (d : Dev) (i : Nat) (x : PtrEnt) : (d.setPtr i x).tim = d.tim := rfl
@[simp] theorem Dev.setPtr_cal (d : Dev) (i : Nat) (x : PtrEnt) : (d.setPtr i x).cal = d.cal := rfl
@[simp] theorem Dev.setPtr_fcp (d : Dev) (i : Nat) (x : PtrEnt) : (d.setPtr i x).fcp = d.fcp := rfl
@[simp] theorem Dev.setPtr_rae (d : Dev) (i : Nat) (x : PtrEnt) : (d.setPtr i x).rae = d.rae := rfl
@[simp] theorem Dev.setPtr_txn (d : Dev) (i : Nat) (x : PtrEnt) : (d.setPtr i x).txn = d.txn := rfl
@[simp] theorem Dev.setPtr_byt (d : Dev) (i : Nat) (x : PtrEnt) : (d.setPtr i x).byt = d.byt := rfl
@[simp] theorem Dev.setPtr_pwr (d : Dev) (i : Nat) (x : PtrEnt) : (d.setPtr i x).pwr = d.pwr := rfl
@[simp] theorem Dev.setPtr_noc (d : Dev) (i : Nat) (x : PtrEnt) : (d.setPtr i x).noc = d.noc := rfl
@[simp] theorem Dev.setPtr_nvs (d : Dev) (i : Nat) (x : PtrEnt) : (d.setPtr i x).nvs = d.nvs := rfl
@[simp] theorem Dev.setPtr_fab (d : Dev) (i : Nat) (x : PtrEnt) : (d.setPtr i x).fab = d.fab := rfl
@[simp] theorem Dev.setPtr_cfg (d : Dev) (i : Nat) (x : PtrEnt) : (d.setPtr i x).cfg = d.cfg := rfl
@[simp] theorem Dev.setPtr_bst (d : Dev) (i : Nat) (x : PtrEnt) : (d.setPtr i x).bst = d.bst := rfl
@[simp] theorem Dev.setPtr_lcy (d : Dev) (i : Nat) (x : PtrEnt) : (d.setPtr i x).lcy = d.lcy := rfl
@[simp] theorem Dev.setPtr_vmi (d : Dev) (i : Nat) (x : PtrEnt) : (d.setPtr i x).vmi = d.vmi := rfl
@[simp] theorem Dev.setPtr_tap (d : Dev) (i : Nat) (x : PtrEnt) : (d.setPtr i x).tap = d.tap := rfl
@[simp] theorem Dev.setPtr_stw (d : Dev) (i : Nat) (x : PtrEnt) : (d.setPtr i x).stw = d.stw := rfl
@[simp] theorem Dev.setPtr_pin (d : Dev) (i : Nat) (x : PtrEnt) : (d.setPtr i x).pin = d.pin := rfl
@[simp] theorem Dev.setPtr_rdata (d : Dev) (i : Nat) (x : PtrEnt) : (d.setPtr i x).rdata = d.rdata := rfl
@[simp] theorem Dev.setPtr_fresh (d : Dev) (i : Nat) (x : PtrEnt) : (d.setPtr i x).fresh = d.fresh := rfl
@[simp] theorem Dev.setPtr_live (d : Dev) (i : Nat) (x : PtrEnt) : (d.setPtr i x).live = d.live := rfl

/-! ## setArm -/

@[simp] theorem Dev.setArm_fuse (d : Dev) (q : Nat) (a : Option CapArm) : (d.setArm q a).fuse = d.fuse := rfl
@[simp] theorem Dev.setArm_time (d : Dev) (q : Nat) (a : Option CapArm) : (d.setArm q a).time = d.time := rfl
@[simp] theorem Dev.setArm_mode (d : Dev) (q : Nat) (a : Option CapArm) : (d.setArm q a).mode = d.mode := rfl
@[simp] theorem Dev.setArm_clk (d : Dev) (q : Nat) (a : Option CapArm) : (d.setArm q a).clk = d.clk := rfl
@[simp] theorem Dev.setArm_evt (d : Dev) (q : Nat) (a : Option CapArm) : (d.setArm q a).evt = d.evt := rfl
@[simp] theorem Dev.setArm_log (d : Dev) (q : Nat) (a : Option CapArm) : (d.setArm q a).log = d.log := rfl
@[simp] theorem Dev.setArm_cmd (d : Dev) (q : Nat) (a : Option CapArm) : (d.setArm q a).cmd = d.cmd := rfl
@[simp] theorem Dev.setArm_eng (d : Dev) (q : Nat) (a : Option CapArm) : (d.setArm q a).eng = d.eng := rfl
@[simp] theorem Dev.setArm_tim (d : Dev) (q : Nat) (a : Option CapArm) : (d.setArm q a).tim = d.tim := rfl
@[simp] theorem Dev.setArm_fcp (d : Dev) (q : Nat) (a : Option CapArm) : (d.setArm q a).fcp = d.fcp := rfl
@[simp] theorem Dev.setArm_rae (d : Dev) (q : Nat) (a : Option CapArm) : (d.setArm q a).rae = d.rae := rfl
@[simp] theorem Dev.setArm_txn (d : Dev) (q : Nat) (a : Option CapArm) : (d.setArm q a).txn = d.txn := rfl
@[simp] theorem Dev.setArm_byt (d : Dev) (q : Nat) (a : Option CapArm) : (d.setArm q a).byt = d.byt := rfl
@[simp] theorem Dev.setArm_pwr (d : Dev) (q : Nat) (a : Option CapArm) : (d.setArm q a).pwr = d.pwr := rfl
@[simp] theorem Dev.setArm_noc (d : Dev) (q : Nat) (a : Option CapArm) : (d.setArm q a).noc = d.noc := rfl
@[simp] theorem Dev.setArm_nvs (d : Dev) (q : Nat) (a : Option CapArm) : (d.setArm q a).nvs = d.nvs := rfl
@[simp] theorem Dev.setArm_fab (d : Dev) (q : Nat) (a : Option CapArm) : (d.setArm q a).fab = d.fab := rfl
@[simp] theorem Dev.setArm_cfg (d : Dev) (q : Nat) (a : Option CapArm) : (d.setArm q a).cfg = d.cfg := rfl
@[simp] theorem Dev.setArm_bst (d : Dev) (q : Nat) (a : Option CapArm) : (d.setArm q a).bst = d.bst := rfl
@[simp] theorem Dev.setArm_lcy (d : Dev) (q : Nat) (a : Option CapArm) : (d.setArm q a).lcy = d.lcy := rfl
@[simp] theorem Dev.setArm_ptr (d : Dev) (q : Nat) (a : Option CapArm) : (d.setArm q a).ptr = d.ptr := rfl
@[simp] theorem Dev.setArm_vmi (d : Dev) (q : Nat) (a : Option CapArm) : (d.setArm q a).vmi = d.vmi := rfl
@[simp] theorem Dev.setArm_tap (d : Dev) (q : Nat) (a : Option CapArm) : (d.setArm q a).tap = d.tap := rfl
@[simp] theorem Dev.setArm_stw (d : Dev) (q : Nat) (a : Option CapArm) : (d.setArm q a).stw = d.stw := rfl
@[simp] theorem Dev.setArm_pin (d : Dev) (q : Nat) (a : Option CapArm) : (d.setArm q a).pin = d.pin := rfl
@[simp] theorem Dev.setArm_rdata (d : Dev) (q : Nat) (a : Option CapArm) : (d.setArm q a).rdata = d.rdata := rfl
@[simp] theorem Dev.setArm_fresh (d : Dev) (q : Nat) (a : Option CapArm) : (d.setArm q a).fresh = d.fresh := rfl
@[simp] theorem Dev.setArm_live (d : Dev) (q : Nat) (a : Option CapArm) : (d.setArm q a).live = d.live := rfl

/-! ## updTest -/

@[simp] theorem Dev.updTest_fuse (d : Dev) (n : Nat) (f : BstTest → BstTest) : (d.updTest n f).fuse = d.fuse := rfl
@[simp] theorem Dev.updTest_time (d : Dev) (n : Nat) (f : BstTest → BstTest) : (d.updTest n f).time = d.time := rfl
@[simp] theorem Dev.updTest_mode (d : Dev) (n : Nat) (f : BstTest → BstTest) : (d.updTest n f).mode = d.mode := rfl
@[simp] theorem Dev.updTest_clk (d : Dev) (n : Nat) (f : BstTest → BstTest) : (d.updTest n f).clk = d.clk := rfl
@[simp] theorem Dev.updTest_evt (d : Dev) (n : Nat) (f : BstTest → BstTest) : (d.updTest n f).evt = d.evt := rfl
@[simp] theorem Dev.updTest_log (d : Dev) (n : Nat) (f : BstTest → BstTest) : (d.updTest n f).log = d.log := rfl
@[simp] theorem Dev.updTest_cmd (d : Dev) (n : Nat) (f : BstTest → BstTest) : (d.updTest n f).cmd = d.cmd := rfl
@[simp] theorem Dev.updTest_eng (d : Dev) (n : Nat) (f : BstTest → BstTest) : (d.updTest n f).eng = d.eng := rfl
@[simp] theorem Dev.updTest_tim (d : Dev) (n : Nat) (f : BstTest → BstTest) : (d.updTest n f).tim = d.tim := rfl
@[simp] theorem Dev.updTest_cal (d : Dev) (n : Nat) (f : BstTest → BstTest) : (d.updTest n f).cal = d.cal := rfl
@[simp] theorem Dev.updTest_fcp (d : Dev) (n : Nat) (f : BstTest → BstTest) : (d.updTest n f).fcp = d.fcp := rfl
@[simp] theorem Dev.updTest_rae (d : Dev) (n : Nat) (f : BstTest → BstTest) : (d.updTest n f).rae = d.rae := rfl
@[simp] theorem Dev.updTest_txn (d : Dev) (n : Nat) (f : BstTest → BstTest) : (d.updTest n f).txn = d.txn := rfl
@[simp] theorem Dev.updTest_byt (d : Dev) (n : Nat) (f : BstTest → BstTest) : (d.updTest n f).byt = d.byt := rfl
@[simp] theorem Dev.updTest_pwr (d : Dev) (n : Nat) (f : BstTest → BstTest) : (d.updTest n f).pwr = d.pwr := rfl
@[simp] theorem Dev.updTest_noc (d : Dev) (n : Nat) (f : BstTest → BstTest) : (d.updTest n f).noc = d.noc := rfl
@[simp] theorem Dev.updTest_nvs (d : Dev) (n : Nat) (f : BstTest → BstTest) : (d.updTest n f).nvs = d.nvs := rfl
@[simp] theorem Dev.updTest_fab (d : Dev) (n : Nat) (f : BstTest → BstTest) : (d.updTest n f).fab = d.fab := rfl
@[simp] theorem Dev.updTest_cfg (d : Dev) (n : Nat) (f : BstTest → BstTest) : (d.updTest n f).cfg = d.cfg := rfl
@[simp] theorem Dev.updTest_lcy (d : Dev) (n : Nat) (f : BstTest → BstTest) : (d.updTest n f).lcy = d.lcy := rfl
@[simp] theorem Dev.updTest_ptr (d : Dev) (n : Nat) (f : BstTest → BstTest) : (d.updTest n f).ptr = d.ptr := rfl
@[simp] theorem Dev.updTest_vmi (d : Dev) (n : Nat) (f : BstTest → BstTest) : (d.updTest n f).vmi = d.vmi := rfl
@[simp] theorem Dev.updTest_tap (d : Dev) (n : Nat) (f : BstTest → BstTest) : (d.updTest n f).tap = d.tap := rfl
@[simp] theorem Dev.updTest_stw (d : Dev) (n : Nat) (f : BstTest → BstTest) : (d.updTest n f).stw = d.stw := rfl
@[simp] theorem Dev.updTest_pin (d : Dev) (n : Nat) (f : BstTest → BstTest) : (d.updTest n f).pin = d.pin := rfl
@[simp] theorem Dev.updTest_rdata (d : Dev) (n : Nat) (f : BstTest → BstTest) : (d.updTest n f).rdata = d.rdata := rfl
@[simp] theorem Dev.updTest_fresh (d : Dev) (n : Nat) (f : BstTest → BstTest) : (d.updTest n f).fresh = d.fresh := rfl
@[simp] theorem Dev.updTest_live (d : Dev) (n : Nat) (f : BstTest → BstTest) : (d.updTest n f).live = d.live := rfl

/-! ## Reads after writes -/

@[simp] theorem Dev.updStream_stream_self (d : Dev) (n : Nat) (f : Stream → Stream) : (d.updStream n f).stream n = f (d.stream n) := Store.get_put_self ..
theorem Dev.updStream_stream_of_ne (d : Dev) (n : Nat) (f : Stream → Stream) {j : Nat} (h : n ≠ j) : (d.updStream n f).stream j = d.stream j :=
  Store.get_put_of_ne _ _ _ _ _ h
@[simp] theorem Dev.updFabRegion_fabRegion_self (d : Dev) (n : Nat) (f : FabRegion → FabRegion) : (d.updFabRegion n f).fabRegion n = f (d.fabRegion n) := Store.get_put_self ..
theorem Dev.updFabRegion_fabRegion_of_ne (d : Dev) (n : Nat) (f : FabRegion → FabRegion) {j : Nat} (h : n ≠ j) : (d.updFabRegion n f).fabRegion j = d.fabRegion j :=
  Store.get_put_of_ne _ _ _ _ _ h
@[simp] theorem Dev.updLogBlk_logBlk_self (d : Dev) (n : Nat) (f : LogBlk → LogBlk) : (d.updLogBlk n f).logBlk n = f (d.logBlk n) := Store.get_put_self ..
theorem Dev.updLogBlk_logBlk_of_ne (d : Dev) (n : Nat) (f : LogBlk → LogBlk) {j : Nat} (h : n ≠ j) : (d.updLogBlk n f).logBlk j = d.logBlk j :=
  Store.get_put_of_ne _ _ _ _ _ h
@[simp] theorem Dev.setTag_tagSt_self (d : Dev) (n : Nat) (x : TagSt) : (d.setTag n x).tagSt n = x := Store.get_put_self ..
theorem Dev.setTag_tagSt_of_ne (d : Dev) (n : Nat) (x : TagSt) {j : Nat} (h : n ≠ j) : (d.setTag n x).tagSt j = d.tagSt j :=
  Store.get_put_of_ne _ _ _ _ _ h
@[simp] theorem Dev.updBank_nvBank_self (d : Dev) (n : Nat) (f : NvBank → NvBank) : (d.updBank n f).nvBank n = f (d.nvBank n) := Store.get_put_self ..
theorem Dev.updBank_nvBank_of_ne (d : Dev) (n : Nat) (f : NvBank → NvBank) {j : Nat} (h : n ≠ j) : (d.updBank n f).nvBank j = d.nvBank j :=
  Store.get_put_of_ne _ _ _ _ _ h
@[simp] theorem Dev.updZone_zone_self (d : Dev) (n : Nat) (f : Zone → Zone) : (d.updZone n f).zone n = f (d.zone n) := Store.get_put_self ..
theorem Dev.updZone_zone_of_ne (d : Dev) (n : Nat) (f : Zone → Zone) {j : Nat} (h : n ≠ j) : (d.updZone n f).zone j = d.zone j :=
  Store.get_put_of_ne _ _ _ _ _ h
@[simp] theorem Dev.setPtr_ptrEnt_self (d : Dev) (n : Nat) (x : PtrEnt) : (d.setPtr n x).ptrEnt n = x := Store.get_put_self ..
theorem Dev.setPtr_ptrEnt_of_ne (d : Dev) (n : Nat) (x : PtrEnt) {j : Nat} (h : n ≠ j) : (d.setPtr n x).ptrEnt j = d.ptrEnt j :=
  Store.get_put_of_ne _ _ _ _ _ h
@[simp] theorem Dev.setArm_arm_self (d : Dev) (n : Nat) (x : Option CapArm) : (d.setArm n x).arm n = x := Store.get_put_self ..
theorem Dev.setArm_arm_of_ne (d : Dev) (n : Nat) (x : Option CapArm) {j : Nat} (h : n ≠ j) : (d.setArm n x).arm j = d.arm j :=
  Store.get_put_of_ne _ _ _ _ _ h

/-! ## The buffers of the Steward core -/

@[simp] theorem NvsState.dropLines_words (n : NvsState) (p : Nat → Bool) : (n.dropLines p).words = n.words := rfl
@[simp] theorem NvsState.dropLines_lost (n : NvsState) (p : Nat → Bool) : (n.dropLines p).lost = n.lost := rfl
@[simp] theorem NvsState.dropLines_row (n : NvsState) (p : Nat → Bool) : (n.dropLines p).row = n.row := rfl
@[simp] theorem NvsState.dropLines_rowLost (n : NvsState) (p : Nat → Bool) : (n.dropLines p).rowLost = n.rowLost := rfl
@[simp] theorem NvsState.dropLines_seq (n : NvsState) (p : Nat → Bool) : (n.dropLines p).seq = n.seq := rfl
@[simp] theorem NvsState.dropLines_seqErr (n : NvsState) (p : Nat → Bool) : (n.dropLines p).seqErr = n.seqErr := rfl
@[simp] theorem NvsState.dropLines_werr (n : NvsState) (p : Nat → Bool) : (n.dropLines p).werr = n.werr := rfl
@[simp] theorem NvsState.dropLines_lstatus (n : NvsState) (p : Nat → Bool) : (n.dropLines p).lstatus = n.lstatus := rfl
@[simp] theorem NvsState.dropLines_autosusp (n : NvsState) (p : Nat → Bool) : (n.dropLines p).autosusp = n.autosusp := rfl
@[simp] theorem NvsState.dropLines_xip (n : NvsState) (p : Nat → Bool) : (n.dropLines p).xip = n.xip := rfl
@[simp] theorem NvsState.dropLines_ethr (n : NvsState) (p : Nat → Bool) : (n.dropLines p).ethr = n.ethr := rfl
@[simp] theorem NvsState.dropLines_ewarn (n : NvsState) (p : Nat → Bool) : (n.dropLines p).ewarn = n.ewarn := rfl
@[simp] theorem NvsState.dropLines_bank (n : NvsState) (p : Nat → Bool) : (n.dropLines p).bank = n.bank := rfl
@[simp] theorem NvsState.dropLines_rdstat (n : NvsState) (p : Nat → Bool) : (n.dropLines p).rdstat = n.rdstat := rfl
@[simp] theorem NvsState.dropLines_zone (n : NvsState) (p : Nat → Bool) : (n.dropLines p).zone = n.zone := rfl
@[simp] theorem NvsState.dropLines_ecnt (n : NvsState) (p : Nat → Bool) : (n.dropLines p).ecnt = n.ecnt := rfl
@[simp] theorem NvsState.dropLines_earlyAt (n : NvsState) (p : Nat → Bool) : (n.dropLines p).earlyAt = n.earlyAt := rfl
@[simp] theorem NvsState.dropLines_jobs (n : NvsState) (p : Nat → Bool) : (n.dropLines p).jobs = n.jobs := rfl
@[simp] theorem NvsState.dropLines_waiting (n : NvsState) (p : Nat → Bool) : (n.dropLines p).waiting = n.waiting := rfl
@[simp] theorem NvsState.dropLines_lastSrc (n : NvsState) (p : Nat → Bool) : (n.dropLines p).lastSrc = n.lastSrc := rfl
@[simp] theorem NvsState.dropLines_coreLine (n : NvsState) (p : Nat → Bool) : (n.dropLines p).coreLine = n.coreLine := rfl
theorem NvsState.mem_dropLines_prefetch (n : NvsState) (p : Nat → Bool) (b : NvBuf) :
    b ∈ (n.dropLines p).prefetch ↔ b ∈ n.prefetch ∧ p b.line = false := by simp [NvsState.dropLines]
theorem NvsState.mem_dropLines_branch (n : NvsState) (p : Nat → Bool) (b : NvBuf) :
    b ∈ (n.dropLines p).branch ↔ b ∈ n.branch ∧ p b.line = false := by simp [NvsState.dropLines]
/-- Every initiator but the Steward core senses the array. -/
theorem Dev.senseWord_of_ne (d : Dev) {src : Nat} (h : src ≠ 1) (i : Nat) : d.senseWord src i = d.senseCell (d.nvCell i) := by
  simp [Dev.senseWord, h]
/-- A line that is fetched into a buffer is the one asked for, and a fetch changes free values alone. -/
theorem Dev.fetchLine_spec (d : Dev) (l : Nat) : (∃ n, (d.fetchLine l).1 = { d with fresh := n }) ∧ ∀ b ∈ (d.fetchLine l).2, b.line = l := by
  unfold Dev.fetchLine
  split
  · rename_i x hx
    have h := List.find?_some hx
    exact ⟨⟨d.fresh, rfl⟩, by simpa using h⟩
  · dsimp only
    split
    · exact ⟨⟨d.fresh, rfl⟩, by simp⟩
    · refine ⟨?_, by simp⟩
      have sense : ∀ (d : Dev) (x : NvCell), ∃ n, (d.senseCell x).1 = { d with fresh := n } := by
        intro d x
        cases x <;> simp only [Dev.senseCell]
        · exact ⟨d.fresh, rfl⟩
        · exact ⟨d.fresh, rfl⟩
        · split <;> exact ⟨d.fresh + 1, rfl⟩
      obtain ⟨n, hn⟩ := sense d (d.nvCell (2 * l))
      obtain ⟨m, hm⟩ := sense (d.senseCell (d.nvCell (2 * l))).1 ((d.senseCell (d.nvCell (2 * l))).1.nvCell (2 * l + 1))
      exact ⟨m, by dsimp only; rw [hm, hn]⟩

/-- Lines that are fetched are among those asked for, and a fetch changes free values alone. -/
theorem Dev.fetchLines_spec (l : List Nat) (d : Dev) : (∃ n, (Dev.fetchLines l d).1 = { d with fresh := n }) ∧ ∀ b ∈ (Dev.fetchLines l d).2, b.line ∈ l := by
  induction l generalizing d with
  | nil => exact ⟨⟨d.fresh, rfl⟩, by simp [Dev.fetchLines]⟩
  | cons x l ih =>
    obtain ⟨⟨n, hn⟩, h⟩ := d.fetchLine_spec x
    obtain ⟨⟨m, hm⟩, h'⟩ := ih (d.fetchLine x).1
    refine ⟨⟨m, by simp only [Dev.fetchLines]; rw [hm, hn]⟩, ?_⟩
    intro b hb
    simp only [Dev.fetchLines, List.mem_append] at hb
    rcases hb with hb | hb
    · simp [h b hb]
    · exact List.mem_cons_of_mem _ (h' b hb)
/-- Everything that a read of a line by the Steward core does to its buffers. -/
theorem Dev.keepLine_spec (d : Dev) (line : Nat) :
    let x := d.keepLine line
    let bank := d.nvBank (bankOf (line / 2048))
    x.nvs.coreLine = some line ∧ x.nvs.words = d.nvs.words ∧ x.nvs.bank = d.nvs.bank ∧ x.eng = d.eng ∧
      (d.nvs.coreLine = some line → x.nvs.prefetch = d.nvs.prefetch ∧ x.nvs.branch = d.nvs.branch) ∧
      (∀ m, line = m + 1 → d.nvs.coreLine = some m → x.nvs.branch = d.nvs.branch ∧
        ∀ b ∈ x.nvs.prefetch, line ≤ b.line ∧ b.line ≤ line + 3) ∧
      (d.nvs.coreLine ≠ some line → (∀ m, line = m + 1 → d.nvs.coreLine ≠ some m) → x.nvs.prefetch = d.nvs.prefetch ∧
        x.nvs.branch.length ≤ max 32 d.nvs.branch.length ∧
        (bank.readable = true → bank.suspended (line / 2048) = false → line < 2 ^ 21 →
          x.nvs.branch.head?.map (·.line) = some line)) := by
  intro x bank
  simp only [x, Dev.keepLine]
  split
  · rename_i h
    refine ⟨h, rfl, rfl, rfl, by simp, ?_, by simp [h]⟩
    intro m hm h'; rw [h] at h'; simp at h'; omega
  · rename_i h0
    split
    · rename_i h
      simp at h
      obtain ⟨⟨n, hn⟩, hm⟩ := Dev.fetchLines_spec [line, line + 1, line + 2, line + 3] { d with nvs := { d.nvs with coreLine := some line } }
      dsimp only
      rw [hn]
      refine ⟨rfl, rfl, rfl, rfl, by simp [h0], ?_, ?_⟩
      · intro m _ _
        refine ⟨rfl, fun b hb => ?_⟩
        have := hm b hb
        simp at this; omega
      · intro _ h2
        exact absurd h.1 (h2 (line - 1) (by omega))
    · rename_i h
      simp at h
      obtain ⟨⟨n, hn⟩, hm⟩ := Dev.fetchLine_spec { d with nvs := { d.nvs with coreLine := some line } } line
      dsimp only
      rw [hn]
      refine ⟨rfl, rfl, rfl, rfl, by simp [h0], ?_, ?_⟩
      · intro m e h'
        subst e
        exact absurd h' (by intro h'; have := h (by simpa using h'); omega)
      · intro _ _
        refine ⟨rfl, by simp <;> omega, ?_⟩
        intro h1 h2 h3
        simp only [bank] at h1 h2
        have : ∃ b, (Dev.fetchLine { d with nvs := { d.nvs with coreLine := some line } } line).2 = [b] := by
          unfold Dev.fetchLine
          dsimp only
          have e : ({ d with nvs := { d.nvs with coreLine := some line } } : Dev).nvBank (bankOf (line / 2048)) = d.nvBank (bankOf (line / 2048)) := rfl
          rw [e]
          split
          · exact ⟨_, rfl⟩
          · rw [h1, h2]
            rw [if_neg (by simp; omega)]
            exact ⟨_, rfl⟩
        obtain ⟨b, hb⟩ := this
        have hl := hm b (by rw [hb]; simp)
        rw [hb]
        simp [hl]

/-- A cell of the array is read as it was written, once it is no longer erased. -/
theorem Dev.setCell_nvCell_self (d : Dev) (i : Nat) (w : QWord) (c : BitVec 4) :
    (d.setCell false i (.data w c)).nvCell i = .data w c := by
  simp [Dev.setCell, Dev.nvCell, Store.get_put_self]
theorem Dev.setCell_nvCell_of_ne (d : Dev) (x : NvCell) {i j : Nat} (h : i ≠ j) : (d.setCell false i x).nvCell j = d.nvCell j := by
  simp [Dev.setCell, Dev.nvCell, Store.get_put_of_ne _ _ _ _ _ h]

end Sys2Proof.Machine
end

