-- ==== Sys2Proof/Laws/Yunor.lean ====
section
/-! SUPPORT. What the issue of an instruction comes to. -/

namespace Sys2Proof.Machine

/-! ## What a window and the decisions leave of an engine -/

/-- The fetch unit's step past a window changes the next fetch and slot alone. -/
theorem Engine.cross_eq (e : Engine) (t : Nat) :
    ∃ i k l, e.cross t = { e with issueAt := i, slotAt := k, late := l } := by
  unfold Engine.cross
  split
  · exact ⟨_, _, _, rfl⟩
  · dsimp only
    split
    · exact ⟨_, _, _, rfl⟩
    · exact ⟨_, _, _, rfl⟩

@[simp] theorem Engine.cross_of_not_late (e : Engine) (t : Nat) (h : e.late = none) : e.cross t = e := by
  simp [Engine.cross, h]

/-- Decisions that act change FAIL and FSTK: of the registers, of the checkpoint, and of what vectors in flight leave. -/
def Engine.judged (e x : Engine) : Prop :=
  ∃ f g fl ds, x = { e with a := { e.a with flags := f }, ckpt := { e.ckpt with flags := g }, flight := fl, decisions := ds }

theorem Engine.settle_judged (e : Engine) (t : Nat) : e.judged (e.settle t) := by
  suffices h : ∀ (l : List Decision) (e : Engine), e.judged (l.foldl Engine.applyDecision e) by
    obtain ⟨f, g, fl, ds, h⟩ := h (e.decisions.filter fun x => x.arrives ≤ t) e
    exact ⟨f, g, fl, _, by rw [Engine.settle, h]⟩
  have hj : ∀ (a : Arch) (b : Bool), ∃ f, a.judge b = { a with flags := f } := by
    intro a b
    cases b <;> exact ⟨_, rfl⟩
  intro l
  induction l with
  | nil => intro e; exact ⟨_, _, _, _, rfl⟩
  | cons y r ih =>
    intro e
    obtain ⟨f, hf⟩ := hj e.a y.fail
    obtain ⟨g, hg⟩ := hj e.ckpt y.fail
    obtain ⟨f', g', fl', ds', h⟩ := ih (e.applyDecision y)
    rw [List.foldl_cons, h]
    refine ⟨f', g', fl', ds', ?_⟩
    simp [Engine.applyDecision, Engine.mapArch, hf, hg]

@[simp] theorem Engine.settle_issueAt (e : Engine) (t : Nat) : (e.settle t).issueAt = e.issueAt := by
  obtain ⟨_, _, _, _, h⟩ := e.settle_judged t; rw [h]
@[simp] theorem Engine.settle_slotAt (e : Engine) (t : Nat) : (e.settle t).slotAt = e.slotAt := by
  obtain ⟨_, _, _, _, h⟩ := e.settle_judged t; rw [h]
@[simp] theorem Engine.settle_late (e : Engine) (t : Nat) : (e.settle t).late = e.late := by
  obtain ⟨_, _, _, _, h⟩ := e.settle_judged t; rw [h]

/-- What an engine about to issue holds: its own state, but for FAIL and FSTK and the ECLKs of its next fetch and slot. -/
theorem State.issuer_eq (s : State) (n : Nat) :
    ∃ f g fl ds i k l, s.issuer n = { s.dev.engine n with
      a := { (s.dev.engine n).a with flags := f }, ckpt := { (s.dev.engine n).ckpt with flags := g }
      flight := fl, decisions := ds, issueAt := i, slotAt := k, late := l } := by
  obtain ⟨i, k, l, h⟩ := Engine.cross_eq (s.dev.engine n) (s.dev.engine n).issueAt
  obtain ⟨f, g, fl, ds, h'⟩ := Engine.settle_judged ((s.dev.engine n).cross (s.dev.engine n).issueAt)
    ((s.dev.engine n).cross (s.dev.engine n).issueAt).issueAt
  refine ⟨f, g, fl, ds, i, k, l, ?_⟩
  simp only [State.issuer]
  rw [h', h]

/-! ## Issue -/

/-- An instruction that an engine is about to issue runs on the device in which the decisions that have arrived acted. -/
theorem State.Issues.issue {s : State} {n : Nat} {w : DWord} (h : s.Issues n w) (p : DWord → Bool)
    (f : DWord → Dev → Dev) (hp : p w = true) : s.dev.issue n p f = f w (s.dev.setEngine n (s.issuer n)) := by
  obtain ⟨_, h2, h3, h4, h5, h6⟩ := h
  obtain ⟨i, k, l, hc⟩ := Engine.cross_eq (s.dev.engine n) (s.dev.engine n).issueAt
  have hw : ((s.dev.engine n).cross (s.dev.engine n).issueAt).fetch (s.dev.engine n).a.pc = w := by rw [hc]; exact h5
  have ha : ((s.dev.engine n).cross (s.dev.engine n).issueAt).a = (s.dev.engine n).a := by rw [hc]
  have hg : ¬ (((s.dev.engine n).cross (s.dev.engine n).issueAt).st ≠ .run ||
      !((s.dev.engine n).cross (s.dev.engine n).issueAt).stops.isEmpty ||
      ((s.dev.engine n).cross (s.dev.engine n).issueAt).await.isSome) = true := by
    rw [hc]; simp [h2, h3, h4]
  simp only [Dev.issue, State.issuer]
  rw [if_neg hg]
  simp only [hw, hp, ha, h6, Bool.not_true, Bool.false_eq_true, if_false]

theorem State.Issues.onDev {s : State} {n : Nat} {w : DWord} (h : s.Issues n w) (p : DWord → Bool)
    (f : DWord → Dev → Dev) (hp : p w = true) :
    s.onDev (fun _ d => d.issue n p f) = .next { s with dev := f w (s.dev.setEngine n (s.issuer n)) } := by
  rw [State.onDev_live s _ h.live, h.issue p f hp]

/-- Decisions that acted do not act again. -/
@[simp] theorem Engine.settle_settle (e : Engine) (t : Nat) : (e.settle t).settle t = e.settle t := by
  have h : (e.settle t).decisions.filter (fun x => x.arrives ≤ t) = [] := by
    simp [Engine.settle, List.filter_eq_nil_iff]
  have h' : (e.settle t).decisions.filter (fun x => !decide (x.arrives ≤ t)) = (e.settle t).decisions := by
    simp [Engine.settle, List.filter_filter]
  rw [Engine.settle, h, h']
  rfl

/-- A vector that an engine fetches, in the terms of the statements. -/
theorem State.fetches_eq (s : State) (n ts : Nat) (pre : Arch) (gen : Option DWord) (sa sb : BitVec 4) (stb : Strobe) (e : Engine) :
    (s.dev.setEngine n e).emit n ts pre gen sa sb stb = s.fetches n ts pre gen sa sb stb e := by
  simp only [Dev.emit, State.fetches, Dev.setEngine_engine_self, Dev.setEngine_setEngine]

/-- A plain instruction ends with its own effect, and then a pass of a match loop ends where it stands at the pass's end. -/
theorem Dev.plain_eq (s : State) (n : Nat) (e : Engine) (f : Engine → Arch) :
    .next { s with dev := (s.dev.setEngine n e).plain n f } = s.ending n (e.onward (f e)) := by
  simp [Dev.plain, Engine.plain, Engine.onward, State.ending]

/-- Outside a match loop a plain instruction ends with its own effect. -/
theorem Dev.plain_of_no_loop (d : Dev) (n : Nat) (e : Engine) (f : Engine → Arch) (h : (f e).mloop = none) :
    (d.setEngine n e).plain n f = d.setEngine n (e.onward (f e)) := by
  simp [Dev.plain, Engine.plain, Dev.mloopEnd, Engine.onward, h]

end Sys2Proof.Machine
end

