-- ==== Sys2Proof/Tests/Slice0.lean ====
section
/-! SUPPORT. The model's own tests: the refusals of WellFormed, and for each statement with hypotheses a witness: a concrete
state and operands that meet them together (`wit_…`), with what the command then does to them. The expected values are the
spec's, worked out by hand from the rule that the statement names. -/

namespace Sys2Proof.Tests

open Sys2Proof.Machine

set_option Elab.async false

/-! ## Helpers -/

/-- The reset state with a change to its device. -/
def st (f : Dev → Dev) : State := { State.reset with dev := f State.reset.dev }
/-- The device after a command. -/
def after (c : Instr) (s : State) : Dev :=
  match exec c s with
  | .next t => t.dev
  | .fault _ => s.dev
  | .refused _ => s.dev
/-- The one-time bits after a command. -/
def otpAfter (c : Instr) (s : State) : Otp :=
  match exec c s with
  | .next t => t.otp
  | .fault _ => s.otp
  | .refused _ => s.otp
/-- Engine `n` is about to issue the legal word `w`. -/
def issues (s : State) (n : Nat) (w : DWord) : Bool :=
  s.dev.live && (s.dev.engine n).st == .run && (s.dev.engine n).stops.isEmpty &&
    (s.dev.engine n).await == none && (s.dev.engine n).fetch (s.dev.engine n).a.pc == w && legal w (s.dev.engine n).a.pc
/-- The checks that precede a command's own let it start. -/
def takes (s : State) (op : Nat) (c : Tci) : Bool :=
  s.dev.live && match tciGate s.otp op c s.dev with
    | .go _ _ => true
    | .wait => false
    | .reject _ _ _ => false
/-- The command is taken and its helper reaches domain `n`. -/
def takesAt (s : State) (n op : Nat) (c : Tci) : Bool := takes s op c && !s.dev.tested n && !(s.dev.domain n).closed
/-- The status of the last completion that waits in queue 0. -/
def status (d : Dev) : Option Status := (d.queue 0).done.getLast?.map (·.status)
/-- Both data words of it. -/
def data (d : Dev) : Option (Word × Word) := (d.queue 0).done.getLast?.map fun x => (x.data0, x.data1)
/-- A command of queue 0. -/
def tci (l : List Word) : Tci := { words := l }
/-- A word from fields: each value with its lowest bit. -/
def w64 (l : List (Nat × Nat)) : DWord := BitVec.ofNat 64 (l.foldl (fun a x => a + x.1 * 2 ^ x.2) 0)
/-- Engine 0 in RUN with the word `w` at address 0 of page 0. -/
def run (w : DWord) (f : Engine → Engine := id) : State :=
  st fun d => d.setEngine 0 (f { d.engine 0 with st := .run, mem := [(0, w)] })

theorem issues_of {s : State} {n : Nat} {w : DWord} (h : issues s n w = true) : s.Issues n w := by
  simp only [issues, Bool.and_eq_true, beq_iff_eq, List.isEmpty_iff] at h
  exact ⟨h.1.1.1.1.1, h.1.1.1.1.2, h.1.1.1.2, h.1.1.2, h.1.2, h.2⟩

theorem takes_of {s : State} {op : Nat} {c : Tci} (h : takes s op c = true) : ∃ o d, s.Accepts op c o d := by
  simp only [takes, Bool.and_eq_true] at h
  obtain ⟨hl, hg⟩ := h
  split at hg
  · exact ⟨_, _, hl, by assumption⟩
  · cases hg
  · cases hg

theorem takesAt_of {s : State} {n op : Nat} {c : Tci} (h : takesAt s n op c = true) : ∃ o d, s.AcceptsAt n op c o d := by
  simp only [takesAt, Bool.and_eq_true, Bool.not_eq_true'] at h
  obtain ⟨o, d, hd⟩ := takes_of h.1.1
  exact ⟨o, d, hd, h.1.2, h.2⟩

/-! ## WellFormed -/

/-- One ill-formed command for each check, and that the check refuses it by its name. -/
theorem test_ill :
    (Instr.sysNop { words := List.replicate 4096 0 }).ill = some .tooManyWords ∧
    (Instr.mark 0 { msg := .ack } 0).ill = some .wrongMessage ∧
    (Instr.read { data := [1] }).ill = some .dataOfBare ∧
    (Instr.write { len := 2, data := [1] }).ill = some .dataLength ∧
    (Instr.nocReservedCmd 0 9 { src := 8 }).ill = some .notReserved ∧
    (Instr.readClear { be := 16 }).ill = some .accessShape ∧
    (Instr.registerWrite { off := 8, size := 8, be := 255, data := [1] }).ill = some .accessData ∧
    (Instr.fatIngest (List.replicate 9 1)).ill = some .collector ∧
    (Instr.zset 0 0 [1, 2, 3]).ill = some .zoneWords ∧
    (Instr.engStateWrite 0 6 0).ill = some .unalignedOffset ∧
    (Instr.lock 0 0 0 0 0 0 0 [1, 2, 3]).ill = some .bandTable ∧
    (Instr.sweepDone [⟨0, 0, 0⟩, ⟨0, 0, 1⟩]).ill = some .sweepTwice ∧
    (Instr.globalNetEdge 0 true [.half 12288 0 true false]).ill = some .noTile ∧
    (Instr.trainingDone 15 17).ill = some .capacity ∧
    (Instr.discovery [{ desc := List.replicate 577 0 }]).ill = some .descriptor := by decide +kernel

/-- More strobe results than a count reaches. -/
theorem test_ill_strobes : (Instr.vec 0 (List.replicate 65537 {})).ill = some .tooManyStrobes := by
  show (if 65536 < (List.replicate 65537 ({} : Strobe)).length then some Ill.tooManyStrobes else none) = _
  rw [List.length_replicate]
  rfl

/-- Well-formed neighbours of them. -/
theorem test_well_formed :
    (Instr.sysEcho (tci [1, 2])).wf = true ∧ (Instr.write { len := 1, data := [1] }).wf = true ∧
    (Instr.nocReservedCmd 0 10 {}).wf = true ∧ (Instr.registerWrite { off := 8, size := 8, be := 255, data := [1, 2] }).wf = true ∧
    (Instr.zset 0 0 [1, 2, 3, 4]).wf = true ∧ (Instr.trainingDone 15 16).wf = true := by decide +kernel

/-- The table gives no row any bits, so no word spells a command (log 15). -/
theorem test_decode : decodeTableWord 16 0 = none ∧ State.reset.withFetchWord 16 0 = State.reset := by decide +kernel

/-! ## The machine -/

/-- A queue of two commands: the first runs, the second waits on; an idle step passes one ECLK. -/
theorem test_step :
    (match step { State.reset with pending := [.tapReset, .lockout] } with
      | .next t => t.pending == [.lockout] && t.dev.tap.ir == 1
      | _ => false) = true ∧
    (match step State.reset with
      | .next t => t.dev.time.eclk == 1
      | _ => false) = true := by decide +kernel

/-- A device without power is not live, and a device event leaves it as it is. -/
theorem wit_InertWithoutPower :
    (st fun d => { d with pin := { d.pin with powered := false } }).dev.live = false ∧
    (st fun d => { d with pin := { d.pin with reset := true } }).dev.live = false ∧
    after (.droop 100) (st fun d => { d with pin := { d.pin with powered := false } }) =
      { State.reset.dev with pin := { State.reset.dev.pin with powered := false } } := by decide +kernel

/-- A blank device has sound one-time programming, and a step of it goes on. -/
theorem wit_OneTimeSound :
    ({ recs := [] } : Otp).Sound ∧ ∃ t, step { State.reset with otp := { recs := [] } } = .next t :=
  ⟨⟨nofun, fun _ => Nat.zero_le _, fun _ => Nat.zero_le _, Nat.zero_le _⟩, _, rfl⟩

/-! ## Yunor instructions -/

/-- A word of each register instruction, written out from its encoding: NOP, LDI G3 ← 7, ALU SUB, ALU CMP, ALUI ADD, XOP INC,
DGOP, MAP 5, MOV, FXFER. -/
theorem wit_RegisterInstructions :
    issues (run (w64 [(0x10, 58)])) 0 (w64 [(0x10, 58)]) = true ∧
    (after (.nop 0) (run (w64 [(0x10, 58)]))).engine 0 = { (run (w64 [(0x10, 58)])).dev.engine 0 with
      a := { ((run (w64 [(0x10, 58)])).dev.engine 0).a with pc := 1 }, issueAt := 1 } ∧
    (let w := w64 [(0x20, 58), (3, 40), (7, 0)]
     issues (run w) 0 w = true ∧ ((after (.ldi 0) (run w)).engine 0).a.gr 3 = 7) ∧
    (let w := w64 [(0x21, 58), (1, 48), (3, 40), (1, 36), (2, 32)]
     issues (run w) 0 w = true ∧
     (let e := (after (.alu 0) (run w fun e => { e with a := (e.a.setG 1 5).setG 2 6 })).engine 0
      e.a.gr 3 = 0xFFFFFFFF ∧ bit e.a.flags 1 = true ∧ bit e.a.flags 2 = false)) ∧
    (let w := w64 [(0x21, 58), (8, 48), (1, 36), (1, 32)]
     issues (run w) 0 w = true ∧ bit ((after (.alu 0) (run w)).engine 0).a.flags 0 = true) ∧
    (let w := w64 [(0x22, 58), (0, 48), (2, 40), (2, 36), (0xFFFFFFFF, 0)]
     issues (run w) 0 w = true ∧ ((after (.alui 0) (run w)).engine 0).a.gr 2 = 0xFFFFFFFF) ∧
    (let w := w64 [(0x22, 58), (9, 48), (2, 36), (1, 0)]
     issues (run w) 0 w = true) ∧
    (let w := w64 [(0x23, 58), (1, 48)]
     issues (run w) 0 w = true ∧ ((after (.xop 0) (run w fun e => { e with a := { e.a with xmax := 3 } })).engine 0).a.xa = 1) ∧
    (let w := w64 [(0x24, 58), (2, 48)]
     issues (run w) 0 w = true ∧ ((after (.yop 0) (run w fun e => { e with a := { e.a with ymax := 3 } })).engine 0).a.ya = 3) ∧
    (let w := w64 [(0x25, 58), (1, 48)]
     issues (run w) 0 w = true) ∧
    (let w := w64 [(0x26, 58), (5, 0)]
     issues (run w) 0 w = true ∧ ((after (.map 0) (run w)).engine 0).a.map = 5) ∧
    (let w := w64 [(0x27, 58), (3, 40), (17, 32)]
     issues (run w) 0 w = true) ∧
    (let w := w64 [(0x35, 58), (2, 48), (2, 40)]
     issues (run w) 0 w = true ∧ ((after (.fxfer 0) (run w fun e => { e with fxin := 0x500000006 })).engine 0).a.gr 3 = 5) := by
  decide +kernel

/-- Selector 8 holds 24 bits; another selector keeps its value. -/
theorem wit_SelectorWriteRead :
    ({ ({} : Engine) with a := ({} : Engine).a.writeSel 8 0xFF000001 } : Engine).readSel 8 = 1 ∧
    ({ ({} : Engine) with a := ({} : Engine).a.writeSel 17 0xFFFFFFFF } : Engine).readSel 0 = 0 := by decide +kernel

/-- The corners of the ALU: signed overflow, carry out, borrow, a shift by 31 and one by 32. -/
theorem wit_AluFlags :
    (alu 0 0x7FFFFFFF 1).v = true ∧ (alu 0 0xFFFFFFFF 1).c = true ∧ (alu 1 0 1).c = false ∧ (alu 8 1 1).c = true ∧
    (alu 7 0x80000000 31).res = 0xFFFFFFFF ∧ (alu 5 0x80000000 32).res = 0x80000000 ∧ (alu 6 3 1).c = true := by decide +kernel

/-- A generator at its limit, and at zero. -/
theorem wit_GeneratorRing :
    (3 : BitVec 24).toNat ≤ (3 : BitVec 24).toNat ∧ (genop 1 3 3 0 0).a = 0 ∧ (genop 2 0 3 0 0).a = 3 ∧
    (genop 9 0 3 2 0).a.toNat ≤ 3 := by decide +kernel

/-- Each flow instruction, at the boundaries of the return stack. -/
theorem wit_FlowInstructions :
    (let w := w64 [(0x11, 58), (0xFFF, 0)]
     issues (run w) 0 w = true ∧ ((after (.jmp 0) (run w)).engine 0).a.pc = 0xFFF) ∧
    (let w := w64 [(0x12, 58), (9, 0)]
     let s := run w fun e => { e with a := { e.a with rsp := 15 } }
     issues s 0 w = true ∧ ((after (.jsr 0) s).engine 0).a.rsp = 16 ∧ ((after (.jsr 0) s).engine 0).a.rs 15 = 1) ∧
    (let w := w64 [(0x13, 58)]
     let s := run w fun e => { e with a := { e.a with rsp := 1, rstk := [(0, 0x1007)] } }
     issues s 0 w = true ∧ ((after (.rts 0) s).engine 0).a.pc = 7 ∧ ((after (.rts 0) s).engine 0).a.rsp = 0) ∧
    (let w := w64 [(0x14, 58), (1, 16), (4, 0)]
     issues (run w) 0 w = true ∧ ((after (.brc 0) (run w)).engine 0).a.pc = 1) ∧
    (let w := w64 [(0x17, 58), (4, 0)]
     let s := run w fun e => { e with a := { e.a with svalid := true } }
     issues s 0 w = true ∧ ((after (.page 0) s).engine 0).a.active = true) := by decide +kernel

/-- Two strobes of the last vector, the earlier one failing: the verdict comes 15 ECLK after the later one; the SMASK of one or of both
channels at the fetch; no vector since the start; a vector in flight on a channel that it does not judge. -/
theorem wit_FailVerdict :
    (let s (m : DWord) := st fun d => d.setEngine 0 { d.engine 0 with
       st := .run, issueAt := 3, await := some m, lastVec := .made [⟨0, 64 * 35 + 63, false, true⟩, ⟨1, 64 * 36, false, false⟩] }
     ((s 0).dev.failTest 0).map (fun x => (x.1.issueAt, x.2)) = some (51, true) ∧
     ((s 1).dev.failTest 0).map (fun x => (x.1.issueAt, x.2)) = some (51, false) ∧
     ((s 2).dev.failTest 0).map (fun x => (x.1.issueAt, x.2)) = some (50, true) ∧
     ((s 3).dev.failTest 0).map (fun x => (x.1.issueAt, x.2)) = some (3, false)) ∧
    (let s := st fun d => d.setEngine 0 { d.engine 0 with st := .run, issueAt := 3, a := { (d.engine 0).a with flags := 0x40 } }
     (s.dev.failTest 0).map (fun x => (x.1.issueAt, x.2)) = some (3, true)) ∧
    (let v : Flight := { ts := 0, start := 13, period := 1, gen := none, sa := 0, sb := 0, pre := {}, after := {}, stb := {}, commits := [] }
     let s := st fun d => d.setEngine 0 { d.engine 0 with st := .run, flight := [v] }
     (s.dev.engine 0).flight.getLast? = some v ∧ s.dev.willJudge 0 v = false ∧ (s.dev.failTest 0).map (·.2) = some false) := by
  decide +kernel

/-- BRC on FAIL, taken on a failing verdict and not on a passing one, and one that a vector in flight keeps waiting. -/
theorem wit_FailBranch :
    (let w := w64 [(0x14, 58), (1, 48), (4, 0)]
     let s (f : Bool) := run w fun e => { e with lastVec := .made [⟨0, 64 * 35, false, f⟩] }
     issues (s true) 0 w = true ∧ ((after (.brc 0) (s true)).engine 0).a.pc = 4 ∧ ((after (.brc 0) (s true)).engine 0).issueAt = 50 ∧
     ((after (.brc 0) (s false)).engine 0).a.pc = 1) ∧
    (let w := w64 [(0x14, 58), (1, 48), (4, 0)]
     let v : Flight := { ts := 0, start := 13, period := 1, gen := none, sa := 3, sb := 1, pre := {}, after := {}, stb := {}, commits := [] }
     let s := st fun d => (d.setEngine 0 { d.engine 0 with st := .run, mem := [(0, w)], flight := [v] }).updChannel 0 fun c =>
       { c with act := [(0, 0x100000)] }
     issues s 0 w = true ∧ (s.issuer 0).flight.length = 1 ∧ (s.dev.setEngine 0 (s.issuer 0)).failTest 0 = none ∧
     ((after (.brc 0) s).engine 0).a.pc = 0 ∧ ((after (.brc 0) s).engine 0).await = some 0) := by decide +kernel

/-- A loop counter at 1 and at 0, from the loop buffer and not. -/
theorem wit_CountedLoop :
    (let w := w64 [(0x15, 58), (2, 44)]
     let s := run w fun e => { e with a := e.a.setLc 2 1 }
     issues s 0 w = true ∧ ((after (.loop 0) s).engine 0).a.lcr 2 = 0 ∧ ((after (.loop 0) s).engine 0).issueAt = 3) ∧
    (let w := w64 [(0x15, 58), (2, 44)]
     let s := run w fun e => { e with a := { e.a with lbuf := some 0 } }
     issues s 0 w = true ∧ ((after (.loop 0) s).engine 0).a.pc = 1 ∧ ((after (.loop 0) s).engine 0).issueAt = 0) := by decide +kernel

/-- A body of one VEC; a body of one NOP; a body with a reserved encoding at its second address. -/
theorem wit_MatchLoopStart :
    (let w := w64 [(0x16, 58), (1, 44)]
     let s := run w fun e => { e with mem := [(0, w), (1, w64 [(1, 58)])] }
     issues s 0 w = true ∧ legal (w64 [(1, 58)]) 1 = true ∧ bodyOk (w64 [(1, 58)]) = true ∧
       (((after (.mloop 0) s).engine 0).a.mloop = some { first := 1, after := 2, lc := 1 })) ∧
    (let w := w64 [(0x16, 58)]
     let s := run w fun e => { e with mem := [(0, w), (1, w64 [(0x10, 58)])] }
     issues s 0 w = true ∧ legal (w64 [(0x10, 58)]) 1 = true ∧ ((after (.mloop 0) s).engine 0).stops = [8] ∧
       ((after (.mloop 0) s).engine 0).a.pc = 0) ∧
    (let w := w64 [(0x16, 58), (1, 0)]
     let s := run w fun e => { e with mem := [(0, w), (1, w64 [(1, 58)]), (2, w64 [(0x3F, 58)])] }
     issues s 0 w = true ∧ legal (w64 [(0x3F, 58)]) 2 = false ∧ ((after (.mloop 0) s).engine 0).stops = [8] ∧
       ((after (.mloop 0) s).engine 0).a.pc = 2) := by decide +kernel

/-- The last instruction of a body, with a passing strobe, a failing one with the counter at 0, and one with it at 1. -/
theorem wit_MatchLoopPass :
    (let w := w64 [(0x10, 58)]
     let m : MatchLoop := { first := 0, after := 1, lc := 3 }
     let s (f : Bool) (k : BitVec 24) := run w fun e => { e with
       a := { e.a.setLc 3 k with mloop := some m }, lastVec := .made [⟨0, 64, false, f⟩] }
     issues (s false 1) 0 w = true ∧ ((after (.nop 0) (s false 1)).engine 0).a.mloop = none ∧
       bit ((after (.nop 0) (s false 1)).engine 0).a.flags 8 = true ∧
       ((after (.nop 0) (s true 0)).engine 0).a.pc = 1 ∧ bit ((after (.nop 0) (s true 0)).engine 0).a.flags 8 = false ∧
       ((after (.nop 0) (s true 1)).engine 0).a.lcr 3 = 0 ∧ ((after (.nop 0) (s true 1)).engine 0).a.mloop = some m ∧
       ((after (.nop 0) (s true 1)).engine 0).a.pc = 0) := by decide +kernel

/-- HALT, JSR on a full stack, RTS on an empty one, PAGE without a shadow, VSTR of a gang, and a reserved encoding. -/
theorem wit_InstructionStops :
    (let w := w64 [(0x18, 58)]
     issues (run w) 0 w = true ∧ ((after (.halt 0) (run w)).engine 0).stops = [10] ∧ ((after (.halt 0) (run w)).engine 0).a.pc = 1) ∧
    (let w := w64 [(0x12, 58)]
     let s := run w fun e => { e with a := { e.a with rsp := 16 } }
     issues s 0 w = true ∧ ((after (.jsr 0) s).engine 0).stops = [9]) ∧
    (let w := w64 [(0x13, 58)]
     issues (run w) 0 w = true ∧ ((after (.rts 0) (run w)).engine 0).stops = [9]) ∧
    (let w := w64 [(0x17, 58)]
     issues (run w) 0 w = true ∧ ((after (.page 0) (run w)).engine 0).stops = [5]) ∧
    (let w := w64 [(0x03, 58)]
     let s := run w fun e => { e with sizeLog2 := 1 }
     issues s 0 w = true ∧ ((after (.vstr 0 [{}]) s).engine 0).stops = [8]) ∧
    (let w := w64 [(0x3F, 58)]
     legal w 0 = false ∧ ((after (.unusedOpcode 0) (run w)).engine 0).stops = [8]) := by decide +kernel

/-- Each form of FCTL with the largest region, MASK and ATTN. -/
theorem wit_CommitPointInstructions :
    (let f (m v : Nat) := w64 [(0x32, 58), (m, 48), (v, 0)]
     let waits (i : Instr) (w : DWord) := ((after i (run w)).engine 0).uncommitted
     issues (run (f 0 0)) 0 (f 0 0) = true ∧ waits (.fctlEnable 0) (f 0 0) = [.enable] ∧
     issues (run (f 1 0)) 0 (f 1 0) = true ∧ waits (.fctlDisable 0) (f 1 0) = [.disable] ∧
     issues (run (f 2 4095)) 0 (f 2 4095) = true ∧ waits (.fctlBlockStart 0) (f 2 4095) = [.blockStart 4095] ∧
     issues (run (f 3 0)) 0 (f 3 0) = true ∧ waits (.fctlBlockEnd 0) (f 3 0) = [.blockEnd 0] ∧
     issues (run (f 4 0xFFFF)) 0 (f 4 0xFFFF) = true ∧ waits (.fctlMark 0) (f 4 0xFFFF) = [.mark 0xFFFF] ∧
     issues (run (f 5 0)) 0 (f 5 0) = true ∧ waits (.fctlFlush 0) (f 5 0) = [.flush] ∧
     issues (run (f 6 0)) 0 (f 6 0) = true ∧
       bit ((after (.fctlClrstk 0) (run (f 6 0) fun e => { e with a := { e.a with flags := 0xC0 } })).engine 0).a.flags 7 = false) ∧
    (let w := w64 [(0x33, 58), (1, 48), (0xFF, 0)]
     issues (run w) 0 w = true ∧ ((after (.mask 0) (run w)).engine 0).uncommitted = [.mask true 0xFF]) ∧
    (let w := w64 [(0x34, 58), (0x5A, 0)]
     issues (run w) 0 w = true ∧ ((after (.attn 0) (run w)).engine 0).uncommitted = [.attn 0x5A]) := by decide +kernel

/-- A VEC of two vectors, first one of them, then the other. -/
theorem wit_VecCounts :
    (let w := w64 [(1, 58), (1, 0)]
     let s := run w
     let t : State := { s with dev := after (.vec 0 [{}]) s }
     issues s 0 w = true ∧ (t.dev.engine 0).a.repLeft = 1 ∧ (t.dev.engine 0).a.pc = 0 ∧ issues t 0 w = true ∧
       ((after (.vec 0 [{}]) t).engine 0).a.pc = 1 ∧ ((after (.vec 0 [{}]) t).engine 0).a.repLeft = 0) := by decide +kernel

/-- Effects at a commit point: capture, the mask of half of the channels, attention. -/
theorem wit_EffectsCommit :
    (let d := State.reset.dev.setEngine 0 { uncommitted := [.enable, .mask false 1, .attn 7] }
     ((d.commit 0).source 0).enabled = true ∧ (d.source 0).enabled = false ∧ ((d.commit 0).channel 0).dmask = true ∧
     ((d.commit 0).channel 1).dmask = false ∧ ((d.commit 0).evtLast 0).payload = payload4 .ok 0 7 0 ∧ ((d.commit 0).engine 0).uncommitted = []) ∧
    ((Dev.applyEffect 0 State.reset.dev (.mask true 1)).channel 0).dmask = false := by decide +kernel

/-- A vector that starts in the last ECLK of the beat, and one that starts in the next beat. -/
theorem wit_VectorsFly :
    (let v (t : Nat) : Flight :=
       { ts := 0, start := t, period := 7, gen := none, sa := 1, sb := 1, pre := {}, after := {}, stb := {}, commits := [] }
     let d (t : Nat) := State.reset.dev.setEngine 0 { st := .run, flight := [v t] }
     let last := State.reset.dev.time.base + State.reset.dev.time.mult - 1
     ((d last).engine 0).flight = [v last] ∧ ((d last).engine 0).st = .run ∧ (((d last).fly 0).engine 0).flight = [] ∧
     (((d last).fly 0).engine 0).vecEnd = last + 7 ∧ (((d (last + 1)).fly 0).engine 0).flight = [v (last + 1)]) := by decide +kernel

/-- A vector of symbol L, below the level and not, and one of symbol 1, on the one channel that engine 0 drives. -/
theorem wit_VectorStarts :
    (let v (sa : BitVec 4) (stb : Strobe) : Flight :=
       { ts := 0, start := 100, period := 7, gen := none, sa := sa, sb := 1, pre := {}, after := { pc := 5 }, stb := stb, commits := [] }
     let d := State.reset.dev.updChannel 0 fun c => { c with act := [(0, 0x100000)] }
     let x (f : BitVec 64) := d.startVector 0 (v 3 { clA := f })
     0 ∈ d.driven 0 ∧ ((x 1).source 0).count = 1 ∧ ((x 0).engine 0).decisions = [⟨115, true⟩] ∧ ((x 1).engine 0).decisions = [⟨115, false⟩] ∧
     ((x 1).engine 0).ckpt.pc = 5 ∧ ((x 1).engine 0).vecEnd = 107 ∧
     ((d.startVector 0 (v 1 {})).engine 0).decisions = [⟨100, false⟩]) := by decide +kernel

/-- A VGEN that increments XA and YA at their limits. -/
theorem wit_VgenSteps :
    (let w := w64 [(2, 58), (1, 12), (1, 8)]
     let s := run w fun e => { e with a := { e.a with xa := 3, xmax := 3, ya := 2, ymax := 3 } }
     issues s 0 w = true ∧ fld w 12 4 ≤ 5 ∧ ((after (.vgen 0 {}) s).engine 0).a.xa = 0 ∧
       ((after (.vgen 0 {}) s).engine 0).a.ya = 3) := by decide +kernel

/-- A stream of one element, and an empty one. -/
theorem wit_VstrStream :
    (let w := w64 [(3, 58)]
     let s := run w fun e => { e with fifo := [5, 6] }
     issues s 0 w = true ∧ ((after (.vstr 0 [{}]) s).engine 0).fifo = [6] ∧ ((after (.vstr 0 [{}]) s).engine 0).a.pc = 1) ∧
    (let w := w64 [(3, 58)]
     issues (run w) 0 w = true ∧ ((after (.vstr 0 [{}]) (run w)).engine 0).stops = [6] ∧
       ((after (.vstr 0 [{}]) (run w)).engine 0).a.repLeft = 1) := by decide +kernel

/-- VHOLD on Z while Z is 0 and on NOT Z, and a BRZ of three slots. -/
theorem wit_HoldAndIdleSlots :
    (let w := w64 [(4, 58), (3, 48)]
     issues (run w) 0 w = true ∧ condTrue (opMod w) ((run w).issuer 0).flagsNow = bit w 16 ∧
       ((after (.vhold 0 1) (run w)).engine 0).a.pc = 1 ∧ ((after (.vhold 0 1) (run w)).engine 0).issueAt = 1) ∧
    (let w := w64 [(4, 58), (3, 48), (1, 16)]
     issues (run w) 0 w = true ∧ ((after (.vhold 0 1) (run w)).engine 0).issueAt = 3) ∧
    (let w := w64 [(5, 58), (2, 0)]
     issues (run w) 0 w = true ∧ ((after (.brz 0) (run w)).engine 0).a.pc = 1 ∧
       ((after (.brz 0) (run w)).engine 0).slotAt = 3 * (run w).dev.period 0 0 10) := by decide +kernel

/-- A WAITG for the next beat, and for one that is past. -/
theorem wit_WaitForBeat :
    (let w := w64 [(0x30, 58), (1, 36), (2, 32)]
     let s := run w fun e => { e with a := e.a.setG 1 5 }
     issues s 0 w = true ∧ ((after (.waitg 0) s).engine 0).st = .wait ∧
       ((after (.waitg 0) s).engine 0).waitg.target = { epoch := 0, gci := 5 }) ∧
    (let w := w64 [(0x30, 58), (1, 36), (2, 32)]
     let s := run w
     issues s 0 w = true ∧ ((after (.waitg 0) s).engine 0).waitg.refused = true ∧ s.dev.targetStatus { epoch := 0, gci := 0 } = .late) := by
  decide +kernel

/-- A SYNC of engines 0 and 1 that finds 1 elsewhere, and a SYNC whose timeout runs out. -/
theorem wit_Rendezvous :
    (let w := w64 [(0x31, 58), (1, 36), (2, 32)]
     let s := run w fun e => { e with a := e.a.setG 1 3 }
     issues s 0 w = true ∧ ((s.dev.setEngine 0 (s.issuer 0)).syncNorm 0 3) = 3 ∧ (s.dev.engine 1).st ≠ .sync ∧
       ((after (.sync 0) s).engine 0).st = .sync ∧ ((after (.sync 0) s).engine 0).syncMask = 3) ∧
    (let s := st fun d => d.setEngine 5 { st := .sync, syncTmo := 2, syncAt := 7, waitNext := 9, a := { flags := 1 } }
     s.dev.live = true ∧ (s.dev.engine 5).stops = [] ∧ ((after (.syncTimeout 5) s).engine 5).a.pc = 9 ∧
       ((after (.syncTimeout 5) s).engine 5).issueAt = 2055 ∧ bit ((after (.syncTimeout 5) s).engine 5).a.flags 0 = false) := by
  decide +kernel

theorem wit_DecisionFlags :
    (let s := st fun d => d.setEngine 63 { decisions := [{ arrives := 9, fail := true }], a := { flags := 1 } }
     s.dev.live = true ∧ ((after (.failDecision 63) s).engine 63).a.flags = 0xC1 ∧
       ((after (.failDecision 63) s).engine 63).decisions = []) := by decide +kernel

/-- The causes LOCK and HALT together. -/
theorem wit_StopBoundary :
    (let s := st fun d => d.setEngine 63 { st := .wait, stops := [11, 2] }
     s.dev.live = true ∧ ((after (.stopBoundary 63 false) s).engine 63).st = .stopped ∧
       ((after (.stopBoundary 63 false) s).engine 63).cause = 2 ∧ ((after (.stopBoundary 63 false) s).engine 63).also = 0x400) := by
  decide +kernel


/-- The digest of the message "abc" in the standard that R448 names (FIPS 180-4). -/
theorem test_sha256 : ofBeBytes (sha256 [0x61, 0x62, 0x63]) =
    0xba7816bf8f01cfea414140de5dae2223b00361a396177a9cb410ff61f20015ad := by decide +kernel
/-! ## Commands of the queues -/

/-- One command for each check, and one that passes them all with 31 in flight. -/
theorem wit_CommandChecks :
    (State.reset.dev.stw.restarting = false ∧ (State.reset.dev.queue 0).accepted = [] ∧ (State.reset.dev.queue 0).inflight < 32) ∧
    tciLen 0x04 = none ∧
    status (runTci 0x04 {} (fun _ d => d) State.reset.otp State.reset.dev) = some .badOpcode ∧
    status (after (.sysNop { rsvd := 1 }) State.reset) = some .badOperand ∧
    status (after (.sysNop (tci [0])) State.reset) = some .badOperand ∧
    status (after (.logFreeze {}) State.reset) = some .lifecycleDenied ∧
    status (after (.engStart (tci [1, 0, 0])) State.reset) = some .modeDenied ∧
    status (after (.engPageSwap (tci [0x40])) State.reset) = some .badOperand ∧
    status (after (.engHalt (tci [1, 0])) (st fun d => { d with lcy := { d.lcy with busy := true } })) = some .busy ∧
    takes (st fun d => d.updQueue 0 fun q => { q with inflight := 31 }) 0x00 {} = true ∧
    takes (st fun d => d.updQueue 0 fun q => { q with inflight := 32 }) 0x00 {} = false ∧
    takes (st fun d => d.updQueue 0 fun q => { q with inflight := 1 }) 0x00 { fence := true } = false ∧
    (let s := st fun d => { d with stw := { d.stw with restarting := true } }
     after (.sysNop {}) s = s.dev) ∧
    (let s := st fun d => { d.updQueue 0 fun q => { q with inflight := 1 } with cmd := { (d.updQueue 0 fun q => { q with inflight := 1 }).cmd with
       parked := [(0x00, {}, { tag := 5, gen := State.reset.dev.cmd.gen })] } }
     status (after (.sysNop {}) s) = some .ok ∧ (after (.sysNop {}) s).cmd.parked = []) := by decide +kernel

theorem wit_Completions :
    (let o : Owner := { tag := 9, gen := State.reset.dev.cmd.gen }
     o.gen = State.reset.dev.cmd.gen ∧ status (State.reset.dev.complete o .busy 1 2) = some .busy ∧
       data (State.reset.dev.complete o .ok 1 2) = some (1, 2) ∧ status (State.reset.dev.complete { o with quiet := true } .ok 1 2) = none) := by
  decide +kernel

/-- NOP, INFO of an OPERATIONAL device in OM0, GCI and ECHO. -/
theorem wit_SysCommands :
    takes State.reset 0x00 {} = true ∧ status (after (.sysNop {}) State.reset) = some .ok ∧
    takes State.reset 0x01 {} = true ∧ data (after (.sysInfo {}) State.reset) = some (0x16403C9B, 0x300) ∧
    takes State.reset 0x02 {} = true ∧
    takes State.reset 0x03 (tci [5, 6]) = true ∧ data (after (.sysEcho (tci [5, 6])) State.reset) = some (5, 6) := by decide +kernel

/-- Pointers at the ends of what their rings allow, and one past. -/
theorem wit_RingPointers :
    (let s := st fun d => d.setQueue 1 { cqTail := 2, rqHead := 3, rqTail := 5 }
     s.dev.live = true ∧ (s.dev.queue 1).cqSize = 1024 ∧
       ((after (.doorbell 1 1024) s).queue 1).cqTail = 1024 ∧ ((after (.doorbell 1 1024) s).queue 1).dberr = false ∧
       ((after (.doorbell 1 1025) s).queue 1).dberr = true ∧ ((after (.doorbell 1 1) s).queue 1).dberr = true ∧
       ((after (.doorbell 1 2) s).queue 1).dberr = false ∧
       ((after (.rqHeadWrite 1 5) s).queue 1).rqHead = 5 ∧ ((after (.rqHeadWrite 1 6) s).queue 1).werr = true ∧
       ((after (.rqHeadWrite 1 3) s).queue 1).werr = false ∧ ((after (.rqHeadWrite 1 2) s).queue 1).werr = true) := by decide +kernel

/-- The smallest and the greatest rings; a change of location of a running queue; CQ_RESET of an idle and of an enabled queue. -/
theorem wit_QueueControl :
    (let w := word (flag 31 true + at' 8 4 + 10)
     let x := (after (.cqCtlWrite 2 w) State.reset).queue 2
     State.reset.dev.live = true ∧ fld w 8 5 = 4 ∧ bit w 29 = false ∧ x.state = .run ∧ x.rqLog2 = 4 ∧ x.cqLog2w = 10) ∧
    (let w := word (flag 31 true + flag 30 true + at' 8 16 + 20)
     let x := (after (.cqCtlWrite 2 w) State.reset).queue 2
     x.loc = true ∧ x.rqLog2 = 16 ∧ x.cqLog2w = 20) ∧
    (let s := st fun d => d.setQueue 2 { en := true, state := .run }
     ((after (.cqCtlWrite 2 0xC000040A) s).queue 2).werr = true ∧ ((after (.cqReset 2) s).queue 2).werr = true) ∧
    (let s := st fun d => d.setQueue 2 { state := .halted, cqHead := 4, cqTail := 9 }
     (s.dev.queue 2).en = false ∧ ((after (.cqReset 2) s).queue 2).state = .disabled ∧ ((after (.cqReset 2) s).queue 2).cqTail = 0) := by
  decide +kernel

/-- A whole ECHO at the head of the window ring of queue 3, and a LENGTH of 4,096. -/
theorem wit_CommandFetch :
    (let ring : Store Word := [(0, word (at' 24 3 + 2)), (1, 77), (2, 5), (3, 6)]
     let s := st fun d => d.setQueue 3 { loc := true, en := true, state := .run, cqTail := 4, cqWin := ring }
     s.dev.live = true ∧ s.dev.turn = some 3 ∧ tciLen 3 = some (2, 2) ∧
       ((after (.commandFetch 3 .done) s).queue 3).accepted = [(3, { q := 3, tag := 77, words := [5, 6] })] ∧
       ((after (.commandFetch 3 .done) s).queue 3).cqHead = 4) ∧
    (let s := st fun d => d.setQueue 2 { en := true, state := .run, cqTail := 4 }
     s.dev.turn = none ∧ ((after (.commandFetch 2 .timeout) s).queue 2).hstatus = .ok) ∧
    (let s := st fun d => { d.setQueue 2 { en := true, state := .run, cqTail := 4 } with
       cmd := { (d.setQueue 2 { en := true, state := .run, cqTail := 4 }).cmd with bme := true } }
     s.dev.turn = some 2 ∧ ((after (.commandFetch 2 .timeout) s).queue 2).hstatus = .timeout) ∧
    (let s := st fun d => d.setQueue 3 { loc := true, en := true, state := .run, cqTail := 2, cqWin := [(0, 4096), (1, 77)] }
     s.dev.turn = some 3 ∧ ((after (.commandFetch 3 .done) s).queue 3).hstatus = .badLength ∧
       ((after (.commandFetch 3 .done) s).queue 3).haltTag = 77) := by decide +kernel

/-- A response posted into a window ring with one place left, a full ring, and a notification that is due. -/
theorem wit_ResponsePost :
    (let s := st fun d => d.setQueue 3 { loc := true, rqTail := 255, inflight := 1, done := [{ tag := 7, op := 3, data0 := 8 }] }
     s.dev.live = true ∧ (s.dev.queue 3).rqFull = false ∧ ((after (.responsePost 3) s).queue 3).rqTail = 256 ∧
       Store.get (fun _ => 0) ((after (.responsePost 3) s).queue 3).rqWin 1020 = 7 ∧
       Store.get (fun _ => 0) ((after (.responsePost 3) s).queue 3).rqWin 1021 = 0x00030001) ∧
    (let s := st fun d => d.setQueue 3 { loc := true, rqTail := 256, inflight := 1, done := [{}] }
     (s.dev.queue 3).rqFull = true ∧ after (.responsePost 3) s = s.dev) ∧
    (let s := st fun d => d.setQueue 3 { unnotified := 1 }
     ((after (.notifyTimer 3) s).queue 3).unnotified = 0 ∧ ((after (.notifyTimer 3) s).evtLast 254).payload = payload .ok 1 8) := by
  decide +kernel

/-- The data word of the last vector, Bus Master Enable set and cleared, and a PCIe reset with a command waiting. -/
theorem wit_PcieFunction :
    (let s := st fun d => { d.setQueue 1 { accepted := [(0, { q := 1 })], inflight := 2, done := [{}] } with
       cmd := { (d.setQueue 1 { accepted := [(0, { q := 1 })], inflight := 2, done := [{}] }).cmd with pba := 5 } }
     s.dev.live = true ∧ s.dev.noc.held = [] ∧
       (Store.get msixReset (after (.msixTableWrite 255 2 9) s).cmd.msix 255).data = 9 ∧
       (after (.busMasterEnable true false) s).cmd.bme = true ∧ (after (.busMasterEnable false true) s).cmd.pba = 5 ∧
       (after (.pcieReset (some (2, 3))) s).cmd.pba = 0 ∧ (after (.pcieReset (some (2, 3))) s).cmd.linkWidth = 4 ∧
       (after (.pcieReset (some (2, 3))) s).cmd.linkSpeed = 4 ∧ s.dev.nvs.jobs = [] ∧ s.dev.nvs.waiting = [] ∧ ((after (.pcieReset (some (2, 3))) s).queue 1).accepted = [(0, { q := 1 })] ∧
       ((after (.pcieReset (some (2, 3))) s).queue 1).done = []) := by decide +kernel

/-! ## Fail capture and repair analysis -/

/-- A failing vector of source 8 for collector 1 in APPEND mode, into a full FIFO, and in COUNT mode. -/
theorem wit_FailEntries :
    (let s (f : Collector → Collector) (m : FatMode) := st fun d =>
       let d := d.setCollector 1 (f { inq := [.fail 8 700 5 6 0x81 9] })
       { d with fcp := { d.fcp with mode := m } }
     let fill (x : Collector) : Collector := { x with fifo := List.replicate 4096 (.entry 0 none false) }
     (s id .append).dev.live = true ∧ (s id .append).dev.domOn pdFat = true ∧ ((s id .append).dev.collector 1).level < 4096 ∧
     ((after (.failEntry 1) (s id .append)).collector 1).fifo = [.entry (failEntry 1 8 5 6 0x81 9) none false] ∧
     ((s fill .append).dev.collector 1).level = 4096 ∧ ((after (.failEntry 1) (s fill .append)).collector 1).compact = true ∧
     (((after (.failEntry 1) (s fill .append)).collector 1).source 8).count = 1 ∧
     (Store.get (fun _ => ({} : FcCount)) ((after (.failEntry 1) (s id .count)).collector 1).cnt 7).fvec = 1 ∧
     (Store.get (fun _ => ({} : FcCount)) ((after (.failEntry 1) (s id .count)).collector 1).cnt 1).fvec = 0) := by decide +kernel

theorem wit_CompactionEnds :
    (let s := st fun d => d.setCollector 7 { compact := true, fifo := List.replicate 2047 (.entry 0 none false) }
     s.dev.live = true ∧ s.dev.domOn pdFat = true ∧ (s.dev.collector 7).level < 2048 ∧
       ((after (.compactionExit 7) s).collector 7).compact = false ∧ fld ((after (.compactionExit 7) s).evtLast 71).payload 16 8 = 2) := by
  decide +kernel

/-- An entry for a ring that is about to wrap, one that fills it, and one for a full ring. -/
theorem wit_FatIngestAppend :
    (let s (w r : BitVec 22) (m : Nat) := st fun d =>
       let d := d.setCollector 0 { fifo := [.entry 0x123 none false] }
       { d with fcp := { d.fcp with wptr := w, rptr := r }, mode := { d.mode with mode := m } }
     (s 0x1FFFFF 1 2).dev.live = true ∧ (s 0x1FFFFF 1 2).dev.fcp.ringFull = false ∧
     (after (.fatIngest [1]) (s 0x1FFFFF 1 2)).fatEntry 0x1FFFFF = 0x123 ∧
     (after (.fatIngest [1]) (s 0x1FFFFF 1 2)).fcp.wptr = 0x200000 ∧
     fld ((after (.fatIngest [1]) (s 0x1FFFFF 0 2)).evtLast 72).payload 16 8 = 1 ∧
     (s 0x200000 0 2).dev.fcp.ringFull = true ∧ (after (.fatIngest [1]) (s 0x200000 0 2)).fcp.fat = [] ∧
     after (.fatIngest [1]) (s 5 1 7) = (s 5 1 7).dev) := by decide +kernel

/-- A fail of region 5 into an empty bucket, into one whose first slot matches, and into one whose two slots are another region's; a fail
outside any block. -/
theorem wit_FatIngestMerge :
    (let e := failEntry 0 0 5 6 1 9
     let b := bucketOf e
     let s (r : Option Nat) (fat : Store (BitVec 120)) := st fun d =>
       let d := d.setCollector 0 { fifo := [.entry e r false] }
       { d with fcp := { d.fcp with mode := .mergeMode, fat := fat }, mode := { d.mode with mode := 3 } }
     let f := mergeNew 4 e
     (s (some 5) []).dev.live = true ∧ feType e = 1 ∧ (after (.fatIngest [1]) (s (some 5) [])).fatEntry (2 * b) = mergeNew 5 e ∧
     mergeMatch 5 e (mergeNew 5 e) = true ∧
     (after (.fatIngest [1]) (s (some 5) [(2 * b, mergeNew 5 e)])).fatEntry (2 * b) = mergeInto e (mergeNew 5 e) ∧
     mergeMatch 5 e f = false ∧ feType f ≠ 0 ∧
     (after (.fatIngest [1]) (s (some 5) [(2 * b, f)])).fatEntry (2 * b + 1) = mergeNew 5 e ∧
     (after (.fatIngest [1]) (s none [])).fcp.noblkCnt = 1) := by decide +kernel

/-- FCP_MODE to MERGE, the end of the clear, and FCP_RPTR at both ends of what it may take. -/
theorem wit_FatModeAndClear :
    (let s := st fun d => { d with fcp := { d.fcp with fat := [(3, 5)], wptr := 4 } }
     takesAt s pdFat 0x40 (tci [1]) = true ∧ s.dev.pendMode = none ∧ s.dev.collectorsIdle = true ∧
       (after (.fcpMode (tci [1])) s).fcp.mode = .mergeMode ∧ (after (.fcpMode (tci [1])) s).fcp.fat = [] ∧
       (after (.fcpMode (tci [1])) s).fcp.clearing = true) ∧
    (let s := st fun d => { d with fcp := { d.fcp with clearing := true, clrBusy := some { tag := 9, op := 0x40, gen := 1 }, mode := .count } }
     s.dev.live = true ∧ (1 : Nat) = s.dev.cmd.gen ∧ status (after .fatClearDone s) = some .ok ∧
       fld ((after .fatClearDone s).evtLast 75).payload 0 16 = 2) ∧
    (let s := st fun d => { d with fcp := { d.fcp with wptr := 2, rptr := 0x3FFFFE } }
     s.dev.live = true ∧ s.dev.tested pdFat = false ∧ (s.dev.domain pdFat).closed = false ∧
       (after (.fcpRptrWrite 2) s).fcp.rptr = 2 ∧ (after (.fcpRptrWrite 0x3FFFFE) s).fcp.werr = false ∧
       (after (.fcpRptrWrite 3) s).fcp.werr = true ∧ (after (.fcpRptrWrite 0x3FFFFD) s).fcp.werr = true) := by decide +kernel

/-- The last entry, to the last 16 bytes of host memory. -/
theorem wit_FatRead :
    (let s := st fun d => { d with
       fcp := { d.fcp with fat := [(0x1FFFFF, 0xABCD)] }
       cmd := { d.cmd with bme := true } }
     let c := tci [0x1FFFFF, 1, 0xFFFFFFF0, 0xFFFFFFFF]
     takesAt s pdFat 0x41 c = true ∧ (c.w64 3).toNat + 16 = 2 ^ 64 ∧
       rd128 (after (.fcpRead c .done) s).cmd.hostMem (2 ^ 64 - 16) = s.dev.fatRead128 0x1FFFFF ∧
       (s.dev.fatRead128 0x1FFFFF).toNat % 65536 = 0xABCD ∧ data (after (.fcpRead c .done) s) = some (1, 0)) := by decide +kernel

/-- A region with an automatic descriptor in OM3 with MERGE, and the last region without a descriptor. -/
theorem wit_RegionCloses :
    (let s := st fun d => { d with
       rae := { d.rae with reg := [(5, { st := .closing })], desc := [(5, 0xC0000000)] }
       fcp := { d.fcp with mode := .mergeMode }
       mode := { d.mode with mode := 3 } }
     s.dev.live = true ∧ (s.dev.region 5).waiting = [] ∧ dscValid (s.dev.desc 5) = true ∧ dscAuto (s.dev.desc 5) = true ∧
       (after (.regionClose 5) s).rae.queue = [5] ∧ ((after (.regionClose 5) s).region 5).st = .queued) ∧
    (let s := st fun d => { d with rae := { d.rae with reg := [(4095, { st := .closing })] } }
     dscValid (s.dev.desc 4095) = false ∧ s.dev.rae.autoEn = true ∧ ((after (.regionClose 4095) s).region 4095).st = .closed ∧
       fld ((after (.regionClose 4095) s).evtLast 79).payload 0 16 = 4095) := by decide +kernel

/-- A region at the head of the queue, a gather of no cell, and one of the cell of region 5's only entry. -/
theorem wit_AnalysisBegins :
    (let w : QWord := BitVec.ofNat 128 (2 ^ 31 + at' 10 1 + at' 16 1 + at' 28 1 + at' 40 1)
     let d0 (x : RaeState) (fat : Store (BitVec 120)) := st fun d => { d with
       rae := { x with desc := [(5, w)] }, fcp := { d.fcp with fat := fat, mode := .mergeMode } }
     let s1 := d0 { queue := [5] } []
     let s2 (fat : Store (BitVec 120)) := d0 { st := .gather, cur := some { region := 5 } } fat
     s1.dev.live = true ∧ s1.dev.domOn pdFat = true ∧ (after .raeAnalysisStart s1).rae.st = .gather ∧
     ((after .raeAnalysisStart s1).region 5).st = .active ∧
     (s2 []).dev.gathered 5 = some [] ∧ (after .gatherDone (s2 [])).rae.st = .must ∧
     (s2 [(7, mergeNew 5 (failEntry 0 0 1 0 1 9))]).dev.gathered 5 = some [(1, 0)]) := by decide +kernel

/-- Region 5 with one spare row and one spare column: a must-repair pass without cells, one that leaves a cell to the search, one that
leaves more cells than the spares cover, the search that covers the cell, and one without spares. -/
theorem wit_RepairAnalysis :
    (let w (r c : Nat) : QWord := BitVec.ofNat 128 (2 ^ 31 + at' 10 r + at' 16 c + at' 28 1 + at' 40 1)
     let d0 (r c : Nat) (x : RaeState) := st fun d => { d with rae := { x with desc := [(5, w r c)] } }
     let s3 := d0 1 1 { st := .must, cur := some { region := 5 } }
     let s4 := d0 1 1 { st := .must, cur := some { region := 5, cells := [(1, 2)] } }
     let s6 := d0 1 1 { st := .must, cur := some { region := 5, cells := [(1, 2), (3, 4), (5, 6)] } }
     let s5 := d0 1 1 { st := .search, cur := some { region := 5, cells := [(1, 2)], node := { sr := 1, sc := 1 } } }
     let s7 := d0 0 0 { st := .search, cur := some { region := 5, cells := [(1, 2)], node := {} } }
     s3.dev.live = true ∧ s3.dev.domOn pdFat = true ∧ dscSpr (w 1 1) = 1 ∧ dscSpc (w 1 1) = 1 ∧
     ((after .mustRepairDone s3).rae.out.map (·.status)) = [.ok] ∧ (after .mustRepairDone s3).rae.st = .write ∧
     ({ sr := 1, sc := 1 } : RaeNode).must [(1, 2)] true = some { sr := 1, sc := 1 } ∧
     (after .mustRepairDone s4).rae.st = .search ∧ ((after .mustRepairDone s6).rae.out.map (·.status)) = [.infeasible] ∧
     ((after .searchDone s5).rae.out.map (·.status)) = [.ok] ∧
     ((after .searchDone s7).rae.out.map (·.status)) = [.infeasible]) := by decide +kernel

theorem wit_SearchSound :
    ((searchNodes [(1, 2)] false 9 10 [{ sr := 1, sc := 1 }] {}).best = some { rows := [(1, false)], sr := 0, sc := 1 }) := by
  decide +kernel

/-- A record that fills the smallest ring, one that finds it full, and one that waits for Bus Master Enable. -/
theorem wit_RaeRecords :
    (let o : RaeRecord := { words := [1, 2, 3, 4], status := .ok, region := 5, loss := true, next := .done }
     let s (h : BitVec 20) (b : Bool) := st fun d => { d with
       rae := { d.rae with out := [o], ringEn := true, rhead := h, st := .write, reg := [(5, { st := .active })] }
       cmd := { d.cmd with bme := b } }
     (s 255 true).dev.live = true ∧ (after .recordWrite (s 255 true)).rae.rhead = 256 ∧ (after .recordWrite (s 255 true)).rae.seq = 1 ∧
       rd32 (after .recordWrite (s 255 true)).cmd.hostMem (16 * 255 + 12) = 4 ∧
       ((after .recordWrite (s 255 true)).region 5).st = .done ∧
       fld ((after .recordWrite (s 255 true)).evtLast 78).payload 0 16 = 5 ∧ after .recordWrite (s 255 false) = (s 255 false).dev ∧
       (after .recordWrite (s 256 true)).rae.st = .ringWait ∧ (after .recordWrite (s 256 true)).rae.out = [o]) := by decide +kernel

/-- The descriptor of the last region loaded and that of region 7 read; an illegal one; one of a queued region; no free channel. -/
theorem wit_RaeDescriptors :
    (let w : QWord := BitVec.ofNat 128 (2 ^ 31 + at' 10 32 + at' 16 32 + at' 40 1)
     let s (b : Bool) (v : QWord) (q : Store Region) := st fun d => { d with
       cmd := { d.cmd with bme := b, hostMem := wr128 [] 16 v }, rae := { d.rae with desc := [(7, 1)], reg := q } }
     let c := tci [0x00010FFF, 16, 0]
     let r := tci [0x00010007, 16, 0]
     raeRange (c.w 1) = some (4095, 1) ∧ takesAt (s true w []) pdFat 0x50 c = true ∧ dscOk (rd128 (s true w []).dev.cmd.hostMem 16) = true ∧
       (after (.raeLoad c .done) (s true w [])).desc 4095 = w ∧ takesAt (s true w []) pdFat 0x51 r = true ∧
       rd128 (after (.raeRead r .done) (s true w [])).cmd.hostMem 16 = 1 ∧
       dscOk (BitVec.ofNat 128 (2 ^ 128 - 1)) = false ∧
       status (after (.raeLoad c .done) (s true (BitVec.ofNat 128 (2 ^ 128 - 1)) [])) = some .badOperand ∧
       status (after (.raeLoad c .done) (s true w [(4095, { st := .queued })])) = some .busy ∧
       status (after (.raeLoad c .timeout) (s true w [])) = some .timeout ∧
       (after (.raeRead r .done) (s false w [])).cmd.parked.length = 1) := by decide +kernel

/-- A region started, one without a valid descriptor and an open one, and the queue and an analysis aborted. -/
theorem wit_RaeStartAbort :
    (let s (m : FatMode) (a : Option Analysis) := st fun d => { d with
       rae := { d.rae with
         desc := [(4, 0x80000000), (5, 0x80000000)]
         reg := [(4, { st := .opened }), (5, { st := .closed }), (6, { st := .queued }), (9, { st := .active })], queue := [6], cur := a }
       fcp := { d.fcp with mode := m } }
     let go (r : Word) (m : FatMode) := after (.raeStart (tci [r])) (s m none)
     takesAt (s .mergeMode none) pdFat 0x52 (tci [0x00010005]) = true ∧ (go 0x00010005 .mergeMode).rae.queue = [6, 5] ∧
       status (go 0x00010005 .append) = some .modeDenied ∧ status (go 0x00010003 .mergeMode) = some .badOperand ∧
       status (go 0x00010004 .mergeMode) = some .busy ∧ status (go 0x00020FFF .mergeMode) = some .badOperand ∧
       takesAt (s .mergeMode none) pdFat 0x53 (tci []) = true ∧ (after (.raeAbort (tci [])) (s .mergeMode none)).rae.queue = [] ∧
       ((after (.raeAbort (tci [])) (s .mergeMode none)).region 6).st = .closed ∧
       ((after (.raeAbort (tci [])) (s .mergeMode (some { region := 9 }))).rae.out.map (·.status)) = [.aborted]) := by decide +kernel

/-- RAE_RING2 at its greatest size and not idle, RAE_RTAIL at both ends, RAE_CTL with the least budget and with none. -/
theorem wit_RaeRegisters :
    (let s := st fun d => { d with rae := { d.rae with rhead := 3, rtail := 1 } }
     State.reset.dev.live = true ∧ State.reset.dev.tested pdFat = false ∧ (after (.raeRingWrite 2 8) State.reset).rae.log2u = 8 ∧
       (after (.raeRingWrite 0 8) s).rae.werr = true ∧ (after (.raeRtailWrite 3) s).rae.rtail = 3 ∧
       (after (.raeRtailWrite 4) s).rae.werr = true ∧ (after (.raeRtailWrite 0) s).rae.werr = true ∧
       (after (.raeCtlWrite 0x20001) s).rae.ringEn = true ∧ (after (.raeCtlWrite 0x20000) s).rae.werr = true) := by decide +kernel

/-! ## Beat, ramps and clocks -/

/-- A boundary that releases engine 3 half way through the beat, and not engine 4, whose target differs. -/
theorem wit_BeatBoundary :
    (let waits (g : BitVec 48) : Engine := { st := .wait, waitg := { target := { gci := g }, frac := 0x8000 } }
     let s := st fun d => (d.setEngine 3 (waits 1)).setEngine 4 (waits 2)
     let d := s.dev
     d.live = true ∧ d.txn.slot = [] ∧ d.pwr.reqs = [] ∧ d.cfg.swaps = [] ∧ d.cfg.suWait = none ∧ d.eng.starts = [] ∧
     d.eng.releases = [] ∧ d.time.rampActive = false ∧ d.cal.holdoff = false ∧ d.cal.stepDue = none ∧ d.cal.winDue = none ∧
     d.noc.held = [] ∧ d.time.reload = none ∧ d.time.gci + 1 ≠ 0 ∧ (after (.beatBoundary 7) s).time.gci = 1 ∧
     ((after (.beatBoundary 7) s).engine 3).st = .run ∧ ((after (.beatBoundary 7) s).engine 3).issueAt = 12 ∧
     (after (.beatBoundary 7) s).engine 4 = d.engine 4) := by decide +kernel

theorem wit_CountReload :
    (let s := st fun d => { d with time := { d.time with reload := some { target := 1, newGci := 77 } } }
     s.dev.live = true ∧ (1 : BitVec 48) = s.dev.time.gci + 1 ∧ (after (.beatBoundary 0) s).time.gci = 77 ∧
       (after (.beatBoundary 0) s).time.epoch = 1) := by decide +kernel

/-- The first count of the last 65,536; both ends of the role window; a power request two beats from its boundary. -/
theorem wit_CountRoles :
    (let s := st fun d => { d with time := { d.time with role := .root, started := true, gci := 0xFFFFFFFF0000 } }
     s.dev.live = true ∧ 0xFFFFFFFF0000 ≤ s.dev.time.gci.toNat ∧ (after .autoReloadAnnounce s).time.autoAnnounced = true) ∧
    (State.reset.dev.time.role = .undetermined ∧ State.reset.dev.byt.port = [] ∧
       (after (.roleWindowEnd true) State.reset).time.role = .root ∧ ((after (.roleWindowEnd true) State.reset).dirEnt 0).present = true ∧
       (after (.roleWindowEnd false) State.reset).time.role = .downstream) ∧
    (let r : PwrReq := { agreed := true, due := 2 }
     let s := st fun d => { d with pwr := { d.pwr with reqs := [r] } }
     s.dev.live = true ∧ s.dev.cfg.suWait = none ∧ s.dev.noc.held = [] ∧ (after .noBeatTick s).pwr.reqs = [{ r with due := 1 }]) := by
  decide +kernel

/-- A segment that ends before another and before an END; a measured period 0.5 % and 0.6 % off 100 MHz; a segment word. -/
theorem wit_Ramps :
    (let s (next : Nat) := st fun d => { d with time := { d.time with
       rampActive := true, rampBeat := 1, startHz0 := 100000000, segs := [(0, w64 [(1, 62)]), (1, w64 [(next, 62)])] } }
     (s 0).dev.live = true ∧ segDur ((s 0).dev.seg 0 0) + 1 ≤ 1 ∧ segKind ((s 0).dev.seg 0 1) = 0 ∧
       (after .rampSegmentEnd (s 0)).time.rampSeg = 1 ∧ segKind ((s 2).dev.seg 0 1) = 2 ∧
       (after .rampSegmentEnd (s 2)).time.rampActive = false ∧ (after .rampSegmentEnd (s 2)).time.holdoff = 4096 ∧
       (s 0).dev.profileNow = (100000000, 1) ∧ (after (.rampDevCheck 10050000) (s 0)).time.rampDev = false ∧
       (after (.rampDevCheck 10060000) (s 0)).time.rampDev = true ∧ (s 0).dev.rampLocked 1 = false ∧ (s 0).dev.rampLocked 0 = true ∧
       (after (.clkRampSegWrite 1 15 false 9) (s 0)).seg 1 15 = 9 ∧ (after (.clkRampSegWrite 0 0 false 9) (s 0)).time.rampWerr = true) := by
  decide +kernel

/-- SPLL1 locks at the greatest differences, and not past them; a DLL of OM2 after TPLL0; a search that fails; a holdover that expires and one that ends. -/
theorem wit_LoopsLock :
    (let s := st fun d => { d with mode := { d.mode with mode := 3 } }
     s.dev.live = true ∧ s.dev.kind 5 = 1 ∧ (s.dev.loop 5).state = .off ∧
       ((after (.lock 5 3 4 1 1 255 1 (List.replicate 64 7)) s).loop 5).state = .locked ∧ ((after (.lock 5 3 4 1 1 255 1 (List.replicate 64 7)) s).loop 5).band = 3 ∧
       fld ((after (.lock 5 3 4 1 1 255 1 (List.replicate 64 7)) s).evtLast 124).payload 16 8 = 1 ∧ ((after (.bandFail 5 (List.replicate 64 9)) s).loop 5).state = .search ∧
       after (.lock 5 3 4 1 1 254 1 (List.replicate 64 7)) s = s.dev) ∧
    (let s := st fun d => ({ d with mode := { d.mode with mode := 2 } } : Dev).setLoop 0 { state := .locked }
     s.dev.kind 1 = 2 ∧ (s.dev.loop 1).state = .off ∧ ((after (.dllLock 1 2 2 2 254) s).loop 1).state = .locked ∧ after (.dllLock 1 2 3 2 254) s = s.dev) ∧
    (let s := st fun d => d.setLoop 4 { state := .holdover }
     ((after (.holdExpired 4) s).loop 4).holdExp = true ∧ ((after (.referenceReturn 4) s).loop 4).state = .track) := by decide +kernel

/-- TPLL0 loses lock at a difference of 4 and not at 3, and stops engine 0; a DLL at 8 steps and not at 7; its tracking ends in a search; the 65,536th suppressed edge is not counted. -/
theorem wit_LoopsLoseLock :
    (let s := st fun d => (d.setLoop 0 { state := .locked }).setEngine 0 { st := .run }
     s.dev.live = true ∧ s.dev.mode.mode ≠ 2 ∧ s.dev.kind 0 = 1 ∧
       ((after (.lockLoss 0 .difference 4 9) s).loop 0).state = .holdover ∧
       ((after (.lockLoss 0 .difference 4 9) s).engine 0).stops = [2] ∧ after (.lockLoss 0 .difference 3 9) s = s.dev ∧
       ((after (.lockLoss 0 .noReference 0 9) s).loop 0).cause = 2) ∧
    (let s := st fun d => ({ d with mode := { d.mode with mode := 2 } } : Dev).setLoop 1 { state := .locked }
     s.dev.kind 1 = 2 ∧ ((after (.lockLoss 1 .dllPhase 8 0) s).loop 1).cause = 4 ∧ after (.lockLoss 1 .dllPhase 7 0) s = s.dev) ∧
    (let s := st fun d => d.setLoop 0 { state := .track }
     ((after (.trackTimeout 0) s).loop 0).state = .search) ∧
    (let s := st fun d => d.setLoop 0 { state := .holdover, trips := 65535 }
     ((after (.fmaxTrip 0) s).loop 0).trips = 65535 ∧ ((after (.fmaxTrip 0) s).loop 0).fmaxTrip = true) := by decide +kernel

/-- The greatest depth; N = 30 of a 100 MHz beat. -/
theorem wit_SpreadAndMultiplier :
    (let c := tci [10, 1]
     takes State.reset 0x21 c = true ∧ fld (c.w 2) 0 23 ≠ 0 ∧ (after (.timSpread c) State.reset).clk.spreadDepth = 10) ∧
    (let s := st fun d => { d with clk := { d.clk with spreadDepth := 4, spreadSeed := 9, spreadPend := true } }
     s.dev.live = true ∧ (after .spreadApex s).clk.spreadEff = 4 ∧ (after .spreadApex s).clk.lfsr = 9) ∧
    (let s := st fun d => { d with time := { d.time with period := 10000000 } }
     let c := tci [30]
     takes s 0x20 c = true ∧ eclkLe 30 s.dev.time.period.toNat 3000000000 = true ∧ s.dev.eclkIn 30 s.dev.mode.mode = true ∧
       s.dev.pendMode = none ∧ s.dev.allHalted = true ∧ s.dev.rampBusy = false ∧ (after (.timSetMult c) s).time.mult = 30 ∧
       ((after (.timSetMult c) s).loop 0).state = .search ∧ (after (.timSetMult c) s).clk.multOwners.length = 1) := by decide +kernel

/-! ## Breeze and the timing sets -/

/-- Channel 63 of a running engine in OM3: the TDC armed; a transition 256 ECLK later captured, one later than that not; a reference
check that fails; the arm lapsed after 256 ECLK and not after 255; an injected pulse on an idle channel in OM0, and its loopback
sample. -/
theorem wit_BreezeSamples :
    (let s (a : Option CapArm) (hit : Option Int) (now : Nat) := st fun d =>
       let d := (d.setLoop 3 { state := .locked }).setEngine 63 { st := .run }
       (({ d with
         mode := { d.mode with mode := 3 }, time := { d.time with base := now }, cal := { d.cal with lastServed := [(15, 2)] } } : Dev).setArm 15 a).updChannel 63 fun c =>
         { c with armTyp := some 2, hit := hit }
     let a : CapArm := { ch := 63, typ := 2 }
     (s none none 0).dev.live = true ∧ (s none none 0).dev.mayArm 63 = true ∧ (s none none 0).dev.tdcTurn 63 = true ∧
       (after (.breezeSample 63 (.arm 2) true) (s none none 0)).arm 15 = some a ∧ (s (some a) none 0).dev.arm 15 = some a ∧
       (s (some a) none 0).dev.measures 63 = true ∧
       (after (.breezeSample 63 (.capture (-3)) true) (s (some a) (some 16384) 300)).corr 63 2 = { count := 1, sum := -3 } ∧
       after (.breezeSample 63 (.capture (-3)) true) (s (some a) (some 16385) 300) = (s (some a) (some 16385) 300).dev ∧
       after (.breezeSample 63 (.capture (-3)) true) (s (some a) none 300) = (s (some a) none 300).dev ∧
       bit (after (.breezeSample 63 (.capture 0) false) (s (some a) (some 9) 300)).cal.tdcFault 15 = true ∧
       (after (.armLapse 15) (s (some a) none 256)).arm 15 = none ∧ (after (.armLapse 15) (s (some a) none 255)).arm 15 = some a) ∧
    (let s := st fun d => ({ d with cal := { d.cal with lastServed := [(0, 3)] } } : Dev).setLoop 0 { state := .locked }
     let p := s.dev.updChannel 0 fun c => { c with pulse := some 0, lastD := some 64 }
     s.dev.mayInject 0 = true ∧ s.dev.tdcTurn 0 = true ∧ ((after (.breezeSample 0 (.inject 4 (-4)) true) s).corr 0 0).sum = 4 ∧
       ((after (.breezeSample 0 (.inject 4 (-4)) true) s).corr 0 1).sum = -4 ∧
       ((after (.breezeSample 0 (.inject 4 (-4)) true) s).channel 0).pulse = some 0 ∧ p.mayMeasure 0 = true ∧
       ((after (.breezeSample 0 (.loopback 6) true) { s with dev := p }).corr 0 4).sum = 6 ∧
       ((after (.breezeSample 0 (.loopback 6) true) { s with dev := p }).channel 0).pulse = none) := by decide +kernel

/-- The 256th sample with targets at both ends of the limit, and in a sweep; a step up, a step refused and a jump; in a hold-off. -/
theorem wit_BreezeSteps :
    (let s (sum : Int) := st fun d => d.setCorr 0 4 { corr := 0, count := 256, sum := sum }
     ((s 0).dev.corr 0 4).count = 256 ∧ ((after (.measurementDone 0 4) (s (512 * 2048))).corr 0 4).target = -2048 ∧
       ((after (.measurementDone 0 4) (s (-512 * 2047))).corr 0 4).target = 2047 ∧
       ((after (.measurementDone 0 4) (s (512 * 9))).corr 0 4).mvalid = true) ∧
    (let s := st fun d => ({ d with cal := { d.cal with sweep := some { swept := 1, owner := none } } } : Dev).setCorr 0 4 { count := 256, sum := 512 }
     s.dev.sweeping 0 = true ∧ ((after (.measurementDone 0 4) s).corr 0 4).corr = -1 ∧
       (after (.measurementDone 0 4) s).cal.sweep.map (·.got) = some [4]) ∧
    (let s (h : Bool) := st fun d =>
       let d := ((d.setCorr 0 0 { target := 3, mvalid := true }).setCorr 0 1 { target := 3, mvalid := true, oor := true }).setCorr 1 0 { target := 9 }
       { d with cal := { d.cal with stepDue := some 1, holdoff := h } }
     (s false).dev.stepsOn = true ∧ ((after .stepBoundary (s false)).corr 0 0).corr = 1 ∧ ((after .stepBoundary (s false)).corr 0 1).corr = 0 ∧
       ((after .stepBoundary (s false)).corr 1 0).corr = 9 ∧ (after .stepBoundary (s false)).cal.stepDue = none ∧
       ((after .stepBoundary (s true)).corr 1 0).corr = 0) := by decide +kernel

/-- A sweep begun, refused, cut by SAFE_N, and ended: short of entries with a correction at its least, and with all of them. -/
theorem wit_Sweeps :
    (let s (n : Bool) := st fun d => { d with cal := { d.cal with sweepEn := 1 }, pin := { d.pin with safeN := n } }
     (s false).dev.live = true ∧ (s false).dev.mode.mode = 0 ∧ (s false).dev.cal.sweep = none ∧ (s false).dev.bulkStaged 1 = false ∧
       (after .sweepRepeat (s false)).cal.sweep = some { swept := 1, owner := none } ∧
       ((after .sweepRepeat (s false)).channel 0).inSafe = false ∧ takes (s false) 0x30 {} = true ∧
       ((after (.calSweep {}) (s false)).cal.sweep.map (·.swept)) = some 1 ∧ status (after (.calSweep {}) (s true)) = some .aborted) ∧
    (let o : Owner := { tag := 9, gen := State.reset.dev.cmd.gen }
     let s (g : List Nat) := st fun d =>
       ({ d with cal := { d.cal with sweep := some { swept := 1, got := g, owner := some o } } } : Dev).setCorr 0 0 { corr := -2000 }
     takes (s []) 0x30 {} = true ∧ status (after (.calSweep {}) (s [])) = some .busy ∧
       ((after (.sweepDone [⟨0, 0, 48⟩]) (s [])).corr 0 0).corr = -2048 ∧ status (after (.sweepDone [⟨0, 0, 48⟩]) (s [])) = some .aborted ∧
       (after (.sweepDone [⟨0, 0, 48⟩]) (s [])).cal.sweep = none ∧
       status (after (.sweepDone [⟨0, 0, 0⟩, ⟨0, 1, 0⟩, ⟨0, 4, 0⟩]) (s [2, 3])) = some .ok) := by decide +kernel

/-- A window for engine 0, a check for channel 0 in traffic throughout, and a correction rescaled from 10 ns to 5 ns. -/
theorem wit_BreezeWindows :
    (let s := st fun d => ({ d with cal := { d.cal with winDue := some 1 } } : Dev).setEngine 0 { st := .run, vecEnd := 100 }
     s.dev.live = true ∧ s.dev.cal.steal = true ∧ ((after .om2Window s).engine 0).winAt = some 100 ∧
       ((after .om2Window s).engine 0).vecEnd = 612 ∧ ((after .om2Window s).engine 0).late = some 100) ∧
    (let s := st fun d => ({ d with cal := { d.cal with winDue := some 1 } } : Dev).setEngine 0 { st := .run, vecEnd := 100, issueAt := 100 }
     ((after .om2Window s).engine 0).late = none ∧ ((after .om2Window s).engine 0).issueAt = 612) ∧
    (let chans : Store OM2Chan := [(0, { throughout := true }), (1, { throughout := true, brz := true })]
     let s := st fun d => ({ d with
       cal := { d.cal with winDue := some 0, steal := false, intvFull := true, om2 := chans } } : Dev).setEngine 0 { st := .run }
     bit (after .windowCheck s).cal.miss 0 = true ∧ bit (after .windowCheck s).cal.miss 1 = false ∧
       (after .windowCheck s).cal.winDue = none) ∧
    (let s := st fun d => ({ d with
       cal := { d.cal with holdoff := true, refPer := 10000000 }
       time := { d.time with rampHz := (200000000, 1) } } : Dev).setCorr 63 4 { corr := 7 }
     s.dev.time.rampActive = false ∧ s.dev.time.holdoff = 0 ∧ s.dev.effCorr 63 4 = 14) := by decide +kernel

/-- CAL_CORR with its least value, in traffic, CAL_MODECFG with ORL 8 and 9; a shadow word, a staged one, a check begun, one begun
again, one that ended; a swap of set 63; a channel configuration. -/
theorem wit_TimingRegisterWrites :
    (let s := st fun d => d.setEngine 1 { st := .run }
     s.dev.live = true ∧ s.dev.inTraffic 0 = false ∧ ((after (.calCorrWrite 0 0 0x800) s).corr 0 0).corr = -2048 ∧
       s.dev.inTraffic 1 = true ∧ (after (.calCorrWrite 1 0 0) s).cal.werr = true ∧
       ((after (.calModecfgWrite 7 8) s).modeCfg 7).orl = 8 ∧ (after (.calModecfgWrite 7 9) s).cal.werr = true) ∧
    (let s := st fun d => { d with txn := { d.txn with slot := [(0, { st := .opened, acts := [.tsWrite 1 0 0] })] } }
     s.dev.tested (pdEq 0) = false ∧ (s.dev.domain (pdEq 0)).closed = false ∧ s.dev.quadTest 0 = false ∧ s.dev.setStaged 0 63 = false ∧
       ((after (.timShadowWrite 0 63 3 1) s).channel 0).shadow 63 = BitVec.ofNat 128 (2 ^ 96) ∧ s.dev.setStaged 0 1 = true ∧
       ((after (.timShadowWrite 0 1 3 1) s).channel 0).werr = true ∧ tsCheck 0 = .ok ∧ s.dev.dnrzDenied = false ∧
       ((after (.timTschkWrite 0 63) s).channel 0).check = some { set := 63, status := .ok }) ∧
    (let s := st fun d => d.setChannel 0 { shd := [(63, BitVec.ofNat 128 (2 ^ 19))], check := some { set := 62, status := .ok } }
     tsCheck ((s.dev.channel 0).shadow 63) = .badOperand ∧ ((after (.timTschkWrite 0 63) s).channel 0).werr = true ∧
       bit ((after (.tschkDone 0) s).channel 0).svalid 62 = true ∧ ((after (.tschkDone 0) s).channel 0).vset = 62) ∧
    (let s := st fun d => d.setChannel 0 { shd := [(63, 5)], act := [(63, 6)], svalid := 0x8000000000000000 }
     (s.dev.engine (s.dev.driver 0)).st.moving = false ∧ ((after (.timSwapWrite 0 true 0x80000000) s).channel 0).active 63 = 5 ∧
       ((after (.timSwapWrite 0 true 0x80000000) s).channel 0).shadow 63 = 6 ∧
       bit ((after (.timSwapWrite 0 true 0x80000000) s).channel 0).svalid 63 = false) ∧
    ((State.reset.dev.engine (State.reset.dev.driver 0)).st.halted = true ∧ State.reset.dev.cfgStaged 0 = false ∧
       ((after (.timChcfgWrite 0 0x2E) State.reset).channel 0).slew = 3 ∧ ((after (.timChcfgWrite 0 0x2E) State.reset).channel 0).chSafe = 2) := by
  decide +kernel

/-! ## The engines from outside -/

/-- A start and a resume of engine 63 in OM3, a halt of nothing and of engine 63, and a release. -/
theorem wit_EngineCommands :
    (let s (x : EngSt) := st fun d =>
       let d := (d.setEngine 63 { st := x }).setLoop 3 { state := .locked }
       { d with mode := { d.mode with mode := 3, settled := true }, cfg := { d.cfg with done := true } }
     let c := tci [0, 0x80000000, 9]
     let r := tci [0, 0x80000000]
     takes (s .idle) 0x10 c = true ∧ c.w64 1 ≠ 0 ∧ (s .idle).dev.txn.oosTxn = false ∧ (s .idle).dev.txn.oosBeat = false ∧
     (s .idle).dev.engLock = false ∧ (s .idle).dev.startPends 63 = false ∧ (s .idle).dev.gangStaged 63 = false ∧
     (s .idle).dev.driven 63 = [63] ∧ ((s .idle).dev.domain (pdEq 63)).closed = false ∧ (s .idle).dev.quadTest 63 = false ∧
     ((s .idle).dev.loop (tpllOf 63)).state = .locked ∧ ((after (.engStart c) (s .idle)).eng.starts.map (·.entry)) = [9] ∧
     takes (s .stopped) 0x11 r = true ∧ ((after (.engResume r) (s .stopped)).eng.starts.map (·.resume)) = [true] ∧
     takes (s .idle) 0x12 r = true ∧ status (after (.engHalt r) (s .idle)) = some .ok ∧
     ((after (.engHalt r) (s .run)).engine 63).stops = [11] ∧ status (after (.engHalt r) (s .run)) = none ∧
     takes (s .idle) 0x13 r = true ∧ ((after (.engRelease r) (s .idle)).eng.releases.map (·.1)) = [0x8000000000000000]) := by
  decide +kernel

/-- A page swap with and without a shadow page, a refill and one while another runs, and a stream of all of a memory. -/
theorem wit_PageCommands :
    (let s (v : Bool) := st fun d => d.setEngine 63 { a := { svalid := v } }
     let c := tci [0x0FFF003F]
     takes (s true) 0x14 c = true ∧ ((s true).dev.domain (pdEq 63)).closed = false ∧ ((s true).dev.engine 63).st.halted = true ∧
       (s true).dev.pageStaged 63 = false ∧ ((after (.engPageSwap c) (s true)).engine 63).a.pc = 0xFFF ∧
       ((after (.engPageSwap c) (s true)).engine 63).a.active = true ∧ status (after (.engPageSwap c) (s false)) = some .badOperand) ∧
    (let s (r : Option Refill) := st fun d => d.setEngine 63 { refill := r }
     let c := tci [63, 8, 0, 4096, 0, 0]
     takes (s none) 0x15 c = true ∧ ((s none).dev.domain pdVmi).closed = false ∧ (c.w64 2).toNat % 8 = 0 ∧
       (((after (.engRefill c) (s none)).engine 63).refill.map (·.count)) = some 4096 ∧
       status (after (.engRefill c) (s (some { addr := 0, count := 1 }))) = some .busy) ∧
    (let s := st fun d => { d with vmi := { d.vmi with cap := 1, ready := true, training := false } }
     let c := tci [63, 0, 0, 0x40000000]
     takes s 0x17 c = true ∧ (c.w64 2).toNat + (c.w 4).toNat ≤ s.dev.vmiBytes ∧ s.dev.domOn pdVmi = true ∧
       (after (.engStream c) s).stream 63 = { next := 0, left := 0x40000000, owner := some (s.dev.ownerOf 0x17 c) }) := by decide +kernel

/-- The last instruction of a refill, its end, an end with an error, and a deadline; a stream's last byte. -/
theorem wit_Refills :
    (let s (r : Refill) := st fun d => { d.setEngine 63 { st := .run, refill := some r } with
       vmi := { d.vmi with cap := 1, training := false, mem := [(7, 0xAB)] } }
     let r : Refill := { page := true, addr := 0, count := 4096, moved := 4095 }
     let q : Refill := { page := true, addr := 0, count := 1 }
     (s r).dev.live = true ∧ (s q).dev.vmiStatus 0 8 = .ok ∧ (s q).dev.refillWants 62 = false ∧
       (((after (.refillTransfer 15) (s q)).engine 63).refill.map (·.moved)) = some 1 ∧
       Store.get (fun _ => 0) ((after (.refillTransfer 15) (s q)).engine 63).mem (memIndex true 0) = 0xAB00000000000000 ∧
       (((after (.refillTransfer 15) (s r)).engine 63).refill.map (·.moved)) = some 4096 ∧
       ((after (.refillDone 63) (s { r with moved := 4096 })).engine 63).a.svalid = true ∧
       ((after (.refillDone 63) (s { r with err := true, owner := some { gen := 1 } })).engine 63).refill = none ∧
       status (after (.refillDone 63) (s { r with err := true, owner := some { gen := 1 } })) = some .mediaError ∧
       ((after (.refillDeadline 63) (s { r with deadline := some {} })).engine 63).stops = [5]) ∧
    (let s := st fun d => { d with
       vmi := { d.vmi with cap := 1, ready := true, training := false, mem := [(7, 0xAB)], stream := [(63, { next := 7, left := 1 })] } }
     s.dev.live = true ∧ s.dev.domOn pdVmi = true ∧ s.dev.streamTurn = some 63 ∧ ((after (.streamFetch 63) s).engine 63).fifo = [0xB, 0xA] ∧
       ((after (.streamFetch 63) s).stream 63).left = 0) := by
  decide +kernel

/-- A gang of 64 and the end of one; one that is misaligned, and one that overlaps another. -/
theorem wit_Gangs :
    (let s := st fun d => { d with mode := { d.mode with mode := 3 } }
     let c := tci [0x5600]
     takes s 0x16 c = true ∧ s.dev.openActs = [] ∧ fld (c.w 1) 8 3 = 6 ∧
       ((List.range 64).all fun k => decide ((s.dev.engine k).sizeLog2 = 0) && (s.dev.engine k).st.halted && !s.dev.startPends k &&
         !(s.dev.domain (pdEq k)).closed) = true ∧
       ((after (.engGang c) s).engine 63).st = .follower ∧ ((after (.engGang c) s).engine 0).a.map = 5) ∧
    (let s := st fun d => (({ d with mode := { d.mode with mode := 3 } } : Dev).setEngine 2 { sizeLog2 := 1 }).setEngine 3 { sizeLog2 := 1, st := .follower }
     let c := tci [0x80000002]
     takes s 0x16 c = true ∧ s.dev.driven 2 = [2, 3] ∧ ((after (.engGang c) s).engine 3).st = .idle ∧
       ((after (.engGang c) s).engine 2).sizeLog2 = 0 ∧ status (after (.engGang (tci [0x101])) s) = some .badOperand ∧
       status (after (.engGang (tci [0x200])) s) = some .badOperand) := by decide +kernel

/-- The last instruction of the shadow page, an instruction of the active page of a moving engine, ENG_HALT, SVALID, the last
registers of their groups, a pin map entry and a scramble mask. -/
theorem wit_EngineWindows :
    (let s := st fun d => d.setEngine 63 { epmLatch := some (8191, 5) }
     s.dev.live = true ∧ s.dev.tested (pdEq 63) = false ∧ (s.dev.domain (pdEq 63)).closed = false ∧ s.dev.pageStaged 63 = false ∧
       ((after (.epmWrite 63 8191 false 9) s).engine 63).epmLatch = some (8191, 9) ∧
       ((after (.epmWrite 63 8191 true 6) s).engine 63).mem = [(8191, 0x600000005)] ∧
       ((after (.svalidWrite 63 2) s).engine 63).a.svalid = true ∧ (s.dev.engine 63).st.halted = true ∧
       ((after (.engStateWrite 63 0x05C 7) s).engine 63).a.gr 7 = 7 ∧ ((after (.engStateWrite 63 0x06C 7) s).engine 63).a.lcr 3 = 7 ∧
       ((after (.engStateWrite 63 0x070 7) s).engine 63).a.xa = 7 ∧ ((after (.engStateWrite 63 0x008 0xFFF) s).engine 63).a.pc = 0xFFF ∧
       s.dev.pinStaged 63 15 = false ∧
       Store.get (fun _ => 0) ((after (.pinmapWrite 63 15 0x2800) s).engine 63).pinmap 15 = 0x2800 ∧ pinOk 0x2800 = true ∧
       s.dev.scrStaged 63 = false ∧ ((after (.scrambleMaskWrite 63 0 0xFFFFFF) s).engine 63).scrx = 0xFFFFFF) ∧
    (let s := st fun d => d.setEngine 63 { st := .run }
     ((after (.epmWrite 63 0 false 9) s).engine 63).werr = true ∧ ((after (.engHaltWrite 63 1) s).engine 63).stops = [11] ∧
       after (.engHaltWrite 63 0) s = s.dev ∧ ((after (.engStateWrite 63 0x008 1) s).engine 63).werr = true ∧
       ((after (.pinmapWrite 63 0 0) s).engine 63).werr = true) := by decide +kernel

/-! ## Transactions -/

/-- An open with one slot left and with none; a timing set write staged, its object held, its domain not On; an abort, a release of the three ended states, a query and OUT_OF_STEP. -/
theorem wit_TransactionCommands :
    (let s (x : TxnSt) := st fun d => { d with txn := { d.txn with slot := (7, { st := x }) :: (List.range 7).map fun i => (i, { st := .applied }) } }
     takes (s .free) 0x60 {} = true ∧ data (after (.txnOpen {}) (s .free)) = some (7, 0) ∧
       status (after (.txnOpen {}) (s .aborted)) = some .busy) ∧
    (let s (l : List Action) := st fun d => { d with txn := { d.txn with slot := [(0, { st := .opened, acts := l }), (1, { st := .opened })] } }
     let off := st fun d => ({ d with txn := { d.txn with slot := [(1, { st := .opened })] } } : Dev).updDomain (pdEq 63) fun x => { x with st := .off }
     let c := tci [1, 0x01050000, 0x3F00003F, 0, 0, 0, 0]
     takes (s []) 0x61 c = true ∧ recAction [0x01050000, 0x3F00003F, 0, 0, 0, 0] = some (.tsWrite 63 63 0) ∧
       (s []).dev.actHeld 1 (.tsWrite 63 63 0) = false ∧ (s []).dev.actFenced 1 (.tsWrite 63 63 0) = false ∧
       (s []).dev.actValid 1 (.tsWrite 63 63 0) = .ok ∧ data (after (.txnStage c) (s [])) = some (0, 1) ∧
       ((after (.txnStage c) (s [])).slot 1).acts = [.tsWrite 63 63 0] ∧ ((after (.txnStage c) (s [])).slot 1).dNs = 504 ∧
       (s [.tsWrite 63 63 1]).dev.actHeld 1 (.tsWrite 63 63 0) = true ∧ status (after (.txnStage c) (s [.tsWrite 63 63 1])) = some .busy ∧
       off.dev.actFenced 1 (.tsWrite 63 63 0) = true ∧ status (after (.txnStage c) off) = some .fenced ∧
       status (after (.txnStage (tci [2, 0x01050000, 0, 0, 0, 0, 0])) (s [])) = some .badOperand) ∧
    (let s (x : TxnSt) := st fun d => { d with txn := { d.txn with slot := [(1, { st := x, kind := 3, detail := 7 })] } }
     takes (s .opened) 0x63 (tci [1]) = true ∧ ((after (.txnAbort (tci [1])) (s .opened)).slot 1).st = .aborted ∧
       status (after (.txnAbort (tci [1])) (s .voted)) = some .busy ∧
       takes (s .applied) 0x64 (tci [1]) = true ∧ ((after (.txnRelease (tci [1])) (s .applied)).slot 1).st = .free ∧
       ((after (.txnRelease (tci [1])) (s .aborted)).slot 1).st = .free ∧ ((after (.txnRelease (tci [1])) (s .outstep)).slot 1).st = .free ∧
       status (after (.txnRelease (tci [1])) (s .committed)) = some .busy ∧ takes (s .ready) 0x65 (tci [1]) = true ∧
       ((data (after (.txnQuery (tci [1])) (s .ready))).map (·.2)) = some 7) ∧
    (let s (x : EngSt) := st fun d => ({ d with txn := { d.txn with oosTxn := true } } : Dev).setEngine 0 { st := x }
     takes (s .idle) 0x66 {} = true ∧ (s .idle).dev.allHalted = true ∧ (after (.txnClearOos {}) (s .idle)).txn.oosTxn = false ∧
       status (after (.txnClearOos {}) (s .wait)) = some .busy) := by decide +kernel

/-- An immediate commit, one at a count, one too late; a PREPARE; a DISTRIBUTED commit of the device alone, of two, and out of step. -/
theorem wit_TransactionCommits :
    (let s := st fun d => { d with txn := { d.txn with slot := [(1, { st := .opened, acts := [.tsWrite 63 63 0] })] } }
     let imm := tci [1]
     let at51 := tci [0x11, 51, 0]
     let late := tci [0x11, 0, 0]
     takes s 0x62 imm = true ∧ commitForm imm = true ∧ s.dev.slotFences 1 = false ∧ s.dev.noc.held = [] ∧
       ((after (.txnCommit imm) s).slot 1).target = { gci := 51 } ∧ takes s 0x62 at51 = true ∧
       s.dev.targetStatus { gci := 51 } = .ok ∧ s.dev.beatsOf 504 = 51 ∧ s.dev.beatsTo { gci := 51 } = 51 ∧
       ((after (.txnCommit at51) s).slot 1).st = .committed ∧ s.dev.targetStatus {} = .late ∧
       status (after (.txnCommit late) s) = some .late) ∧
    (let s (oos : Bool) := st fun d => { d with
       txn := { d.txn with slot := [(1, { st := .opened })], oosTxn := oos }
       time := { d.time with role := .root, started := true }
       byt := { d.byt with eligible := true, dir := [(0, { present := true, eligible := true }), (3, { present := true, eligible := true })] } }
     let prep := tci [0x31, 1000, 0, 9]
     let own := tci [0x221, 1000, 0, 9, 1, 0]
     let both := tci [0x221, 1000, 0, 9, 2, 0x00030000]
     takes (s false) 0x62 prep = true ∧ commitForm prep = true ∧ ((after (.txnCommit prep) (s false)).slot 1).st = .ready ∧
       takes (s false) 0x62 own = true ∧ commitForm own = true ∧ takes (s false) 0x62 both = true ∧
       ((after (.txnCommit own) (s false)).slot 1).st = .committed ∧ ((after (.txnCommit both) (s false)).slot 1).st = .preparing ∧
       ((after (.txnCommit both) (s false)).slot 1).participants = [0, 3] ∧ ((after (.txnCommit both) (s true)).slot 1).cause = .outOfStep ∧
       ((after (.txnCommit (tci [0x21, 1000, 0, 9])) (s false)).slot 1).participants = [0, 3]) := by decide +kernel

/-- The least time before the target, a delivered timing set, a missing vote, too little time, a PREPARE, a NO and a YES of two
participants, and a decision in time and too late. -/
theorem wit_DistributedCommits :
    (let s (x : TxnSlot) := st fun d => ({ d with txn := { d.txn with slot := [(7, x)] } } : Dev).updPort 0 fun x => { x with role := .upstream }
     let x : TxnSlot := { st := .committed, kind := 1, acts := [.tsWrite 5 6 77], dNs := 500, target := { gci := 150 } }
     (s x).dev.live = true ∧ (s x).dev.noc.held = [] ∧ (s x).dev.beatsTo x.target = (s x).dev.beatsOf (x.dNs + 1000) ∧
     ((after (.deliveryStart 7) (s x)).slot 7).delivering = true ∧
     ((after (.deliveryDone 7) (s { x with delivering := true })).channel 6).shadow 5 = 77 ∧
     ((after (.deliveryDone 7) (s { x with delivering := true })).slot 7).delivered = true) ∧
    (let s (x : TxnSlot) := st fun d => ({ d with
       txn := { d.txn with slot := [(7, x)] }, time := { d.time with role := .root } } : Dev).updPort 0 fun x => { x with role := .downstream }
     let x : TxnSlot := { st := .preparing, kind := 2, xid := 9, participants := [3, 4], target := { gci := 1000 } }
     let vote (yes : Bool) : Frame := { dir := .up, src := 3, msg := .vote 9 yes .busy 8 }
     (s x).dev.inTime 7 = true ∧ ((after (.voteTimeout 7) (s x)).slot 7).detail = 3 ∧ ((after (.voteTimeout 7) (s x)).slot 7).cause = .timeout ∧
     (s { x with target := { gci := 1 } }).dev.inTime 7 = false ∧
     ((after (.coordinatorLate 7) (s { x with target := { gci := 1 } })).slot 7).cause = .late ∧
     (s x).dev.hears 0 (vote true) = true ∧ (vote true).src.toNat ≠ (s x).dev.ownAddr ∧
     ((after (.vote 0 (vote false)) (s x)).slot 7).cause = .busy ∧ ((after (.vote 0 (vote true)) (s x)).slot 7).st = .preparing ∧
     ((after (.vote 0 (vote true)) (s x)).slot 7).votes = [{ addr := 3, yes := true, dNs := 8 }]) ∧
    (let s (x : TxnSlot) := st fun d => ({ d with
       txn := { d.txn with slot := [(7, x)] }, byt := { d.byt with eligible := true } } : Dev).updPort 0 fun x => { x with role := .upstream }
     let x : TxnSlot := { st := .ready, kind := 3, xid := 9, target := { gci := 1000 } }
     let f : Frame := { dir := .bcast, src := 3, msg := .prepare 9 0 1000 .all }
     let g (c : Bool) : Frame := { dir := .bcast, src := 3, msg := .decision 9 c .busy 0 .all }
     let v : TxnSlot := { x with st := .voted, dNs := 500 }
     (s x).dev.hears 0 f = true ∧ (s x).dev.targetStatus x.target = .ok ∧ (s x).dev.pwr.reqs = [] ∧
     ((after (.prepare 0 f) (s x)).slot 7).st = .voted ∧ (s v).dev.timeLeft v.target (1000 * v.dNs) = true ∧
     ((after (.decision 0 (g true)) (s v)).slot 7).st = .committed ∧ ((after (.decision 0 (g false)) (s v)).slot 7).cause = .busy ∧
     (s { v with dNs := 20000 }).dev.timeLeft v.target 20000000 = false ∧
     ((after (.decision 0 (g true)) (s { v with dNs := 20000 })).slot 7).st = .voted) := by decide +kernel

/-! ## The Byith link -/

/-- The stages of training and a timeout; a HELLO on a downstream device, one after it, and one on the root. -/
theorem wit_LinkTraining :
    (let s (x : Nat) := st fun d => d.updPort 3 fun p => { p with role := .training, stage := x }
     (s 1).dev.live = true ∧ (s 1).dev.domOn pdBy = true ∧ ((after (.trainingStageDone 3) (s 1)).port 3).stage = 2 ∧
     ((after (.trainingStageDone 3) (s 2)).port 3).stage = 3 ∧ (after (.trainingStageDone 3) (s 2)).byt.sent.length = 1 ∧
     ((s 4).dev.port 3).enabled = true ∧ ((after (.trainingTimeout 3) (s 4)).port 3).stage = 1 ∧
     ((after (.trainingTimeout 3) (s 4)).port 3).retrain = 1) ∧
    (let s (r : Role) (up : Option Nat) := st fun d => ({ d with
       time := { d.time with role := r }, byt := { d.byt with upPort := up } } : Dev).updPort 3 fun p => { p with role := .training, stage := 3 }
     let f (a : Option (BitVec 10)) : Frame := { msg := .hello 5 a 14 false 0 }
     (s .downstream none).dev.hears 3 (f (some 1)) = true ∧
     ((after (.hello 3 (f (some 1))) (s .downstream none)).port 3).role = .upstream ∧
     (after (.hello 3 (f (some 1))) (s .downstream none)).byt.depth = 15 ∧
     ((after (.hello 3 (f (some 1))) (s .downstream (some 0))).port 3).role = .blocked ∧
     ((after (.hello 3 (f none)) (s .root none)).port 3).role = .downstream) := by decide +kernel

/-- The echoes up to the 256th; the lowest address after a taken one, at the greatest depth; the answers of the root. -/
theorem wit_LinkJoin :
    (let s (n : Nat) := st fun d => ({ d with byt := { d.byt with upPort := some 3 } } : Dev).updPort 3 fun p => { p with
       role := .upstream, stage := 4, echoCount := n, echoSum := 255 * 2000 }
     let f : Frame := { msg := .echoRsp 9 4 }
     let g : Frame := { seq := 6, msg := .echoReq 9 }
     (s 254).dev.hears 3 f = true ∧ (after (.echoSend 9) (s 254)).byt.sent.length = 1 ∧
     ((after (.echoReq 3 g 4) (s 254)).byt.sent.map fun x => x.2.msg) = [.ack, .echoRsp 9 4] ∧
     ((after (.echoRsp 3 f 20) (s 254)).port 3).echoCount = 255 ∧ ((after (.echoRsp 3 f 20) (s 255)).port 3).latPs = 8 ∧
     (after (.echoRsp 3 f 20) (s 255)).byt.jstate = .joining) ∧
    (let s := st fun d =>
       let d := ((d.updPort 3 fun p => { p with role := .downstream }).updDir 0 fun e => { e with present := true }).updDir 1 fun e =>
         { e with present := true, uid := 4 }
       let d := (((d.setLoop 0 { state := .locked }).setLoop 1 { state := .locked }).setLoop 2 { state := .locked }).setLoop 3 { state := .locked }
       { d with time := { d.time with role := .root } }
     let f : Frame := { msg := .joinReq 77 0 12 900 }
     s.dev.hears 3 f = true ∧ s.dev.byt.addr = 0 ∧ s.dev.tpllsLocked = true ∧ (s.dev.dirEnt 1).present = true ∧ (s.dev.dirEnt 2).present = false ∧
     ((after (.joinReq 3 f) s).dirEnt 2).uid = 77 ∧ ((after (.joinReq 3 f) s).dirEnt 2).depth = 12) ∧
    (let s (j : JState) := st fun d => ({ d with
       byt := { d.byt with upPort := some 3, jstate := j }, time := { d.time with role := .downstream } } : Dev).updPort 3 fun p => { p with role := .upstream }
     let f : Frame := { msg := .joinAck 0 1023 }
     let g : Frame := { msg := .joinRefuse 0 .refused }
     (s .joining).dev.hears 3 f = true ∧ (after (.joinAck 3 f) (s .joining)).byt.addr = 1023 ∧
     (after (.joinAck 3 f) (s .joining)).byt.loadNext = true ∧ (after (.joinRefuse 3 g) (s .joining)).byt.jstate = .refused ∧
     (after .joinRetry (s .refused)).byt.jstate = .joining) := by decide +kernel

/-- An upstream port that goes down, an ACK, the third and the fifth resend, a bad frame at the limit of its counter, and the three
forms of BYT_PORT_CTL. -/
theorem wit_LinkPorts :
    (let f : Frame := { seq := 6, msg := .ready 1 }
     let s (n : Nat) := st fun d => ({ d with byt := { d.byt with upPort := some 3, aligned := true, addr := 9 } } : Dev).updPort 3 fun p =>
       { p with role := .upstream, unacked := [{ frame := f, resends := n }], frames := 65535 }
     (s 3).dev.live = true ∧ (s 3).dev.noc.held = [] ∧ (after (.portDown 3) (s 3)).byt.aligned = false ∧
     (after (.portDown 3) (s 3)).byt.addr = 0 ∧ ((after (.portDown 3) (s 3)).port 3).stage = 1 ∧
     (s 3).dev.hears 3 { seq := 6, msg := .ack } = true ∧ ((after (.ack 3 { seq := 6, msg := .ack }) (s 3)).port 3).unacked = [] ∧
     ((after (.ackTimeout 3 6) (s 3)).port 3).unacked = [{ frame := f, resends := 4 }] ∧
     ((after (.ackTimeout 3 6) (s 4)).port 3).role = .training ∧ ((after (.badFrame 3 { blocks := [{ sync := 2, bits := 0x78 }] }) (s 3)).port 3).frames = 65535) ∧
    (let r : Received := { blocks := [{ sync := 2, bits := 0x78 }] }
     let s (l : List Nat) := st fun d => ({ d with time := { d.time with ticks := 100000 } } : Dev).updPort 3 fun p =>
       { p with role := .upstream, drops := l }
     receivedBad r = (1, 0) ∧ (s []).dev.beatsOf 1000000 = 100000 ∧ ((after (.badFrame 3 r) (s [])).port 3).drops = [100000] ∧
     ((after (.badFrame 3 r) (s (List.replicate 15 1))).port 3).dropEv = some 100000 ∧
     ((after (.badFrame 3 r) (s (List.replicate 15 0))).port 3).dropEv = none ∧
     receivedBad { blocks := [{ sync := 2, bits := 0xFF }] } = (0, 1)) ∧
    (let s := st fun d => d.updPort 3 fun p => { p with enabled := false }
     takesAt s pdBy 0xC2 (tci [3]) = true ∧ ((after (.bytPortCtl (tci [3])) s).port 3).stage = 1 ∧
     takesAt s pdBy 0xC2 (tci [7]) = true ∧ ((after (.bytPortCtl (tci [7])) s).port 3).role = .down ∧
     takesAt s pdBy 0xC2 (tci [15]) = true ∧ status (after (.bytPortCtl (tci [15])) s) = some .badOperand) := by decide +kernel

/-- A marker sent; the first of a device, the fifteenth and sixteenth good ones, one that differs; the third and fourth missing ones;
a realignment and a reload at the least distance. -/
theorem wit_MarkersAndCount :
    (let s := st fun d => ({ (((d.setLoop 0 { state := .locked }).setLoop 1 { state := .locked }).setLoop 2 { state := .locked }).setLoop 3 { state := .locked } with
       time := { d.time with started := true, gci := 0x301 } } : Dev).updPort 1 fun p => { p with role := .downstream }
     s.dev.live = true ∧ s.dev.noc.held = [] ∧ s.dev.byt.newEpoch = false ∧ s.dev.byt.sumIntv = 0 ∧ s.dev.downPorts = [1] ∧ s.dev.beatLocked = true ∧
     ((after (.markSend 5) s).byt.sent.map fun x => x.2.msg) = [.mark { gci := 0x300, offset := 5, hold := false }]) ∧
    (let s (load al started : Bool) (good lat : Nat) := st fun d => ({ d with
       time := { d.time with role := .downstream, started := started, gci := 0x301 }
       byt := { d.byt with upPort := some 1, loadNext := load, aligned := al, good := good, jstate := .joined } } : Dev).updPort 1 fun p =>
         { p with role := .upstream, latPs := lat }
     let f : Frame := { msg := .mark { gci := 0x300 } }
     (s true false false 0 10000).dev.hears 1 f = true ∧ (s true false false 0 10000).dev.placeEdge 1 { gci := 0x300 } 0 = (1, true) ∧
     (after (.mark 1 f 0) (s true false false 0 10000)).time.gci = 0x301 ∧
     markCount { gci := 0x300 } 1 = (0, 0x301) ∧ (after (.mark 1 f 0) (s false false true 14 10000)).byt.aligned = false ∧
     (after (.mark 1 f 0) (s false false true 15 10005)).byt.aligned = true ∧
     (after (.mark 1 f 0) (s false false true 15 10006)).byt.aligned = false ∧ markCount { gci := 0x300 } 2 ≠ (0, 0x301) ∧
     (after (.mark 1 f 0) (s false true true 16 20000)).txn.oosBeat = true) ∧
    (let s (n : Nat) := st fun d => { d with
       time := { d.time with role := .downstream }, byt := { d.byt with upPort := some 1, aligned := true, missing := n } }
     (after .markMissing (s 2)).byt.aligned = true ∧ (after .markMissing (s 3)).byt.aligned = false) ∧
    (let s (b : Bool) (x : EngSt) := st fun d => ({ d with
       txn := { d.txn with oosBeat := b }, byt := { d.byt with aligned := true } } : Dev).setEngine 0 { st := x }
     takesAt (s true .idle) pdBy 0xC1 {} = true ∧ (s true .idle).dev.allHalted = true ∧
     (after (.bytRealign {}) (s true .idle)).byt.aligned = false ∧ status (after (.bytRealign {}) (s true .run)) = some .busy ∧
     status (after (.bytRealign {}) (s false .run)) = some .ok) ∧
    (let s (r : Role) := st fun d => { d with time := { d.time with role := r } }
     let c := tci [100, 0, 7, 0]
     takesAt (s .root) pdBy 0xC0 c = true ∧ (s .root).dev.beatsOfPs (2 * (s .root).dev.treeLat + 1000000) = 100 ∧
     (s .root).dev.targetStatus { gci := 100 } = .ok ∧ (after (.bytEpochReload c) (s .root)).time.reload = some { target := 100, newGci := 7 } ∧
     status (after (.bytEpochReload c) (s .downstream)) = some .refused ∧
     status (after (.bytEpochReload c) { s .root with dev := after (.bytEpochReload c) (s .root) }) = some .busy) := by decide +kernel

/-- READY, NOTREADY, LEAVE of a device and its child, a summary, an event into the last place of the ring and one that is dropped; a
TOPO entry; a word of a group. -/
theorem wit_DirectoryAndData :
    (let s (h : BitVec 8) := st fun d =>
       let d := ((d.updPort 1 fun p => { p with role := .downstream }).updDir 5 fun e => { e with present := true, depth := 1 }).updDir 6 fun e =>
         { e with present := true, depth := 2, parent := 5 }
       { d with time := { d.time with role := .root }, byt := { d.byt with fwdHead := h } }
     let f (m : ByMsg) : Frame := { dir := .up, src := 5, msg := m }
     (s 0).dev.live = true ∧ (s 0).dev.hears 1 (f (.ready 6)) = true ∧ (s 0).dev.ownAddr = 0 ∧
     ((after (.ready 1 (f (.ready 6))) (s 0)).dirEnt 6).ready = true ∧
     ((after (.notready 1 (f (.notReady 6 1))) (s 0)).dirEnt 6).eligible = false ∧ (s 0).dev.subtree 5 = [5, 6] ∧
     ((after (.leave 1 (f (.leave 5))) (s 0)).dirEnt 6).present = false ∧
     Store.get (fun _ => (0 : QWord)) (after (.summary 1 (f (.summary 77))) (s 0)).byt.sumTab 5 = 77 ∧
     (after (.event 1 (f (.event 7))) (s 127)).byt.fwdHead = 128 ∧ (after (.event 1 (f (.event 7))) (s 128)).byt.fwdDrop = 1) ∧
    (let s := st fun d => d.updPort 1 fun p => { p with role := .upstream }
     let f : Frame := { dir := .bcast, src := 5, msg := .topo [{ addr := 1023, depth := 3, parent := 5, latPs := 9 }] false }
     s.dev.hears 1 f = true ∧ ((after (.topo 1 f) s).dirEnt 1023).parent = 5) ∧
    (State.reset.dev.tested pdBy = false ∧ (State.reset.dev.domain pdBy).closed = false ∧
     fld (Store.get (fun _ => (0 : BitVec 1024)) (after (.bytGroupWrite 255 31 7) State.reset).byt.group 255) 992 32 = 7) := by
  decide +kernel

/-! ## Configuration and the fabric -/

/-- A stream header for region 5 with no frame and no key, its CRC word computed. -/
def header : List Byte :=
  let ws : List Word := [0x43465654, 0x16403C9B, 2, 0x10500, 0, 0, 0, 0, 0, 0, 0, 0, 77, 0, 0]
  (ws ++ [crcWords ws]).flatMap fun w => leBytes 4 w.toNat

/-- The same load in its second pass. -/
def load2 : Load :=
  { owner := { gen := 1 }, src := 2, addr := 0, len := 64, full := false, region := 5, toActive := false, keysel := 0, frames := 0,
    nonce := [], su := 0, tpllWait := false, sid := 77, hdr := header, pass := 2 }

/-- A region load taken, one of a broken header, one too short, one of a source that does not exist and one that waits; a swap of a
checked plane, a key for a free slot and for a used one, and ENCONLY. -/
theorem wit_ConfigurationCommands :
    (let s (h : List Byte) := st fun d => { d with vmi := { d.vmi with cap := 1, ready := true, training := false, mem := wrBytes [] 0 h } }
     let c := tci [2, 0, 0, 64]
     takes (s header) 0x70 c = true ∧ ((s header).dev.domain pdVmi).closed = false ∧ (s header).dev.regionHeld 5 = false ∧
     (s header).dev.domOn (pdRg 5) = true ∧ rdBytes (s header).dev.vmi.mem 0 64 = header ∧ headerStatus (s header).otp header = .ok ∧
     ((after (.cfgLoad c .done) (s header)).cfg.load.map (·.region)) = some 5 ∧
     status (after (.cfgLoad (tci [2, 0, 0, 63]) .done) (s header)) = some .shortStream ∧
     data (after (.cfgLoad (tci [3, 0, 0, 64]) .done) (s header)) = some (0xFFFFFF, 0) ∧
     (after (.cfgLoad (tci [0, 0, 0, 64]) .done) (s header)).cmd.parked.length = 1 ∧
     headerStatus (s header).otp (header.set 8 0) = .streamError ∧
     (after (.cfgLoad c .done) (s (header.set 8 0))).cfg.lstatus = .streamError) ∧
    (let s := st fun d => ({ d with cfg := { d.cfg with checked := 0x8000 } } : Dev).updPlane 15 1 fun p => { p with valid := true }
     let c := tci [15]
     takes s 0x71 c = true ∧ s.dev.swapStatus 15 (s.dev.regionHeld 15) = .ok ∧
     State.reset.dev.swapStatus 15 false = .badOperand ∧ status (after (.cfgSwap c) State.reset) = some .badOperand) ∧
    (let c := tci [1, 1, 2, 3, 4, 5, 6, 7, 8]
     let used : State := { State.reset with otp := { State.reset.otp with keys := [(1, { gens := 4 })] } }
     takes State.reset 0x73 c = true ∧
     ((Store.get (fun _ => ({} : KeySlot)) (otpAfter (.cfgKeyProg c (.passed 0)) State.reset).keys 1).key.map fun k => fld k 224 32) = some 8 ∧
     status (after (.cfgKeyProg c (.passed 0)) used) = some .refused ∧
     takes State.reset 0x74 {} = true ∧ (otpAfter (.cfgEnconly {}) State.reset).encOnly = true) := by decide +kernel

/-- A first pass too short and one with a read error, a second pass, its read error, and an abort. -/
theorem wit_LoadPasses :
    (let s (l : Load) := st fun d => { d with
       vmi := { d.vmi with cap := 1, ready := true, training := false }, cfg := { d.cfg with load := some l } }
     let short : Load := { load2 with pass := 1, len := 63 }
     (s short).dev.live = true ∧ (after (.loadPass1Done none .done) (s short)).cfg.lstatus = .shortStream ∧
     (after (.loadPass1Done (some 0) .done) (s { load2 with pass := 1 })).cfg.lstatus = .mediaError ∧
     load2.seen = rdBytes (s load2).dev.vmi.mem 64 (streamLen 0 0) ∧ (after (.loadPass2Done none .done) (s load2)).cfg.lstatus = .ok ∧
     ((after (.loadPass2Done none .done) (s load2)).shdPlane 5).sid = 77 ∧
     (after (.loadPass2Done (some 9) .done) (s load2)).cfg.errPos = 9 ∧ takes (s load2) 0x72 {} = true ∧
     (after (.cfgAbort {}) (s load2)).cfg.lstatus = .aborted) := by decide +kernel

/-- The write-enable step with the longest delay, without one, and as the last; a lock that is awaited; both results of a check; the
store of the selections; the end of a hold. -/
theorem wit_StartUpAndHolds :
    (let s (i delay : Nat) := st fun d => { d with cfg := { d.cfg with
       startup := true, suStep := i, su := BitVec.ofNat 64 (at' (16 * i) (2 * 2 ^ 14 + delay)) } }
     (s 0 16383).dev.live = true ∧ (suSteps (s 0 16383).dev.cfg.su).getD 0 (0, 0) = (2, 16383) ∧
     (after .startupStep (s 0 16383)).cfg.suWait = some 16383 ∧ (suSteps (s 2 0).dev.cfg.su).getD 2 (0, 0) = (2, 0) ∧
     (after .startupStep (s 2 0)).cfg.suStep = 3 ∧ (suSteps (s 3 0).dev.cfg.su).getD 3 (0, 0) = (2, 0) ∧
     (after .startupStep (s 3 0)).cfg.done = true) ∧
    (let s := st fun d => { d with cfg := { d.cfg with startup := true } }
     (suSteps s.dev.cfg.su).getD 0 (0, 0) = (0, 0) ∧ (s.dev.loop 5).state ≠ .locked ∧ after .startupStep s = s.dev) ∧
    (let s := st fun d => ({ d with cfg := { d.cfg with done := true, checked := 0x7FFF } } : Dev).updPlane 15 1 fun p => { p with valid := true }
     s.dev.loadTouches 15 = false ∧ bit (after (.shadowCheck 15 true) s).cfg.checked 15 = true ∧
     (s.dev.shdPlane 15).valid = true ∧ ((after (.shadowCheck 15 false) s).shdPlane 15).valid = false) ∧
    (let s := st fun d => { d with cfg := { d.cfg with active := 0x8000, storing := 0x8000 } }
     (after .activeStore s).cfg.stored = 0x8000 ∧ (after .activeStore s).cfg.storing = 0) ∧
    (let s := st fun d => ({ d with
       cfg := { d.cfg with blank := false }, fab := { d.fab with outRel := true } } : Dev).updPlane 15 0 fun p => { p with valid := true }
     (s.dev.fabRegion 15).hold = true ∧ (s.dev.actPlane 15).valid = true ∧ s.dev.domOn (pdRg 15) = true ∧
     ((after (.holdEnd 15) s).fabRegion 15).hold = false) := by decide +kernel

/-- Net 0 at rest and running: a half that loads its bypass inputs, one that holds, one that resets; a memory
port that writes the last bit, one that reads, one that is off; a word cell that keeps its accumulator. -/
theorem wit_FabricEdges :
    (State.reset.dev.netRuns 0 = false ∧ after (.globalNetEdge 0 true []) State.reset = State.reset.dev) ∧
    (let s := st fun d => (({ d with
       fab := { d.fab with gclk := [(0, 0x81000000)], edges := [(480, 2)], ff := [(16 * 12287 + 9, some true)] } } : Dev).setLoop 5
         { state := .locked }).updPlane 15 0 fun p => { p with valid := true }
     let s : State := { s with dev := s.dev.gsrRelease 15 }
     let i (ce sr : Bool) : Instr := .globalNetEdge 0 true [.half 12287 1 ce sr]
     s.dev.netRuns 0 = true ∧ s.dev.elem 15 4 1535 % 32 = 0 ∧ (s.dev.elem 15 5 1535 % 2 == 0) = true ∧ (s.dev.fabRegion 15).gsr = false ∧
     s.dev.tested (pdRg 15) = false ∧ (s.dev.actPlane 15).valid = true ∧ s.dev.ffVal 12287 9 = true ∧
     (after (i false false) s).ffVal 12287 9 = true ∧ (after (i true false) s).ffVal 12287 9 = false ∧
     (after (i true true) s).ffVal 12287 9 = s.dev.ffInit 12287 9) ∧
    (let s := st fun d => (({ d with fab := { d.fab with gclk := [(0, 0x81000000)], edges := [(480, 2)], acc := [(12287, 5)], writeEn := true } } : Dev).setLoop 5
         { state := .locked }).updPlane 15 0 fun p => { p with valid := true }
     let s : State := { s with dev := { s.dev.updFabRegion 15 fun r => { r with hold := false, gsr := false } with cfg := { s.dev.cfg with blank := false } } }
     let w (en : Bool) (we : BitVec 8) : Instr := .globalNetEdge 0 true [.mem 15 23 1 en we 32767 1 false]
     s.dev.netRuns 0 = true ∧ s.dev.elem 15 11 47 % 32 = 0 ∧ s.dev.elem 15 12 47 % 7 = 0 ∧
     (after (w true 1) s).memBit 383 32767 = true ∧ (after (w true 0) s).memBit 383 32767 = false ∧
     (after (w false 1) s).memBit 383 32767 = false ∧ ((after (w true 1) s).memPort 383 1).q = 1 ∧
     (after (.globalNetEdge 0 true [.cell 12287 1 2 0 true true]) s).acc 12287 = s.dev.acc 12287) := by decide +kernel

/-- A line that rises; FXIN in and out of hold; FAB_GCLK and FAB_RCTL at the ends of their codes. -/
theorem wit_FabricLines :
    (let s := st fun d => d.updFabRegion 15 fun r => { r with hold := false }
     s.dev.inHold (31 / 2) = false ∧ ((after (.eventLine 31 true) s).evtLast 111).payload = payload .ok 1 31 ∧
     bit (after (.eventLine 31 true) s).evt.stat 111 = true ∧ s.dev.inHold (63 / 4) = false ∧
     ((after (.fxinWrite 63 9) s).engine 63).fxin = 9 ∧ bit ((after (.fxinWrite 63 9) s).engine 63).a.flags 10 = true ∧
     State.reset.dev.inHold 0 = true ∧ after (.fxinWrite 0 9) State.reset = State.reset.dev) ∧
    (State.reset.dev.mode.mode ≠ 5 ∧ State.reset.dev.pendMode = none ∧ (after (.fabGclkWrite 31 0x85000003) State.reset).gclk 31 = 0x85000003 ∧
     (after (.fabGclkWrite 31 0x86000000) State.reset).gclk 31 = 0x86000000 ∧ (after (.fabGclkWrite 31 0x85000002) State.reset).fab.werr = true ∧
     (after (.fabGclkWrite 31 0x87000003) State.reset).fab.werr = true ∧ ((after (.fabRctlWrite 15 0x1FAAA) State.reset).fabRegion 15).rctl = 0x1FAAA ∧
     (after (.fabRctlWrite 15 0xC00) State.reset).fab.werr = true ∧ (after (.fabRctlWrite 15 0x20000) State.reset).fab.werr = true) := by decide +kernel

/-! ## The network on chip and the power domains -/

/-- Requests of SRC 6 to the last line of the Steward SRAM; a closed edge; the first reserved CMD. -/
theorem wit_NocRequests :
    (let s := st fun d => { d with stw := { d.stw with sram := wr128 [] 0x3FFF0 0x0000000F } }
     let p : Packet := { dx := 1, tag := 1023, src := 6, len := 1, addr := 0x1003FFF0 }
     let x : Packet := { p with be := 0x000F, data := [3] }
     let last (c : Instr) : Option (Nat × List QWord) := (after c s).noc.sent.getLast?.map fun r => (r.status.toNat, r.data)
     s.dev.live = true ∧ srcDomain 6 = none ∧ (s.dev.way 1 12 (6 * (srcRouter 6).2 + (srcRouter 6).1) 0).2 = none ∧
     s.dev.tagSt (tagKey p) = .free ∧ targetOf 1 0 0x1003FFF0 = .sram 0x3FFF0 ∧ last (.read p) = some (0, [0xF]) ∧
     rd128 (after (.write { p with data := [77] }) s).stw.sram 0x3FFF0 = 77 ∧
     rd128 (after (.writePosted { p with data := [78] }) s).stw.sram 0x3FFF0 = 78 ∧ last (.atomicOr x) = some (0, [0xF]) ∧
     rd128 (after (.atomicOr x) s).stw.sram 0x3FFF0 = 0xF ∧ rd128 (after (.atomicAdd x) s).stw.sram 0x3FFF0 = 0x12 ∧
     rd128 (after (.atomicSwap x) s).stw.sram 0x3FFF0 = 3 ∧
     rd128 (after (.atomicCas { x with data := [BitVec.ofNat 128 (3 + 15 * 2 ^ 64)] }) s).stw.sram 0x3FFF0 = 3 ∧
     rd128 (after (.atomicCas x) s).stw.sram 0x3FFF0 = 0xF ∧ last (.flush p) = some (0, [])) ∧
    (let s := st fun d => d.updDomain pdNvs fun x => { x with st := .changing, closed := true }
     let p : Packet := { dx := 2, src := 6, len := 1, addr := BitVec.ofNat 48 nvBase, data := [] }
     targetOf 2 0 nvBase = .nv ∧ (s.dev.way 2 12 (6 * (srcRouter 6).2 + (srcRouter 6).1) 0).2 = none ∧ s.dev.tested pdNvs = false ∧
     ((after (.read p) s).noc.sent.map (·.status.toNat)) = [Status.fenced.code] ∧
     ((after (.nocReservedCmd 1 10 p) s).noc.sent.map (·.status.toNat)) = [Status.badOpcode.code]) := by decide +kernel

/-- A tag in use, an unused SRC, a DX of 6, a NONE entry at router 0, a domain under test, a closed edge, a wait for streams, and a SRC
inside a fenced domain. -/
theorem wit_NocArrivals :
    (let p : Packet := { dx := 1, tag := 1023, src := 6, len := 1, addr := 0x1003FFF0 }
     let last (c : Instr) (s : State) : Option Nat := (after c s).noc.sent.getLast?.map (·.status.toNat)
     let used := st fun d => d.setTag (tagKey p) .outstanding
     let v : Packet := { p with dx := 1, dy := 5, addr := 0 }
     let test := st fun d => { d with bst := { d.bst with tests := [{ cls := 1, domain := pdVmi, mask := 1, owner := {}, running := true }] } }
     let shut := st fun d => d.updDomain pdVmi fun x => { x with closed := true }
     State.reset.dev.live = true ∧ srcDomain 6 = none ∧ after (.read p) used = used.dev ∧
     last (.read { p with src := 7 }) State.reset = some Status.badOpcode.code ∧
     last (.read { p with dx := 6 }) State.reset = some Status.noRoute.code ∧
     (State.reset.dev.way 1 12 (6 * (srcRouter 6).2 + (srcRouter 6).1) 0).2 = none ∧
     test.dev.tested pdVmi = true ∧ ((after (.read v) test).noc.held.map (·.1)) = [pdVmi] ∧
     last (.read v) shut = some Status.fenced.code ∧ (after (.writePosted { v with data := [1] }) shut).noc.postDrop = 1 ∧
     ((after (.nocReservedCmd 1 10 p) State.reset).noc.sent.map (·.status.toNat)) = [Status.badOpcode.code] ∧
     after (.nocReservedCmd 1 9 p) State.reset = State.reset.dev) := by decide +kernel

/-- Each answer of Table 15-9, at the ends of the LEN and the enables that its target takes. -/
theorem wit_NocTargets :
    (let d := State.reset.dev
     let o := State.reset.otp
     let p : Packet := { src := 6, len := 1, data := [5] }
     let last (cmd : Nat) (p : Packet) (t : Place) : Option Nat := (d.serve cmd p o t).noc.sent.getLast?.map (·.status.toNat)
     d.shutPlace (.sram 0) = false ∧ d.shutPlace (.fabric 3) = true ∧ last 0 p (.fabric 3) = some Status.busy.code ∧
     d.flushWaits p = false ∧ last 9 p (.sram 0) = some 0 ∧ Place.maxLen (.epm 0) = 4 ∧
     last 0 { p with len := 5 } (.epm 0) = some Status.errLenExceeds.code ∧ last 0 { p with len := 4 } (.epm 0) = some 0 ∧
     last 0 { p with len := 0 } (.sram 0) = some Status.badOperand.code ∧ last 5 p (.unit 0) = some Status.badOpcode.code ∧
     last 1 p (.fat 0) = some Status.badOpcode.code ∧ last 5 p .nv = some Status.badOpcode.code ∧
     last 5 p (.hostMem 0) = some Status.badOpcode.code ∧ ((d.serve 0 p o (.hostMem 0)).noc.held.map (·.1)) = [40] ∧
     last 0 p (.vector 0) = some Status.fenced.code ∧ last 0 p .nowhere = some 0 ∧
     last 5 { p with be := 0x000F } (.sram 4) = some 0 ∧ last 5 { p with be := 0x00FF } (.sram 4) = some Status.badOperand.code ∧
     last 5 { p with be := 0x0003 } (.sram 4) = some Status.badOperand.code) ∧
    (let d : Dev := { State.reset.dev with cmd := { State.reset.dev.cmd with bme := true } }
     let x := d.serve 1 { src := 6, len := 1, be := 0x00F0, data := [BitVec.ofNat 128 (7 * 2 ^ 32)] } {} (.hostMem 16)
     rd32 x.cmd.hostMem 20 = 7 ∧ (d.serve 2 { src := 6, len := 5 } {} (.epm 0)).noc.postDrop = 1) := by decide +kernel

/-- A response in time and a late one, and a timeout. -/
theorem wit_NocTags :
    (let s (t : TagSt) := st fun d => { d with noc := { d.noc with tags := [(1024 * 6 + 5, t)], late := 0xFFFFFFFF } }
     let p : Packet := { src := 6, tag := 5 }
     (s .outstanding).dev.live = true ∧ tagKey p = 6149 ∧ (after (.resp 7 p) (s .outstanding)).tagSt 6149 = .free ∧
     (after (.errResp 7 p) (s .timedOut)).noc.late = 0xFFFFFFFF ∧ (after (.nocTimeout 6 5) (s .outstanding)).tagSt 6149 = .timedOut ∧
     ((after (.nocTimeout 6 5) (s .outstanding)).evtLast 192).payload = payload .timeout 1 6) := by decide +kernel

/-- A check begun and ended well and badly, a swap of router 35, a word of its shadow table, and a probe armed. -/
theorem wit_NocTables :
    (let s (w : Store Word) := st fun d => { d with noc := { d.noc with check := some 0x800000000, shd := w } }
     (after (.nocRtCheck 8) State.reset).noc.check = some 0x800000000 ∧ (after (.nocRtCheck 8) (s [])).noc.werr = true ∧
     (s []).dev.rtBad 0x800000000 = none ∧ (after .routeCheckDone (s [])).noc.svalid = 0x800000000 ∧
     (s [(rtKey 35 0 0, 7)]).dev.rtBad 0x800000000 = some (35, 0, 0) ∧ (after .routeCheckDone (s [(rtKey 35 0 0, 7)])).noc.vstatus = .badOperand) ∧
    (let s := st fun d => { d with noc := { d.noc with svalid := 0x800000000, shd := [(rtKey 35 4 4, 9)] } }
     s.dev.routerHeld 35 = false ∧ bit s.dev.noc.swapLo 31 = false ∧ Store.get rtReset (after (.nocRtSwap 8) s).noc.act (rtKey 35 4 4) = 9 ∧
     (after (.nocRtSwap 8) s).noc.svalid = 0 ∧
     Store.get rtReset (after (.nocShadowTableWrite 35 4 4 0xFFFF) s).noc.shd (rtKey 35 4 4) = 0xFFFF) ∧
    (let s := st fun d => { d with txn := { d.txn with slot := [(0, { st := .opened, acts := [.routeSwap 1] })] } }
     s.dev.routerHeld 0 = true ∧ (after (.nocShadowTableWrite 0 0 0 1) s).noc.werr = true ∧
     ((after (.lensArm 7 0xE0000000) s).lens 7).st = 1 ∧ ((after (.lensArm 7 0xE0000000) s).lens 7).mode = 3 ∧
     ((after (.lensArm 7 0) s).lens 7).st = 0) := by decide +kernel

/-- PD_RG15 sent Off, PD_AON refused, a query; the last fence, one that a domain refuses, one that a latched wake ends, and a drain
that takes too long. -/
theorem wit_PowerRequests :
    (let c := tci [2, 0, 2]
     let r := tci [2, 1, 0]
     takes State.reset 0x80 c = true ∧ bitsOf (BitVec.ofNat 40 (2 * 2 ^ 32)) = [33] ∧ State.reset.dev.domOn 33 = true ∧
     State.reset.dev.pwrCheck 2 (BitVec.ofNat 40 (2 * 2 ^ 32)) false [0] = .ok ∧
     ((after (.pwrSet c) State.reset).domain 33).closed = true ∧ (after (.pwrSet c) State.reset).pwr.reqs.length = 1 ∧
     State.reset.dev.pwrCheck 2 1 false [0] = .badOperand ∧ status (after (.pwrSet r) State.reset) = some .badOperand ∧
     takes State.reset 0x81 (tci [1]) = true ∧ data (after (.pwrQuery (tci [1])) State.reset) = some (0, 0)) ∧
    (let r : PwrReq := { goal := .off, set := 4, draining := 4, fenced := [2] }
     let s (e : EngSt) := st fun d => (({ d with
       pwr := { d.pwr with reqs := [r] } } : Dev).setEngine 0 { st := e }).updDomain 2 fun x => { x with closed := true }
     (s .idle).dev.live = true ∧ (s .idle).dev.noc.held = [] ∧ (s .idle).dev.outstanding 2 = false ∧ (s .idle).dev.refuses r 2 = false ∧
     (s .idle).dev.levelWake 2 = none ∧ clrBit r.draining 2 = 0 ∧
     (after (.fenceComplete 2) (s .idle)).pwr.reqs = [{ r with draining := 0, agreed := true, due := 100 }] ∧
     (s .run).dev.refuses r 2 = true ∧ (after (.fenceComplete 2) (s .run)).pwr.lstatus = .refused ∧
     ((after (.fenceComplete 2) (s .run)).domain 2).closed = false ∧ (after (.drainTimeout 2) (s .idle)).noc.drainFail = true ∧
     (after (.drainTimeout 2) (s .idle)).pwr.reqs = [] ∧
     (after (.fenceComplete 2) { s .idle with dev := (s .idle).dev.updDomain 2 fun x => { x with latch := true } }).pwr.lstatus = .wakePending) := by
  decide +kernel

/-- An entry, a restore, a wake, one of a source that is not enabled, wake registers at their ends, and the timer. -/
theorem wit_WakesAndTimer :
    (let s (x : Domain) := st fun d => d.updDomain 17 fun _ => x
     ((after (.entryDone 17) (s { st := .changing, goal := .retention })).domain 17).st = .retention ∧
     ((after (.restoreDone 17) (s { st := .changing, goal := .on, closed := true })).domain 17).closed = false ∧
     ((after (.wake 17 3 true) (s { st := .off, en := 8 })).domain 17).goal = .on ∧
     after (.wake 17 4 true) (s { st := .off, en := 8 }) = (s { st := .off, en := 8 }).dev ∧
     ((after (.pwrWakeWrite 17 0xFF1F) (s {})).domain 17).en = 31 ∧ ((after (.pwrWakeWrite 17 0x8000FF1F) (s {})).domain 17).en = 31 ∧
     (after (.pwrWakeWrite 17 0x3F) (s {})).pwr.werr = true ∧ alwaysOn 17 = false ∧
     (after (.pwrTimerWrite 0x80FFFFFF) (s {})).pwr.countUs = 0xFFFFFF ∧
     (after .pwrTimerExpired { s {} with dev := after (.pwrTimerWrite 0x80000001) (s {}) }).pwr.expired = true) := by decide +kernel

/-! ## Pins, supply and TAP -/

/-- Power-on with and without RESET_N, with VREF_IO at 3.3 V, the lockout, both edges of RESET_N, and the shutdown's hold. -/
theorem wit_SupplyAndReset :
    (let s (p r : Bool) := st fun d => { d with pin := { d.pin with powered := p, reset := r } }
     let t (c : Int) := st fun d => { d with pin := { d.pin with powered := false, reset := true, vin := true, thermal := true, temp := c } }
     (after (.powerOn true true 0 0) (s false true)).pin.powered = true ∧ (after (.powerOn true true 0 0) (s false true)).live = false ∧
     (after (.powerOn true true 0 0) (s false true)).pin.vref33 = true ∧ (after (.powerOn true false 0 0) (s false false)).live = true ∧
     (s false false).dev.pin.thermal = false ∧ (State.reset.otp.recs.getLast?.map (·.todo)) = some [] ∧ (after .lockout (s true false)).pwr.lockout = true ∧
     (after .resetNAssert (s true false)).pin.reset = true ∧ (after (.resetNRelease true 0 0) (s true true)).live = true ∧
     (after (.resetNRelease true 0 0) (t 109)).pin.powered = true ∧ (after (.resetNRelease true 0 0) (t 110)).pin.powered = false ∧
     (after (.powerOn true true 0 0) (t 110)).pin.powered = false) := by decide +kernel

/-- A droop and its end at their thresholds, both rail faults, the temperature over and back, and the shutdown. -/
theorem wit_RailsAndTemperature :
    (let s := State.reset
     s.dev.live = true ∧ s.dev.pwr.droopMv = 4400 ∧ (after (.droop 4399) s).pwr.droop = true ∧
     ((after (.droop 4399) s).evtLast 248).payload = payload .ok 1 43 ∧ (after (.droop 4400) s).pwr.droop = false ∧
     (after (.railFault 7 false) s).pwr.rail = 0x80 ∧ (after (.railFault 7 true) s).pin.powered = false ∧
     (after (.thermal 116) s).pin.band = 2 ∧ (after (.thermal 115) s).pin.band = 1 ∧ (after (.thermal 110) s).pin.band = 1 ∧
     (after (.thermal 109) s).pin.band = 0 ∧ s.dev.fuse.gradeX = true ∧
     (after (.thermalShutdown 130) s).pin.thermal = true ∧ (after (.thermalShutdown 129) s).pin.thermal = false) ∧
    (let s := st fun d => { d with pwr := { d.pwr with droop := true, seen := true }, pin := { d.pin with band := 2 } }
     (after (.droopClear 4600) s).pwr.droop = false ∧ (after (.droopClear 4599) s).pwr.droop = true ∧
     (after (.thermal 105) s).pin.band = 0 ∧ (after (.thermal 106) s).pin.band = 2) := by decide +kernel

/-- SAFE_N over a moving engine, its release, EXTEST, the TAP's other instructions, and a private one that is closed. -/
theorem wit_SafeAndTap :
    (let s := st fun d => d.setEngine 63 { st := .run }
     s.dev.live = true ∧ s.dev.pin.safeN = false ∧ ((after .safeNAssert s).engine 63).stops = [1] ∧
     ((after .safeNAssert s).channel 63).inSafe = true ∧ (after .extest s).pin.safeN = true ∧ (after .extest s).tap.ir = 0) ∧
    (let s := st fun d => { d with pin := { d.pin with safeN := true, safePin := true } }
     s.dev.tap.ir ≠ 0 ∧ (after .safeNRelease s).pin.safeN = false) ∧
    (let s := State.reset
     s.dev.pin.powered = true ∧ (after .bypass s).tap.ir = 0xFF ∧ (after (.samplePreload { dOut := 5 } { ch := 6 }) s).tap.bsr.dOut = 5 ∧
     (after .idcode s).tap.idReg = 0x16403C9B ∧
     s.otp.jtagOpen = false ∧ (after (.nocacc 0 true 0 0) s).tap.ir = 0xFF) := by decide +kernel

/-- A life-cycle state in which JTAG is open: a write to the SRAM, a read of it, and an access while one is outstanding. -/
theorem wit_JtagAccess :
    (let s (b : Bool) : State := { st (fun d => { d with tap := { d.tap with busy := b } }) with otp := { recs := [] } }
     let p := nocaccPacket 1 0x1003FFFC 77
     (s false).otp.jtagOpen = true ∧ (s false).dev.live = true ∧ (s false).dev.tagSt (tagKey p) = .free ∧ (s false).dev.noc.held = [] ∧
     targetOf p.dx.toNat p.dy.toNat 0x1003FFFC = .sram 0x3FFFC ∧
     ((s false).dev.way (6 * p.dy.toNat + p.dx.toNat) 12 (6 * (srcRouter 6).2 + (srcRouter 6).1) 0).2 = none ∧
     ofLeBytes (rdBytes (after (.nocacc 1 true 0x1003FFFC 77) (s false)).stw.sram 0x3FFFC 4) = 77 ∧
     (after (.nocacc 1 false 0x1003FFFC 0) (s false)).tap.busy = true ∧
     (after (.nocacc 1 true 0x1003FFFC 77) (s true)).noc.sent = [] ∧
     (after (.lcyacc 1 9 7) (s false)).tap.lcyCap = lcyStat (s false).otp (after (.lcyacc 1 9 7) (s false)) ∧
     (s false).dev.lcy.busy = false ∧ (s false).dev.mode.mode ≠ 7) := by decide +kernel

/-! ## The Steward, partners and vector memory -/

/-- A bundle with one entry (slot 0, ROM word 4) and no SRAM body, with its digest. -/
def bundle : List Byte :=
  let body := leBytes 4 0x80000000 ++ leBytes 4 4 ++ leBytes 4 0x12345678 ++ leBytes 4 0
  let top := leBytes 4 0x53545742 ++ leBytes 4 0 ++ leBytes 4 (1 + 9 * 2 ^ 16) ++ leBytes 4 80
  let zeros := List.replicate 16 (0 : Byte)
  top ++ sha256 (top ++ zeros ++ body) ++ zeros ++ body

/-- The NV store with that bundle in block 512. -/
def withBundle (d : Dev) : Dev :=
  { d with nvs := { d.nvs with words := (List.range 5).map fun i =>
      (4096 * 512 + i, .data (BitVec.ofNat 128 (ofLeBytes ((bundle.drop (16 * i)).take 16))) 0) } }

/-- The second watchdog restart of a second and the third, and an uncorrectable read. -/
theorem wit_StewardRestarts :
    (let s (k : Nat) := st fun d => { (d.setQueue 0 { state := .run }) with stw := { d.stw with wdogIn := k, wdogCnt := 65535 } }
     (s 1).dev.live = true ∧ (s 1).dev.stw.restarting = false ∧ (after .watchdog (s 1)).stw.safeNext = false ∧
     (after .watchdog (s 2)).stw.safeNext = true ∧ (after .watchdog (s 2)).stw.wdogCnt = 65535 ∧
     ((after .watchdog (s 1)).queue 0).state = .paused ∧ (after .stewardMemerr (s 1)).stw.lastRsn = 2 ∧
     (after .stewardMemerr (s 1)).stw.restarting = true) := by decide +kernel

/-- The end of a restart without a boot record, with one that names a sound bundle (and what the core then fetches), with one whose
CRC is wrong, and without patches; the newer of two records is in force. -/
theorem wit_StewardBoots :
    (let s (b f : Bool) : State := st fun d =>
       let d := withBundle { (d.setQueue 0 { state := .paused }) with stw := { d.stw with restarting := true, safeRom := f } }
       bif b then d.appendBoot 0 1 else d
     let bad : State := st fun d => { d with stw := { d.stw with restarting := true }, nvs := { d.nvs with words := [(544 * 4096, .data 1 0)] } }
     let d := after .restartDone (s true false)
     (s false false).dev.bootRec = none ∧ (after .restartDone (s false false)).stw.patch = [] ∧
     (after .restartDone (s false false)).stw.safeRom = false ∧ ((after .restartDone (s false false)).queue 0).state = .run ∧
     (s true false).dev.bootRec = some { place := 544 * 4096, seq := 1, bundle := 0, active := 1 } ∧
     bundleStatus 0 ((s true false).dev.bundle 0) = .ok ∧ d.stw.patch = [(0, 4, 0x12345678)] ∧ d.stw.level = 9 ∧
     d.stwFetch 4 = some 0x12345678 ∧ bad.dev.bootRec = none ∧ (after .restartDone bad).stw.safeRom = true ∧
     (after .restartDone (s true true)).stw.patch = [] ∧ (after .restartDone (s true true)).stw.lastRsn = 4 ∧
     (((s true false).dev.appendBoot 0 0).bootRec.map (·.active)) = some 0) := by decide +kernel

/-- STW_VERSION; STW_PATCH of the entry that is there, of one that is active, of one beyond, without a bundle; STW_INSTALL of a block
with a bundle and of the last one. -/
theorem wit_StewardCommands :
    (let s (i : Bool) (a : Word) := st fun d => withBundle { d with
       stw := { d.stw with installed := i, active := a }, mode := { d.mode with mode := 7 } }
     takes (s true 0) 0xE0 {} = true ∧ takesAt (s true 0) pdNvs 0xE1 (tci [0]) = true ∧
     (after (.stwPatch (tci [0])) (s true 0)).stw.active = 1 ∧ (after (.stwPatch (tci [0])) (s true 0)).stw.restarting = true ∧
     (after (.stwPatch (tci [0])) (s true 0)).bootRec = some { place := 544 * 4096, seq := 1, bundle := 0, active := 1 } ∧
     status (after (.stwPatch (tci [0])) (s true 1)) = some .ok ∧ status (after (.stwPatch (tci [1])) (s true 0)) = some .badOperand ∧
     status (after (.stwPatch (tci [0])) (s false 0)) = some .notPresent ∧ takesAt (s false 0) pdNvs 0xE2 (tci [31]) = true ∧
     (after (.stwInstall (tci [0])) (s false 0)).stw.active = 1 ∧ (after (.stwInstall (tci [0])) (s false 0)).stw.lastRsn = 3 ∧
     status (after (.stwInstall (tci [31])) (s false 0)) = some .notPresent) := by decide +kernel

/-- A descriptor of one channel, channel 63, with its CRC. -/
def descriptor : List Byte :=
  let ws : List Word := [0x31525450, word (at' 16 52 + at' 12 1 + 63), 0] ++ List.replicate 9 0
  let l := ws.flatMap fun w => leBytes 4 w.toNat
  l ++ leBytes 4 (crc32c l).toNat

/-- A target with a descriptor and without, a full table, the second miss, a board that leaves. -/
theorem wit_PartnersFound :
    (let t : BusTarget := { pid := 5, desc := descriptor }
     let u : BusTarget := { pid := 5 }
     let s := State.reset
     s.dev.live = true ∧ t.legacy = none ∧ s.dev.indexOf t = some 0 ∧ descOk t.desc = true ∧ descOk u.desc = false ∧
     ((after (.discovery [t]) s).ptrEnt 0).st = 1 ∧ ((after (.hotJoin t) s).ptrEnt 0).desc = descriptor ∧
     ((after (.hotJoin u) s).ptrEnt 0).st = 2) ∧
    (let s := st fun d => { d with ptr := { d.ptr with ent := (List.range 64).map fun i => (i, { st := 1, pid := BitVec.ofNat 48 (i + 9), daddr := 9 }) } }
     s.dev.indexOf { pid := 5 } = none ∧ (after (.hotJoin { pid := 5 }) s).ptr.full = true) ∧
    (let s := st fun d => { d with ptr := { d.ptr with ent := [(63, { st := 1, missed := 1, desc := descriptor }), (62, { st := 1 })] } }
     ((after (.getstatusPoll 0) s).ptrEnt 63).st = 4 ∧ ((after (.getstatusPoll 0) s).ptrEnt 62).missed = 1) ∧
    (let l : List Byte := leBytes 4 0 ++ leBytes 4 (2 ^ 10 + 3 * 2 ^ 8)
     let s := st fun d => { d with
       pin := { d.pin with presN := 0 }, ptr := { d.ptr with ent := [(63, { st := 1, missed := 1, desc := l }), (62, { st := 1, missed := 1 })] } }
     bit (descWord l 1) 10 = true ∧ fld (descWord l 1) 8 2 = 3 ∧ ((after (.presNChange 3 true 0) s).ptrEnt 63).st = 4 ∧
     ((after (.presNChange 3 true 0) s).ptrEnt 62).st = 1 ∧ (after (.presNChange 3 true 0) s).pin.presN = 8) := by decide +kernel

/-- GO for the last index, for the first beyond, while a check runs, and without GO; the three refusals and a descriptor taken. -/
theorem wit_HostDescriptors :
    (let s (b : Bool) (k : Nat) (l : List Byte) (e : Store PtrEnt) := st fun d => { d with ptr := { d.ptr with
       hdBusy := b, hdIndex := k, ent := e, hdesc := (List.range l.length).map fun i => (i, l.getD i 0) } }
     let s0 := s false 0 [] []
     s0.dev.live = true ∧ (after (.ptrHdctlGo 0x8000003F) s0).ptr.hdBusy = true ∧ (after (.ptrHdctlGo 0x80000040) s0).ptr.werr = true ∧
     (after (.ptrHdctlGo 0x80000000) (s true 0 [] [])).ptr.werr = true ∧ (after (.ptrHdctlGo 63) s0).ptr.hdIndex = 63 ∧
     descOk (s true 0 [] []).dev.hdescBytes = false ∧ (after .hdescCheckDone (s true 0 [] [])).ptr.hdStatus = .badOperand ∧
     (after .hdescCheckDone (s true 63 descriptor [(1, { st := 1, desc := descriptor })])).ptr.hdStatus = .refused ∧
     (after .hdescCheckDone (s true 63 descriptor [])).ptr.hdStatus = .notPresent ∧
     (after .hdescCheckDone (s true 63 descriptor [(63, { st := 2 })])).ptr.hdStatus = .ok ∧
     ((after .hdescCheckDone (s true 63 descriptor [(63, { st := 2 })])).ptrEnt 63).st = 5) := by decide +kernel

/-- The end of training with and without a wipe and with a failed channel, a wipe of the last segment, a refresh, and VMI_CFG while
nothing uses the memory and while a stream does. -/
theorem wit_VectorMemory :
    (let s (w : Bool) := st fun d => { d with vmi := { d.vmi with wipeDue := w } }
     (s true).dev.live = true ∧ (s true).dev.vmi.training = true ∧ (after (.trainingDone 15 16) (s true)).vmi.wiping = true ∧
     (after (.trainingDone 15 16) (s false)).vmi.ready = true ∧ (after (.trainingDone 14 16) (s false)).vmi.chFail = 1) ∧
    (let s := st fun d => { d with vmi := { d.vmi with
       cap := 1, wiping := true, wipe := 0x8000000000000000, mem := [(0x3EFFFFFF, 7), (0x3F000000, 8), (0x3FFFFFFF, 9)] } }
     (after .wipeDone s).vmi.mem = [(0x3EFFFFFF, 7)] ∧ (after .wipeDone s).vmi.ready = true ∧
     Store.get (fun _ => 0) (after (.refresh 3) s).vmi.refreshed 3 = 1) ∧
    (let s (n : Nat) := st fun d => { d with vmi := { d.vmi with training := false, stream := [(63, { left := n })] } }
     (s 0).dev.tested pdVmi = false ∧ ((s 0).dev.domain pdVmi).closed = false ∧ (s 0).dev.vmiInUse = false ∧
     (after (.vmiCfgTrain 0x8000000E) (s 0)).vmi.training = true ∧ (after (.vmiCfgWrite 0x0E) (s 0)).vmi.rate = 6 ∧
     (after (.vmiCfgWrite 0x07) (s 0)).vmi.werr = true ∧ (s 1).dev.vmiInUse = true ∧ (after (.vmiCfgTrain 0x80000000) (s 1)).vmi.werr = true ∧
     (after (.vmiWpageWrite 31) (s 1)).vmi.wpage = 31) := by decide +kernel

/-! ## The non-volatile store -/

/-- The last word programmed, a block of the last bank erased, an erase suspended and resumed, and zone 15 unlocked, not unlocked with
its last attempt, locked, cleared and set. -/
theorem wit_SequencerCommands :
    (let s := State.reset
     s.dev.live = true ∧ s.dev.tested pdNvs = false ∧ (s.dev.domain pdNvs).closed = false ∧ s.dev.nvs.seq.step = 0 ∧
     s.dev.pwr.droop = false ∧ s.dev.bankSelf 8 3 = false ∧ s.dev.writeProtected 8 900 = false ∧ (s.dev.nvBank (bankOf 900)).mayProgram = true ∧
     s.dev.nvCell (900 * 4096 + 4095) = .erased ∧
     (((after (.program 8 (word (900 * 65536 + 65520)) 7) s).nvBank (bankOf 900)).prog.map (·.word)) = some (900 * 4096 + 4095) ∧
     (((after (.erase 8 (word (900 * 65536))) s).nvBank (bankOf 900)).erase.map (·.block)) = some 900 ∧
     Store.get (fun _ => 0) (after (.erase 8 (word (900 * 65536))) s).nvs.ecnt 900 = 1) ∧
    (let s (e : NvErase) := st fun d => d.updBank 3 fun b => { b with erase := some e }
     ((s { block := 900 }).dev.nvBank 3).state = 2 ∧
     (((after (.suspend 8 0x3000000) (s { block := 900 })).nvBank 3).erase.map (·.susp)) = some 2 ∧
     (((after (.resume 8 0x3000000) (s { block := 900, susp := 2, stopped := true })).nvBank 3).erase.map (·.susp)) = some 0 ∧
     ((after (.resume 8 0x3000000) (s { block := 900, susp := 2 })).evtLast 211).payload = payload .ok 2 900) ∧
    (let s (z : Zone) := st fun d => d.updZone 15 fun _ => z
     let z : Zone := { st := 1, pass := 0x600000005, attempts := 1 }
     ((after (.zunlock 8 15 [5, 6, 0, 0]) (s z)).zone 15).st = 2 ∧ ((after (.zunlock 8 15 [5, 7, 0, 0]) (s z)).zone 15).st = 3 ∧
     (after (.zunlock 8 15 [5, 7, 0, 0]) (s z)).nvs.lstatus = .isProtected ∧
     ((after (.zlock 8 15) (s { z with st := 2 })).zone 15).st = 1 ∧ (after (.zclear 8 15) (s { z with st := 2 })).zone 15 = {} ∧
     (after (.zset 8 15 [5, 6, word (1023 * 2 ^ 10 + 1023), 3]) (s {})).zone 15 =
       { st := 1, first := 1023, last := 1023, wp := true, rp := true, pass := 0x600000005 }) := by decide +kernel

/-- Both keys, a wrong first and a wrong second key, a wrong register, another initiator, and a pause. -/
theorem wit_SequencerOpens :
    (let s (k : Nat) := st fun d => { d with nvs := { d.nvs with seq := { step := k, src := 8 } } }
     (s 0).dev.live = true ∧ (after (.nvsSequence 8 0 0xA5C3) (s 0)).nvs.seq = { step := 1, src := 8 } ∧
     (after (.nvsSequence 8 0 0xA5C2) (s 0)).nvs.seqErr = true ∧ (after (.nvsSequence 8 0 0x3C5A) (s 1)).nvs.seq.step = 2 ∧
     (after (.nvsSequence 8 1 0x3C5A) (s 1)).nvs.seqErr = true ∧ (after (.nvsSequence 9 0 0x3C5A) (s 1)).nvs.werr = true ∧
     ((after .nvsSeqTimeout (s 7)).evtLast 214).payload = payload .badOperand 1 8) := by decide +kernel

/-- A program that ends well and badly, an erase that ends well and badly, one that stops for a suspend and one that goes on. -/
theorem wit_FlashEnds :
    (let s := st fun d => d.updBank 3 fun b => { b with prog := some { word := 4095, data := 7 } }
     s.dev.live = true ∧ s.dev.nvs.jobs = [] ∧ s.dev.nvs.waiting = [] ∧ (after (.programDone 3 (.passed 2)) s).nvCell 4095 = .data 7 2 ∧
     (after (.programDone 3 .failed) s).nvCell 4095 = .unknown ∧ ((after (.programDone 3 .failed) s).evtLast 208).payload = payload .mediaError 1 0) ∧
    (let s (e : NvErase) := st fun d => ({ d with nvs := { d.nvs with words := [(4095, .data 7 0), (4096, .data 8 0)] } } : Dev).updBank 3 fun b =>
       { b with erase := some e }
     (after (.eraseDone 3 true) (s { block := 0 })).nvCell 4095 = .erased ∧ (after (.eraseDone 3 true) (s { block := 0 })).nvCell 4096 = .data 8 0 ∧
     (after (.eraseDone 3 false) (s { block := 0 })).nvCell 0 = .unknown ∧
     (((after (.eraseStop 3) (s { block := 0, susp := 2 })).nvBank 3).erase.map (·.stopped)) = some true ∧
     (((after (.eraseAutoResume 3) (s { block := 0, susp := 1, stopped := true })).nvBank 3).erase.map (·.susp)) = some 0) := by decide +kernel

/-- The last word read, programmed and its block erased through the queue, and zone 0 unlocked with the right pass and the wrong one. -/
theorem wit_NvsCommands :
    (let s (l : Store NvCell) := st fun d => { d with cmd := { d.cmd with bme := true, hostMem := wr128 [] 16 77 }, nvs := { d.nvs with words := l } }
     let a := 900 * 65536 + 65520
     let c := tci [word a, 16, 32, 0]
     let p := tci [word a, 16, 16, 0]
     takesAt (s []) pdNvs 0xD0 c = true ∧ (blocksOf a 16).any ((s []).dev.readProtected 8) = false ∧ (s []).dev.rangeReadable a 16 = true ∧
     (s [(a / 16, .data 5 3)]).dev.nvCell (a / 16) = .data 5 3 ∧ data (after (.nvsRead c .done) (s [(a / 16, .data 5 3)])) = some (16, 3) ∧
     rd128 (after (.nvsRead c .done) (s [(a / 16, .data 5 3)])).cmd.hostMem 32 = 5 ∧
     takesAt (s []) pdNvs 0xD1 p = true ∧ (s []).dev.nvCell (a / 16) = .erased ∧
     (((after (.nvsProgram p .done) (s [])).nvBank (bankOf 900)).prog.map (·.data)) = some 77 ∧
     takesAt (s []) pdNvs 0xD2 (tci [900]) = true ∧
     (((after (.nvsErase (tci [900])) (s [])).nvBank (bankOf 900)).erase.map (·.block)) = some 900) ∧
    (let s := st fun d => d.updZone 0 fun _ => { st := 1, pass := 5 }
     takesAt s pdNvs 0xD3 (tci [0, 5, 0]) = true ∧ ((after (.nvsUnlock (tci [0, 5, 0])) s).zone 0).st = 2 ∧
     data (after (.nvsUnlock (tci [0, 5, 1])) s) = some (7, 0) ∧ status (after (.nvsUnlock (tci [0, 5, 1])) s) = some .isProtected) := by decide +kernel


/-- A READ of a place that is no unit, one beyond the array, one of a protected block, one that waits for its bank and one that is
answered; words under a suspended erase, one lost, and two of a line whose bits add up to the threshold. -/
theorem wit_NvReads :
    (let s := st fun d => { (d.updZone 0 fun _ => { st := 1, rp := true, first := 5, last := 5 }) with
       nvs := { (d.updZone 0 fun _ => { st := 1, rp := true, first := 5, last := 5 }).nvs with words := [(4096, .data 7 2), (4097, .data 8 2)] } }
     let d := s.dev
     let p (a : Nat) (n : BitVec 6) : Packet := { src := 9, addr := BitVec.ofNat 48 (nvBase + a), len := n }
     let busy := d.updBank (bankOf 1) fun b => { b with prog := some { word := 5000, data := 1 } }
     ((d.nvsRead (p 8 1)).noc.sent.map (·.status.toNat)) = [Status.badOperand.code] ∧ ((d.nvsRead (p 0 0)).noc.sent.map (·.status.toNat)) = [Status.badOperand.code] ∧
     ((d.nvsRead (p (2 ^ 26 - 16) 2)).noc.sent.map (·.data)) = [[0, 0]] ∧ (d.nvsRead (p (2 ^ 26 - 16) 2)).noc.unmap = 1 ∧
     d.readProtected 9 5 = true ∧ ((d.nvsRead (p (5 * 65536) 1)).noc.sent.map (·.status.toNat)) = [Status.isProtected.code] ∧
     d.nvs.waiting = [] ∧ d.rangeReadable 65536 32 = true ∧ ((d.nvsRead (p 65536 2)).noc.sent.map (·.data)) = [[7, 8]] ∧
     busy.rangeReadable 65536 32 = false ∧ (busy.nvsRead (p 65536 2)).nvs.waiting.length = 1 ∧
     d.nvs.ethr = 4 ∧ (d.nvLine 9 4096 2).2.data = [7, 8] ∧ (d.nvLine 9 4096 2).2.cbits = 4 ∧ (d.nvLine 9 4096 2).1.nvs.ewarn = 1 ∧
     (d.nvLine 9 4097 1).1.nvs.ewarn = 0) ∧
    (let d := (st fun d => ({ d with nvs := { d.nvs with words := [(4096, .data 7 15)] } } : Dev).updBank 3 fun b =>
       { b with erase := some { block := 900, susp := 1, stopped := true } }).dev
     (d.nvLine 9 4096 1).2.status = .mediaError ∧ ((d.nvLine 9 4096 1).1.evtLast 210).payload = payload .mediaError 1 1 ∧
     bankOf 900 = 3 ∧ (d.nvBank (bankOf 900)).suspended 900 = true ∧ (d.nvLine 9 (900 * 4096) 1).2.status = .eraseSuspended ∧
     (d.nvLine 9 (900 * 4096) 1).2.data = [BitVec.allOnes 128]) ∧
    (let s (l : List NvBuf) (c : Option Nat) := st fun d => { d with nvs := { d.nvs with branch := l, coreLine := c, words := [(6, .data 5 1)] } }
     let b : NvBuf := { line := 3, words := [(7, 3), (8, 2)] }
     let busy (d : Dev) : Dev := d.updBank 0 fun b => { b with prog := some { word := 5000, data := 1 } }
     let p : Packet := { src := 1, addr := BitVec.ofNat 48 (nvBase + 96), len := 2 }
     let hit := busy (s [b] none).dev
     let miss := busy (s [] none).dev
     hit.coreHit p = true ∧ hit.rangeReadable 96 32 = false ∧ (hit.nvsRead p).noc.sent.map (·.data) = [[7, 8]] ∧
     miss.servable p = false ∧ (miss.nvsRead p).nvs.waiting = [p] ∧
     ((s [b] none).dev.nvLine 1 6 2).2.cbits = 5 ∧ ((s [] none).dev.nvLine 1 6 2).2.data = [5, BitVec.allOnes 128] ∧
     ((s [] none).dev.nvLine 1 6 2).1.nvs.branch.map (·.line) = [3] ∧
     ((s [] (some 2)).dev.nvLine 1 6 2).1.nvs.prefetch.map (·.line) = [3, 4, 5, 6] ∧
     ((s [b] (some 3)).dev.nvLine 1 6 2).1.nvs.branch = [b] ∧ ((s [] none).dev.nvLine 9 6 2).1.nvs.coreLine = none) := by decide +kernel

/-! ## Events and the recorder -/

/-- An event that is not enabled, one that fires with every way open, and one masked at its vector; a record that the open one takes,
one that the newest of the ring takes, one that joins, and one that meets a full ring. -/
theorem wit_EventFires :
    (let d := State.reset.dev
     let c (f : EvtCfg → EvtCfg) : Dev := { d with
       evt := { d.evt with cfg := [(9, f (d.evtCfg 9))] }, time := { d.time with role := .root }, cmd := { d.cmd with bme := true, msix := [(9, { masked := false, data := 6 })] } }
     (c fun x => { x with en := false }).fireAt 9 5 {} = (c fun x => { x with en := false }) ∧
     (let t := (c fun x => { x with stw := true, msi := true, rcd := true }).fireAt 9 5 {}
      bit t.evt.stat 9 = true ∧ (t.evtLast 9).count = 1 ∧ t.evt.steward = [9] ∧ t.cmd.messages = [⟨9, 0, 6⟩] ∧
      t.log.ring.map (·.payload) = [5]) ∧
     ((c fun x => { x with rcd := false }).fireAt 9 5 {}).log.ring = [] ∧
     (c id).cmd.funcMask = false ∧ (d.requestVector 9).cmd.pba = BitVec.ofNat 256 (2 ^ 9)) ∧
    (let d := State.reset.dev
     let e : LogEnt := { event := 9, payload := 5, sev := 1 }
     let f : LogEnt := { event := 8, payload := 5, sev := 2 }
     let o (x : LogEnt) : OpenRec := { ent := x, sealWord := 0, body := [], seq := 0, dropsBefore := false }
     let r (l : List LogEnt) (p : Option OpenRec) : Dev := { d with log := { d.log with ring := l, opened := p } }
     e.kind = .event ∧ (((r [] (some (o e))).requestRecord e).1.log.opened.map (·.ent.rep)) = some 1 ∧
     ((r [f, e] none).requestRecord e).1.log.ring.map (·.rep) = [0, 1] ∧ ((r [e] none).requestRecord f).1.log.ring.length = 2 ∧
     ((r (List.replicate 64 f) none).requestRecord e).2 = true ∧ ((r (List.replicate 64 f) none).requestRecord e).1.log.drops1 = 1 ∧
     ((r (f :: List.replicate 63 e) none).requestRecord { e with event := 7 }).1.log.ring.map (·.event) = 8 :: List.replicate 62 9 ++ [7] ∧
     ((r (f :: List.replicate 63 e) none).requestRecord { e with event := 7 }).2 = false) := by decide +kernel

/-- A clear of the last event, a configuration that requests the vector, a read of a payload, and of LOG_SEQ_NEW. -/
theorem wit_EventRegisters :
    (let s := st fun d => { d with
       evt := { d.evt with stat := BitVec.ofNat 256 (2 ^ 255), last := [(255, { payload := 7, count := 3, stamp := { frac := 2 } })] }
       log := { d.log with seqNew := 9, seqOld := 4 } }
     s.dev.live = true ∧ (after (.evtStatClear 7 0x80000000) s).evt.stat = 0 ∧ ((after (.evtStatClear 7 0x80000000) s).evtLast 255).count = 0 ∧
     (after (.evtStatClear 7 1) s).evt.stat = s.dev.evt.stat ∧ (after (.evtCfgWrite 255 8) s).cmd.pba ≠ 0 ∧
     ((after (.evtCfgWrite 255 0x800000FB) s).evtCfg 255).sev = 3 ∧ (after (.evtLastPayRead 255) s).rdata = [7] ∧
     (Store.get evtCapReset (after (.evtLastPayRead 255) s).evt.cap 255).fc = 0x20003 ∧ (after .logSeqNewRead s).log.seqOldCap = 4) := by decide +kernel

/-- A device in DIAG_1: a freeze asked for, refused while one holds, given at once when degraded, released, its effect and its end. -/
theorem wit_Freezes :
    (let diag : Otp := { recs := State.reset.otp.recs ++ [{ origin := 3, target := 8, wiped := true, written := true, cleared := true }] }
     let s (f : LogState → LogState) : State := { st (fun d => { d with log := f d.log }) with otp := diag }
     let frozen := s fun l => { l with frozen := true, freezeSrc := 6 }
     let asked := s fun l => { l with freezePend := some { src := 6, owner := none } }
     diag.state = 8 ∧ takes (s id) 0xA0 {} = true ∧ ((after (.logFreeze {}) (s id)).log.freezePend.map (·.src)) = some 1 ∧
     status (after (.logFreeze {}) frozen) = some .busy ∧ status (after (.logFreeze {}) asked) = some .busy ∧
     (after (.logFreeze {}) (s fun l => { l with degraded := true })).log.frozen = true ∧ takes (s id) 0xA1 {} = true ∧
     status (after (.logRelease {}) (s id)) = some .ok ∧ ((after (.logRelease {}) frozen).evtLast 243).payload = payload .ok 2 6 ∧
     data (after (.logSeq {}) (s fun l => { l with seqOld := 4, seqNew := 5 })) = some (4, 5) ∧ asked.dev.live = true ∧
     (after (.freezeEffect (.passed 0)) asked).log.frozen = true ∧ (after .freezeAutoRelease frozen).log.frozen = false ∧
     (after (.logFrzctlRelease 6) frozen).log.frozen = false ∧ ((after (.logFrzctlFreeze 6) (s id)).log.freezePend.map (·.src)) = some 6 ∧
     (after (.logFrzctlFreeze 5) (s id)).log.werr = true ∧ (after (.logFrzctlRelease 5) (s id)).log.werr = true) := by decide +kernel

/-- The last record that a block holds, a frozen recorder, a domain that is not On, a seal that passes and one that fails, the longest
annotation and one too long, the last second, and both ends of an operating-hours block. -/
theorem wit_Recorder :
    (let e : LogEnt := { event := 5, payload := 6, stamp := {} }
     let s (f : LogState → LogState) := st fun d => { d with log := f { d.log with
       scanned := true, curblk := 1023, ring := [e], blks := [(1023, { used := true, next := 4096 - e.len - 1 })] } }
     let w := 1023 * 4096 + 4096 - e.len - 1
     let r : OpenRec := { ent := e, sealWord := w, body := e.body, seq := 8, dropsBefore := false }
     let opened := s fun l => { l with opened := some r }
     (s id).dev.live = true ∧ (s id).dev.domOn pdNvs = true ∧ (0 : BitVec 4).toNat < (s id).dev.nvs.ethr ∧ (s id).dev.nvCell w = .erased ∧
     (s id).dev.nvCell (w + 1) = .erased ∧ (after (.logRecordWrite (.passed 0)) (s id)).log.ring = [] ∧
     (after (.logRecordWrite (.passed 0)) (s id)).nvCell w = .data e.header 0 ∧
     ((after (.logRecordWrite (.passed 0)) (s id)).log.opened.map (·.sealWord)) = some (w + e.len) ∧
     after (.logRecordWrite (.passed 0)) (s fun l => { l with frozen := true }) = (s fun l => { l with frozen := true }).dev ∧
     opened.dev.nvCell r.sealWord = .erased ∧ (after (.recordSeal (.passed 0)) opened).log.seqNew = 8 ∧
     (after (.recordSeal .failed) opened).nvCell w = .unknown ∧ bit (after (.recordSeal .failed) opened).log.retired 29 = true ∧
     (after (.logAnnGo 4) (s id)).log.werr = true ∧ ((after (.logAnnGo (word (61 * 4))) State.reset).log.ann.map (·.data.length)) = some 61 ∧
     (after (.logAnnGo (word (62 * 4))) State.reset).log.werr = true ∧
     (after .opsecTick (s fun l => { l with opsec := 0xFFFFFFFF })).log.opsec = 0xFFFFFFFF) ∧
    (let s := st fun d => d.updDomain pdNvs fun x => { x with st := .off }
     s.dev.domOn pdNvs = false ∧ (after (.logRecordWrite (.passed 0)) s).log.degraded = true) ∧
    (let s (b p : Nat) := st fun d => { d with log := { d.log with opBlk := b, opPos := p } }
     (s 992 4095).dev.nvCell (992 * 4096 + 4095) = .erased ∧
     (after (.opsecStore (.passed 0)) (s 992 4095)).nvCell (992 * 4096 + 4095) = .data (opsecWord 0 0) 0 ∧
     (after (.opsecStore (.passed 0)) (s 993 4096)).log.opBlk = 992 ∧ (after (.opsecStore (.passed 0)) (s 993 4096)).log.opPos = 1) := by decide +kernel


/-- The recorder frozen, degraded, with nothing to write, and with each of the three kinds that may come next; a record that fits its
block by one word and one that does not, a free block, one to erase, none at all, and only ones that hold more severe records. -/
theorem wit_RecordTurns :
    (let s (f : LogState → LogState) := st fun d => { d with log := f { d.log with scanned := true, curblk := 1023 } }
     let e : LogEnt := { event := 5, payload := 6 }
     let m : LogEnt := { kind := .mediaFault }
     let a : LogEnt := { kind := .annotation }
     (s id).dev.live = true ∧ (s id).dev.domOn pdNvs = true ∧ (s id).dev.nextRecord = none ∧
     after (.logRecordWrite .failed) (s fun l => { l with degraded := true, dcause := 1, ring := [e] }) =
       (s fun l => { l with degraded := true, dcause := 1, ring := [e] }).dev ∧
     after (.logRecordWrite .failed) (s id) = (s id).dev ∧
     ((s fun l => { l with ring := [e], ann := some a }).dev.nextRecord.map (·.1)) = some a ∧
     ((s fun l => { l with ring := [m, e], ann := some a }).dev.nextRecord.map (·.1)) = some m ∧
     ((s fun l => { l with ring := [e] }).dev.nextRecord.map (·.1)) = some e ∧
     after (.recordSeal .failed) (s id) = (s id).dev) ∧
    (let d (c : Nat) (b : Store LogBlk) (r : BitVec 30) := (st fun d => { d with log := { d.log with curblk := c, blks := b, retired := r } }).dev
     let e : LogEnt := { event := 5, payload := 6, sev := 1 }
     let all (sev : Nat) : Store LogBlk := (List.range 30).map fun i => (994 + i, { used := true, next := 4096, maxSev := sev, gen := 40 - i })
     let w (d : Dev) := d.writeRecord d e (.passed 0)
     e.len = 1 ∧ (w (d 1023 [(1023, { used := true, next := 4094 })] 0)).log.curblk = 1023 ∧
     (w (d 1023 [(1023, { used := true, next := 4095 })] 0)).log.curblk = 994 ∧ (w (d 0 [] 1)).log.curblk = 995 ∧
     (w (d 1023 (all 1) 0)).log.erasing = some 1022 ∧ (w (d 0 (all 1) 0)).log.erasing = some 1023 ∧
     (w (d 1023 (all 2) 0)).log.drops1 = 1 ∧ (w (d 1023 (all 2) 0)).log.degraded = false ∧
     (w (d 1023 (all 1) (BitVec.ofNat 30 (2 ^ 29 - 1)))).log.degraded = true) := by decide +kernel

/-! ## Self-test, repair and life cycle -/

/-- A memory test of PD_EQ0 queued, one of a domain that has one, one with a test it has not, one of a domain that is off; a
start that fits, one refused, a checkpoint, an end that passes, one that fails and one that was aborted. -/
theorem wit_SelfTests :
    (let s (l : List BstTest) := st fun d => { d with bst := { d.bst with tests := l }, mode := { d.mode with mode := 7 } }
     let t : BstTest := { domain := 2, cls := 2, mask := 1, owner := { gen := 1 } }
     let c := tci [word (2 * 256 + 2), 1]
     let off : State := { s [] with dev := (s []).dev.updDomain 2 fun x => { x with st := .off } }
     takes (s []) 0x90 c = true ∧ (s []).dev.noc.held = [] ∧ bstTests 2 2 = 3 ∧ bstPower 2 2 1 = 450 ∧ bstSave 2 2 ≤ 524288 ∧
     (s []).dev.domOn 2 = true ∧ (s []).dev.wouldRefuse 2 = false ∧ ((after (.bstRun c) (s [])).bst.tests.map (·.domain)) = [2] ∧
     status (after (.bstRun (tci [word (2 * 256 + 2), 4])) (s [])) = some .badOperand ∧ status (after (.bstRun c) (s [t])) = some .busy ∧
     off.dev.domOn 2 = false ∧ status (after (.bstRun c) off) = some .fenced ∧
     (s [t]).dev.bstUsed + bstPower 2 2 1 ≤ 100 * (s [t]).dev.bst.budget ∧ ((after (.bstStart false) (s [t])).bst.tests.map (·.running)) = [true] ∧
     bstKind 39 = 7 ∧ (s [{ t with domain := 39, cls := 0, mask := 4 }]).dev.bstUsed + bstPower 39 0 4 ≤ 100 * (s []).dev.bst.budget ∧
     (after (.bstStart false) (s [{ t with domain := 39, cls := 0, mask := 4 }])).tpllsLocked = false ∧
     (after (.bstStart true) (s [t])).bst.tests = [] ∧ status (after (.bstStart true) (s [t])) = some .refused ∧
     ((after (.bstCheckpoint 2) (s [{ t with running := true, wantAbort := true }])).bst.tests.map (·.stopped)) = [some false] ∧
     status (after (.bstEnd 2 true 9 []) (s [{ t with running := true }])) = some .ok ∧
     status (after (.bstEnd 2 false 9 [(1, 2)]) (s [{ t with running := true }])) = some .mediaError ∧
     (after (.bstEnd 2 false 9 [(1, 2)]) (s [{ t with running := true }])).bst.mfail.length = 1 ∧
     status (after (.bstEnd 2 true 9 []) (s [{ t with running := true, stopped := some false }])) = some .aborted) := by decide +kernel

/-- An abort of nothing, of a waiting test and of a running one; a soft repair of row 0 of the first array of domain 2, a fused one in
RETURNED, one that fails its verify, and one of an array that is not there. -/
theorem wit_AbortsAndRepairs :
    (let s (l : List BstTest) := st fun d => { d with bst := { d.bst with tests := l } }
     let t : BstTest := { domain := 2, cls := 2, mask := 1, owner := { gen := 1 } }
     takes (s []) 0x91 (tci [2]) = true ∧ status (after (.bstAbort (tci [2])) (s [])) = some .ok ∧
     (after (.bstAbort (tci [2])) (s [t])).bst.tests = [] ∧
     ((after (.bstAbort (tci [2])) (s [{ t with running := true }])).bst.tests.map (·.wantAbort)) = [true] ∧
     takes (s []) 0x92 (tci [2, 0x80000000, 0]) = true ∧ 0 < bstArrays 2 ∧ (s []).dev.spareUsed (s []).otp 2 0 0 = false ∧
     takes (s []) 0x92 (tci [2, word (at' 24 (bstArrays 2)), 0]) = true ∧
     status (after (.bstRepair (tci [2, word (at' 24 (bstArrays 2)), 0]) .failed) (s [])) = some .badOperand) ∧
    (let ret : Otp := { recs := State.reset.otp.recs ++ [{ origin := 3, target := 4, wiped := true, written := true, cleared := true }] }
     let s : State := { st (fun d => { d with mode := { d.mode with mode := 7 } }) with otp := ret }
     ret.state = 4 ∧ takes s 0x92 (tci [0x80000002, 0, 0]) = true ∧ s.otp.fuses.length < 256) := by decide +kernel

/-- A repair of row 0 of PD_NVS's array: the buffer keeps its line and its check bits. -/
theorem wit_repair_buffers :
    (let d := (st fun d => { d with nvs := { d.nvs with prefetch := [{ line := 5, words := [(7, 3), (8, 2)] }] } }).dev
     bstKind 35 = 4 ∧ (d.applyRepair 35 0 0).nvs.prefetch.map (·.line) = [5] ∧ (d.applyRepair 0 0 0) = d) := by decide +kernel

/-- Row 0 stands in every array, whatever its last row. -/
theorem wit_repair_row : fld (0 : Word) 0 20 ≤ Config.lastRow 2 0 := Nat.zero_le _

/-- OPERATIONAL with the digest of one RETURNED token: a query, a transition to a state that is none, one with a wrong token, one that
passes, one that is cut at steps 4 and 5; the same through an open JTAG port. -/
theorem wit_LifeCycle :
    (let s (o : Otp) (b : Bool) : State := { st (fun d => { d with mode := { d.mode with mode := 7 }, lcy := { d.lcy with busy := b } }) with otp := o }
     let o : Otp := { State.reset.otp with digest := [(3, some (sha256n (tokenBytes 9 4 0)))] }
     let c := tci [4, 9, 0, 0, 0]
     takes (s o false) 0xB0 {} = true ∧ takes (s o false) 0xB1 c = true ∧ lcyChecks o (s o false).dev 4 = .ok ∧
     tokenOk o (s o false).dev 4 9 = true ∧ (otpAfter (.lcyTransition c 7) (s o false)).state = 4 ∧
     (otpAfter (.lcyTransition c 7) (s o false)).recs.length = 4 ∧ (otpAfter (.lcyTransition c 4) (s o false)).state = 3 ∧
     (otpAfter (.lcyTransition c 5) (s o false)).state = 4 ∧ lcyChecks o (s o false).dev 1 = .lifecycleDenied ∧
     status (after (.lcyTransition (tci [1, 0, 0, 0, 0]) 7) (s o false)) = some .lifecycleDenied ∧
     tokenOk o (s o false).dev 4 8 = false ∧ status (after (.lcyTransition (tci [4, 8, 0, 0, 0]) 7) (s o false)) = some .tokenInvalid ∧
     (after (.lcyTransition (tci [4, 8, 0, 0, 0]) 7) (s o false)).lcy.attempts = 2 ∧
     (let j : Otp := { recs := [], digest := [(0, some (sha256n (tokenBytes 9 1 0)))] }
      j.jtagOpen = true ∧ lcyChecks j ((s j false).dev.setIr 0x21) 1 = .ok ∧ tokenOk j ((s j false).dev.setIr 0x21) 1 9 = true ∧
      (otpAfter (.lcyacc 1 9 7) (s j false)).state = 1 ∧ (after (.lcyacc 1 9 7) (s j true)).tap.lcy = .busy ∧
      (after (.lcyacc 2 9 7) (s j false)).tap.lcy = .lifecycleDenied ∧
      (after (.lcyacc 1 9 7) { (State.reset) with otp := j }).tap.lcy = .modeDenied)) := by decide +kernel


/-- A logic test that passes, a memory test that fails with 65 cells, a test that no one runs, one that stopped, a cut PADLB, a LOOP
that lost its lock, and a running PADLB whose end puts its quad into the safe state. -/
theorem wit_SelfTestEnds :
    (let s (l : List BstTest) := st fun d => { d with bst := { d.bst with tests := l } }
     let t (c : Nat) (m : BitVec 8) : BstTest := { domain := 2, cls := c, mask := m, owner := { gen := 1 }, running := true }
     (s []).dev.live = true ∧ (after (.bstEnd 2 true 9 []) (s [])).bst.res0 = [] ∧
     fld (Store.get (fun _ => 0) (after (.bstEnd 2 true 9 []) (s [t 2 1])).bst.res0 2) 30 2 = 1 ∧
     Store.get (fun _ => 0) (after (.bstEnd 2 true 9 []) (s [t 2 1])).bst.res1 2 = 9 ∧
     (after (.bstEnd 2 false 9 (List.replicate 65 (1, 2))) (s [t 2 1])).bst.mfail.length = 64 ∧
     (after (.bstEnd 2 false 9 (List.replicate 65 (1, 2))) (s [t 2 1])).bst.movf = true ∧
     (after (.bstEnd 2 false 9 (List.replicate 64 (1, 2))) (s [t 2 1])).bst.movf = false ∧
     ((after (.bstEnd 2 true 9 []) (s [{ t 2 1 with stopped := some true }])).evtLast 234).payload = payload .aborted 2 (64 * 2 + 2) ∧
     bstKind 2 = 1 ∧ status (after (.bstEnd 2 true 9 []) (s [{ t 0 1 with cut := true }])) = some .aborted ∧
     status (after (.bstEnd 2 true 9 []) (s [{ t 0 4 with lockLost := true }])) = some .mediaError ∧
     (let m := st fun d => { d with bst := { d.bst with tests := [t 0 4] }, mode := { d.mode with mode := 7 } }
      m.dev.tpllsLocked = false ∧ status (after (.bstEnd 2 true 9 []) m) = some .mediaError) ∧
     ((after (.bstEnd 2 true 9 []) (s [t 0 1])).channel 0).inSafe = true ∧
     ((after (.bstEnd 2 true 9 []) (s [{ t 0 4 with domain := 5 }])).bst.tests.map (·.domain)) = [5]) := by decide +kernel

/-! ## Rules stated whole, and registers -/

/-- The first offset of LCY beyond its table with what its accesses count; its last listed one is read. -/
theorem wit_LifeCycleRegisters :
    (blockOf 0xA000C = some (.lcy, 0xC) ∧ (Sys2Proof.Stated.wayTo State.reset.dev .lcy).2 = none ∧
     (after (.readClear { off := 0xA000C }) State.reset).rdata = [0] ∧ (after (.readClear { off := 0xA000C }) State.reset).noc.unmap = 1 ∧
     (after (.registerWrite { off := 0xA000C, data := [1] }) State.reset).noc.unmap = 1 ∧
     (after (.readClear { off := 0xA0008 }) State.reset).noc.unmap = 0 ∧ takes State.reset 0xB0 {} = true) := by decide +kernel

/-- Offsets of PTR between its tables and after them, and GO with INDEX 64, 63 and while a check runs. -/
theorem wit_PartnerRegisters :
    (blockOf 0xC000C = some (.ptr, 0xC) ∧ (Sys2Proof.Stated.wayTo State.reset.dev .ptr).2 = none ∧
     (after (.readClear { off := 0xC000C }) State.reset).noc.unmap = 1 ∧ (after (.readClear { off := 0xC0A40 }) State.reset).noc.unmap = 1 ∧
     (after (.readClear { off := 0xC0A3C }) State.reset).noc.unmap = 0 ∧
     (after (.registerWrite { off := 0xC0010, data := [0x80000040] }) State.reset).ptr.werr = true ∧
     (after (.ptrHdctlGo 0x8000003F) State.reset).ptr.werr = false ∧
     (after (.ptrHdctlGo 0x80000000) (st fun d => { d with ptr := { d.ptr with hdBusy := true } })).ptr.werr = true) := by decide +kernel

/-- A read of SRC 6 to DX 6 and writes of SRC 24 to DY 7. -/
theorem wit_NoRouteAnswers :
    (let p : Packet := { dx := 6, src := 6, len := 1 }
     let q : Packet := { dy := 7, src := 24, len := 1, data := [5] }
     let s := State.reset
     s.dev.tagSt (tagKey p) = .free ∧ srcDomain 6 = none ∧ srcDomain 24 = some 2 ∧ s.dev.domOn 2 = true ∧ (s.dev.domain 2).closed = false ∧
     s.dev.tested 2 = false ∧ ((after (.read p) s).noc.sent.map (·.status.toNat)) = [Status.noRoute.code] ∧
     ((after (.write q) s).noc.sent.map (·.status.toNat)) = [Status.noRoute.code] ∧ (after (.writePosted q) s).noc.sent = []) := by decide +kernel

/-- EVT_LAST_PAY of event 255 and the words that it captures, and an offset between the tables. -/
theorem wit_EventLastWords :
    (let s := st fun d => { d with evt := { d.evt with last := [(255, { payload := 7, count := 3, stamp := { frac := 2, gci := 5 } })] } }
     let d := after (.evtLastPayRead 255) s
     d.rdata = [7] ∧ [4, 8, 12].map (fun r => regVal s.otp d .evt (0x1000 + 16 * 255 + r)) = [some 5, some 0, some 0x20003] ∧
     blockOf 0x20424 = some (.evt, 0x424) ∧ (after (.readClear { off := 0x20424 }) State.reset).noc.unmap = 1) := by decide +kernel

/-- SYS_ID, an offset that SYS does not list, NVS while its domain is closed and while it is under test, and a fabric window whose
region takes nothing and one that does. -/
theorem wit_HostWords :
    (blockOf 0 = some (.sys, 0) ∧ regVal State.reset.otp State.reset.dev .sys 0 = some 0x16403C9B ∧ State.reset.dev.timBusy 0 = false ∧
     (Sys2Proof.Stated.wayTo State.reset.dev .sys).2 = none ∧
     (after (.readClear { off := 0 }) State.reset).rdata = [0x16403C9B] ∧
     regVal State.reset.otp State.reset.dev .sys 0xFFC = none ∧ (after (.readClear { off := 0xFFC }) State.reset).noc.unmap = 1 ∧
     (after (.registerWrite { off := 0xFFC, data := [1] }) State.reset).noc.unmap = 1) ∧
    (let s := st fun d => d.updDomain pdNvs fun x => { x with closed := true, st := .off }
     let t := st fun d => { d with bst := { d.bst with tests := [{ domain := pdNvs, cls := 2, mask := 1, owner := {}, running := true }] } }
     blockOf 0x70000 = some (.nvs, 0) ∧ Block.nvs.domain = some pdNvs ∧ s.dev.tested pdNvs = false ∧
     (after (.readClear { off := 0x70000 }) s).rdata = [0xFFFFFFFF] ∧ t.dev.tested pdNvs = true ∧
     (after (.readClear { off := 0x70000 }) t).noc.held.length = 1) ∧
    (let s := State.reset
     let o := st fun d => (({ d with fab := { d.fab with outRel := true, writeEn := true }, cfg := { d.cfg with blank := false } } : Dev).updFabRegion 6
       fun r => { r with hold := false })
     blockOf 0x1000000 = some (.fab 0, 0) ∧ s.dev.portShut 0 = true ∧ (after (.readClear { off := 0x1000000 }) s).rdata.length = 1 ∧
     (after (.registerWrite { off := 0x1000000, data := [1] }) s).noc.postDrop = 1 ∧
     o.dev.portShut 0 = false ∧ (after (.readClear { off := 0x1000000 }) o).fab.inbox.length = 1) := by decide +kernel

/-- Half a word, an access that crosses a word, one of 8 bytes, one beyond BAR0, one beyond BAR2; a burst of the vector window, read and
written, while the memory trains, is ready, has a failed channel and ends; and one of the FAT window. -/
theorem wit_HostShapes :
    (let s := State.reset
     (after (.readClear { off := 2, size := 2, be := 3 }) s).rdata = [0x16403C9B] ∧
     (after (.readClear { off := 3, size := 2, be := 3 }) s).rdata = [0] ∧ (after (.readClear { off := 3, size := 2, be := 3 }) s).noc.unmap = 1 ∧
     (after (.readClear { off := 0, size := 8, be := 255 }) s).rdata.headD 0 = 0x16403C9B ∧
     (after (.readClear { off := 0, size := 8, be := 255 }) s).rdata.length = 2 ∧
     (after (.readClear { off := 0x3FFFFFF, size := 1, be := 1 }) s).noc.unmap = 1 ∧ (after (.readClear { off := 0x4000000 }) s).noc.unmap = 1 ∧
     (after (.registerWrite { bar2 := true, off := 0x22000000, data := [1] }) s).noc.unmap = 1) ∧
    (let s (f : VmiState → VmiState) := st fun d => { d with vmi := f { d.vmi with training := false, ready := true, cap := 1, mem := [(256, 7)] } }
     let r : Access := { bar2 := true, off := 0x2000100, size := 4 }
     let w : Access := { r with data := [0x0A0B0C0D] }
     (s id).dev.vmiStatus 256 4 = .ok ∧ (s id).dev.tested pdVmi = false ∧ ((s id).dev.domain pdVmi).closed = false ∧
     (after (.readClear r) (s id)).rdata = [7] ∧ rd32 (after (.registerWrite w) (s id)).vmi.mem 256 = 0x0A0B0C0D ∧
     (after (.readClear r) (s fun v => { v with training := true })).rdata = [0xFFFFFFFF] ∧
     (s fun v => { v with chFail := 1 }).dev.vmiStatus 256 4 = .mediaError ∧
     (after (.registerWrite w) (s fun v => { v with chFail := 1 })).vmi.errCount = 1 ∧
     (s fun v => { v with cap := 0 }).dev.vmiStatus 256 4 = .noRoute ∧ (after (.readClear r) (s fun v => { v with cap := 0 })).rdata = [0xFFFFFFFF]) ∧
    (let s := st fun d => { d with fcp := { d.fcp with fat := [(2, 9)] } }
     (after (.readClear { bar2 := true, off := 32, size := 16, be := 0xFFFF }) s).rdata = [9, 0, 0, 0] ∧
     (after (.registerWrite { bar2 := true, off := 32, size := 4, data := [1] }) s).noc.unmap = 1) := by decide +kernel

/-- A unit of the vector memory with some bytes enabled, read and written, and one of the FAT. -/
theorem wit_HostUnits :
    (let d : Dev := (st fun d => { d with
       vmi := { d.vmi with training := false, ready := true, cap := 1, mem := [(256, 7), (257, 8)] }, fcp := { d.fcp with fat := [(2, 9)] } }).dev
     let p (space : BitVec 8) (a : Nat) (be : BitVec 16) : Packet := { len := 1, status := space, addr := BitVec.ofNat 48 a, be := be, data := [0x0101] }
     (d.way (6 * 5 + (1 + 256 / 256 % 4)) 12 0 0).2 = none ∧ d.tested pdVmi = false ∧ d.streamFirst = false ∧
     (d.domain pdVmi).closed = false ∧ d.vmiStatus 256 16 = .ok ∧ (d.hostSend 0 (p 0xFE 256 0xF) {}).rdata = [0x0807] ∧
     (d.hostSend 2 (p 0xFE 256 1) {}).vmi.mem = [(256, 1), (257, 8)] ∧ (d.way (6 * (fatRouter 32).2 + (fatRouter 32).1) 12 0 0).2 = none ∧
     d.tested pdFat = false ∧ (d.domain pdFat).closed = false ∧ (d.hostSend 0 (p 0xFD 32 0xF) {}).rdata = [9] ∧
     (d.hostSend 2 (p 0xFD 32 0xF) {}).noc.unmap = 1) := by decide +kernel

/-- A write into a quad under test, one at its closed edge, and one of a timing register under PADLB. -/
theorem wit_EdgeWrites :
    (let t (c : Nat) : State := st fun d => { d with bst := { d.bst with tests := [{ domain := 2, cls := c, mask := 1, owner := {}, running := true }] } }
     let c := st fun d => d.updDomain 2 fun x => { x with closed := true }
     pdEq 0 = 2 ∧ (t 2).dev.tested 2 = true ∧ (after (.svalidWrite 0 1) (t 2)).noc.held.length = 1 ∧
     c.dev.tested 2 = false ∧ (after (.svalidWrite 0 1) c).evt.stat ≠ 0 ∧
     (t 0).dev.tested 2 = false ∧ (t 0).dev.quadTest 0 = true ∧ (after (.timChcfgWrite 0 1) (t 0)).noc.postDrop = 1) := by decide +kernel

/-- Both halves of a stamp, and a counter that its read clears. -/
theorem wit_Captures :
    (let s := st fun d => { d with time := { d.time with started := true, shown := true, gci := 0x700000005 }, noc := { d.noc with unmap := 9 } }
     s.dev.live = true ∧ (after .clkGciLoRead s).rdata = [5] ∧ fld (after .clkGciLoRead s).time.capHi 0 16 = 7 ∧
     (after (.readClear { off := 0xB0004 }) s).rdata = [9] ∧ (after (.readClear { off := 0xB0004 }) s).noc.unmap = 0 ∧
     (Sys2Proof.Stated.wayTo s.dev .clk).2 = none ∧ (Sys2Proof.Stated.wayTo s.dev .noc).2 = none ∧
     s.dev.tested (pdEq 63) = false ∧ (s.dev.domain (pdEq 63)).closed = false) := by decide +kernel

end Sys2Proof.Tests
end

/-! PROOFS. R20: a packet for a column or a row that the mesh does not have is answered by the first router it reaches. What its
way changes is what the device reports: the event tables, the recorder, the Byith link, the interrupt vectors, the tags and the
Lens probes. -/

namespace Sys2Proof.Machine

/-! ## What a firing changes of the CMD block -/

/-- The CMD block differs at most in its interrupt vectors: the pending bits and the messages sent. -/
def CmdState.vectorsLike (a b : CmdState) : Prop := ∃ v m, b = { a with pba := v, messages := m }

theorem CmdState.vectorsLike.refl (a : CmdState) : a.vectorsLike a := ⟨a.pba, a.messages, rfl⟩

theorem CmdState.vectorsLike.trans {a b c : CmdState} (h1 : a.vectorsLike b) (h2 : b.vectorsLike c) : a.vectorsLike c := by
  obtain ⟨v, m, rfl⟩ := h1
  obtain ⟨v', m', rfl⟩ := h2
  exact ⟨v', m', rfl⟩

theorem Dev.requestVector_vectorsLike (d : Dev) (n : Nat) : d.cmd.vectorsLike (d.requestVector n).cmd := by
  dsimp only [Dev.requestVector]
  split
  · exact ⟨_, d.cmd.messages, rfl⟩
  · exact ⟨d.cmd.pba, _, rfl⟩

@[simp] theorem Dev.sendFrame_cmd (d : Dev) (p : Nat) (f : Frame) (a : Bool) : (d.sendFrame p f a).cmd = d.cmd := rfl

@[simp] theorem Dev.forwardEvent_cmd (d : Dev) (w : BitVec 256) : (d.forwardEvent w).cmd = d.cmd := by
  unfold Dev.forwardEvent
  split <;> rfl

@[simp] theorem Dev.requestRecord_push_cmd (e : LogEnt) (d : Dev) : (Dev.requestRecord.push e d).1.cmd = d.cmd := by
  unfold Dev.requestRecord.push
  split
  · rfl
  · dsimp only
    split
    · rfl
    · split <;> rfl

@[simp] theorem Dev.requestRecord_cmd (d : Dev) (e : LogEnt) : (d.requestRecord e).1.cmd = d.cmd := by
  unfold Dev.requestRecord
  split
  · split
    · rfl
    · exact Dev.requestRecord_push_cmd e _
  · exact Dev.requestRecord_push_cmd e d

theorem Dev.fireRoutes_vectorsLike (d : Dev) (n : Nat) (p : Word) (s : Stamp) :
    d.cmd.vectorsLike (d.fireRoutes n p s).cmd := by
  unfold Dev.fireRoutes
  extract_lets cfg rose l _ d1 d2
  have h : d.cmd.vectorsLike d2.cmd := by
    simp only [d2]
    split
    · exact Dev.requestVector_vectorsLike d1 n
    · exact .refl _
  split
  · split
    · rwa [Dev.forwardEvent_cmd]
    · split
      · rwa [Dev.sendFrame_cmd]
      · exact h
  · exact h

theorem Dev.raiseDrop_vectorsLike (d : Dev) (v : Nat) (s : Stamp) : d.cmd.vectorsLike (d.raiseDrop v s).cmd := by
  unfold Dev.raiseDrop
  split
  · exact .refl _
  · dsimp only
    split
    · exact Dev.fireRoutes_vectorsLike _ _ _ _
    · exact .refl _

theorem Dev.fireAt_vectorsLike (d : Dev) (n : Nat) (p : Word) (s : Stamp) : d.cmd.vectorsLike (d.fireAt n p s).cmd := by
  unfold Dev.fireAt
  extract_lets cfg d1 e
  have h1 : d.cmd.vectorsLike d1.cmd := Dev.fireRoutes_vectorsLike d n p s
  split
  · exact .refl _
  · split
    · have h := d1.requestRecord_cmd e
      split
      · next x lost heq =>
        rw [heq] at h
        have hx : d.cmd.vectorsLike x.cmd := h ▸ h1
        split
        · exact hx.trans (Dev.raiseDrop_vectorsLike _ _ _)
        · exact hx
    · exact h1

/-! ## What a report of the device changes -/

/-- The device differs at most in what it reports and in its tags and probes: no memory, no ring, no route table and no packet
sent differs. -/
def Dev.reportLike (a b : Dev) : Prop := ∃ e c y l n, b = { a with evt := e, cmd := c, byt := y, log := l, noc := n } ∧
  a.cmd.vectorsLike c ∧ n.act = a.noc.act ∧ n.shd = a.noc.shd ∧ n.sent = a.noc.sent

theorem Dev.reportLike.trans {a b c : Dev} (h1 : a.reportLike b) (h2 : b.reportLike c) : a.reportLike c := by
  obtain ⟨_, _, _, _, _, rfl, hc, ha, hs, ht⟩ := h1
  obtain ⟨e, c, y, l, n, rfl, hc', ha', hs', ht'⟩ := h2
  exact ⟨e, c, y, l, n, rfl, hc.trans hc', ha'.trans ha, hs'.trans hs, ht'.trans ht⟩

/-- A change of the network that keeps its route tables and the packets sent. -/
theorem Dev.reportLike_noc (d : Dev) {n : NocState} (ha : n.act = d.noc.act) (hs : n.shd = d.noc.shd) (ht : n.sent = d.noc.sent) :
    d.reportLike { d with noc := n } :=
  ⟨d.evt, d.cmd, d.byt, d.log, n, rfl, .refl _, ha, hs, ht⟩

theorem Dev.reportLike.refl (d : Dev) : d.reportLike d := d.reportLike_noc rfl rfl rfl

theorem Dev.fire_reportLike (d : Dev) (n : Nat) (p : Word) : d.reportLike (d.fire n p) := by
  have hc : d.cmd.vectorsLike (d.fire n p).cmd := Dev.fireAt_vectorsLike d n p d.stamp
  obtain ⟨e, c, y, l, h⟩ := d.fire_like n p
  rw [h] at hc ⊢
  exact ⟨e, c, y, l, d.noc, rfl, hc, rfl, rfl, rfl⟩

theorem Dev.setTag_reportLike (d : Dev) (k : Nat) (x : TagSt) : d.reportLike (d.setTag k x) := d.reportLike_noc rfl rfl rfl

theorem Dev.setLens_reportLike (d : Dev) (k : Nat) (x : Lens) : d.reportLike (d.setLens k x) := d.reportLike_noc rfl rfl rfl

theorem Dev.postFailed_reportLike (d : Dev) (st : Status) (src : Nat) : d.reportLike (d.postFailed st src) :=
  (d.reportLike_noc rfl rfl rfl).trans (Dev.fire_reportLike _ _ _)

theorem Dev.lensSees_reportLike (d : Dev) (k : Nat) (h : QWord) (p : Packet) (units : Nat) :
    d.reportLike (d.lensSees k h p units) := by
  unfold Dev.lensSees
  extract_lets x n y z w
  split
  · exact .refl d
  · split
    · exact (d.setLens_reportLike k w).trans (Dev.fire_reportLike _ _ _)
    · exact d.setLens_reportLike k y

theorem Dev.reportLike_ite {a b c : Dev} {p : Prop} [Decidable p] (hb : a.reportLike b) (hc : a.reportLike c) :
    a.reportLike (if p then b else c) := by
  split
  · exact hb
  · exact hc

/-- Reports one after another. -/
theorem Dev.reportLike_foldl {α : Type} {f : Dev → α → Dev} (hf : ∀ (d : Dev) (x : α), d.reportLike (f d x)) :
    ∀ (l : List α) (d : Dev), d.reportLike (l.foldl f d)
  | [], d => .refl d
  | x :: l, d => (hf d x).trans (reportLike_foldl hf l (f d x))

theorem Dev.observe_reportLike (d : Dev) (hops : List Hop) (cmd units : Nat) (p : Packet) :
    d.reportLike (d.observe hops cmd units p) := by
  unfold Dev.observe
  exact Dev.reportLike_foldl (fun d k => Dev.reportLike_foldl (fun d hop =>
    Dev.reportLike_ite (d.lensSees_reportLike _ _ _ _) (.refl d)) hops d) (List.range 8) d

/-! ## Answers of the network -/

theorem Status.code_lt (st : Status) : st.code < 2 ^ 8 := by cases st <;> decide

/-- A response is one packet more to the initiator, with the request's tag, the status and the data; nothing else changes. -/
theorem Dev.respond_eq (d : Dev) (p : Packet) (st : Status) (data : List QWord) :
    ∃ r, d.respond p st data = { d with noc := { d.noc with sent := d.noc.sent ++ [r] } } ∧
      r.src = p.src ∧ r.tag = p.tag ∧ r.status.toNat = st.code ∧ r.data = data :=
  ⟨_, rfl, rfl, rfl, Nat.mod_eq_of_lt st.code_lt, rfl⟩

theorem Dev.reply_of_ne_posted {cmd : Nat} (h : cmd ≠ 2) (d : Dev) (p : Packet) (st : Status) (data : List QWord) :
    d.reply cmd p st data = d.respond p st data := if_neg h

theorem Dev.reply_posted {st : Status} (h : st ≠ .ok) (d : Dev) (p : Packet) (data : List QWord) :
    d.reply 2 p st data = d.postFailed st p.src.toNat := (if_pos rfl).trans (if_neg h)

/-! ## The way of a packet that has no destination -/

/-- An initiator sends a request: its tag is free where it needs one, a fabric port of it is open, and its power domain, if it lies
in one that can sleep, is On, not fenced and not under test. -/
theorem request_eq_launch {d : Dev} {cmd : Nat} {p : Packet} (otp : Otp) (htag : cmd ≠ 2 → d.tagSt (tagKey p) = .free)
    (hport : 40 ≤ p.src.toNat → p.src.toNat ≤ 43 → d.portShut (p.src.toNat - 40) = false)
    (hdom : ∀ n, srcDomain p.src.toNat = some n →
      (d.domain n).st = .on ∧ (d.domain n).closed = false ∧ d.tested n = false) :
    request cmd p otp d = d.launch cmd p otp := by
  have h1 : ¬ ((cmd ≠ 2 && decide (d.tagSt (tagKey p) ≠ .free)) = true) := by simpa using htag
  have h2 : ¬ ((40 ≤ p.src.toNat && p.src.toNat ≤ 43 && d.portShut (p.src.toNat - 40)) = true) := by
    simpa using hport
  simp only [request, if_neg h1, if_neg h2]
  split
  · rfl
  · next n hn =>
    obtain ⟨hon, hclosed, htest⟩ := hdom n hn
    simp [hon, hclosed, htest]

/-- The first router that a packet of its initiator reaches. -/
def firstRouter (p : Packet) : Nat := 6 * (srcRouter p.src.toNat).2 + (srcRouter p.src.toNat).1

/-- The device once a request is at its first router: its tag is taken, and the probes there have seen it. -/
def Dev.entersMesh (d : Dev) (cmd : Nat) (p : Packet) : Dev :=
  (if cmd = 2 then d else d.setTag (tagKey p) .outstanding).observe [⟨firstRouter p, 0, 7⟩] cmd
    (if cmd = 0 || cmd = 9 then 0 else p.len.toNat) p

theorem Dev.entersMesh_reportLike (d : Dev) (cmd : Nat) (p : Packet) : d.reportLike (d.entersMesh cmd p) :=
  (Dev.reportLike_ite (.refl d) (d.setTag_reportLike _ _)).trans (Dev.observe_reportLike _ _ _ _ _)

/-- R20: the first router raises EV194 and answers a packet to DX or DY 6 or 7 with NO_ROUTE. -/
theorem Dev.launch_offGrid (d : Dev) (cmd : Nat) {p : Packet} (otp : Otp) (h7 : p.src ≠ 7) (h44 : p.src.toNat < 44)
    (hout : 5 < p.dx.toNat ∨ 5 < p.dy.toNat) :
    d.launch cmd p otp =
      ((d.entersMesh cmd p).fire 194 (payload .noRoute 1 (firstRouter p))).reply cmd p .noRoute [] := by
  have hsrc : ¬ ((p.src.toNat = 7 || 44 ≤ p.src.toNat) = true) := by
    have : p.src.toNat ≠ 7 := fun h => h7 (BitVec.eq_of_toNat_eq h)
    simp only [Bool.or_eq_true, decide_eq_true_eq]
    omega
  have hdst : (5 < p.dx.toNat || 5 < p.dy.toNat) = true := by simpa using hout
  exact (if_neg hsrc).trans (if_pos hdst)

/-- What R20 leaves as it was: everything but the reports, and with them host memory, the host rings and the route tables. -/
theorem Dev.reportLike.kept {a b : Dev} (h : a.reportLike b) :
    b = { a with evt := b.evt, log := b.log, byt := b.byt, noc := b.noc, cmd := b.cmd } ∧ b.cmd.hostMem = a.cmd.hostMem ∧
      b.cmd.queues = a.cmd.queues ∧ b.noc.act = a.noc.act ∧ b.noc.shd = a.noc.shd := by
  obtain ⟨_, _, _, _, _, rfl, ⟨_, _, rfl⟩, ha, hs, -⟩ := h
  exact ⟨rfl, rfl, rfl, ha, hs⟩

/-- Settles O57: every request but a posted write is answered by one packet, which carries NO_ROUTE and no data; a posted write is
reported as failed. Either way the device differs from before by reports alone. -/
theorem noRouteAnswers : Obligations.NoRouteAnswers := by
  unfold Obligations.NoRouteAnswers
  intro s p hlive hout h7 h44 htag hport hdom kept answered
  have sends (cmd : Nat) :
      ∃ d, s.dev.reportLike d ∧ s.onDev (request cmd p) = .next { s with dev := d.reply cmd p .noRoute [] } := by
    refine ⟨(s.dev.entersMesh cmd p).fire 194 (payload .noRoute 1 (firstRouter p)),
      (s.dev.entersMesh_reportLike cmd p).trans (Dev.fire_reportLike _ _ _), ?_⟩
    rw [State.onDev_live s _ hlive, request_eq_launch s.otp (fun _ => htag) (fun h _ => hport h),
      s.dev.launch_offGrid cmd s.otp h7 h44 hout]
    intro n hn
    obtain ⟨hon, hopen⟩ := hdom n hn
    exact ⟨of_decide_eq_true hon, hopen⟩
  have answers {cmd : Nat} (hcmd : cmd ≠ 2) {i : Instr} (hi : exec i s = s.onDev (request cmd p)) : answered i := by
    obtain ⟨d, hd, hs⟩ := sends cmd
    obtain ⟨r, hr, hsrc, hrtag, hst, hdata⟩ := d.respond_eq p .noRoute []
    rw [d.reply_of_ne_posted hcmd, hr] at hs
    obtain ⟨_, _, _, _, _, rfl, ⟨_, _, rfl⟩, hact, hshd, hsent⟩ := hd
    exact ⟨_, r, hi.trans hs, by rw [hsent], hsrc, hrtag, hst, hdata, rfl, rfl, rfl, hact, hshd⟩
  refine ⟨answers (by decide) (exec_read p s), answers (by decide) (exec_write p s), answers (by decide) (exec_atomicOr p s),
    answers (by decide) (exec_atomicAdd p s), answers (by decide) (exec_atomicSwap p s), answers (by decide) (exec_atomicCas p s),
    answers (by decide) (exec_flush p s), ?_⟩
  obtain ⟨d, hd, hs⟩ := sends 2
  rw [d.reply_posted (by decide)] at hs
  exact ⟨_, hs, (hd.trans (d.postFailed_reportLike _ _)).kept⟩

end Sys2Proof.Machine

/-! PROOFS. R22 and R430: an access of host software to an offset that a block's table does not list, and the words of EVT_LAST
that a read of EVT_LAST_PAY captures. What such an access changes is its count, the reports and what the Lens probes saw. -/

namespace Sys2Proof.Machine

/-! ## What a firing changes of the event tables -/

/-- The event tables after a firing of EVn that acts: its last firing, its status bit and the firings handed to the Steward. -/
def EvtState.fired (e : EvtState) (n : Nat) (p : Word) (s : Stamp) : EvtState :=
  { e with
    last := Store.put evtLastReset e.last n
      { payload := p, stamp := s, count := satAdd 65535 (Store.get evtLastReset e.last n).count 1 }
    stat := setBit e.stat n
    steward := if (Store.get evtCfgReset e.cfg n).stw then e.steward ++ [n] else e.steward }

@[simp] theorem EvtState.fired_cfg (e : EvtState) (n : Nat) (p : Word) (s : Stamp) : (e.fired n p s).cfg = e.cfg := rfl
@[simp] theorem EvtState.fired_cap (e : EvtState) (n : Nat) (p : Word) (s : Stamp) : (e.fired n p s).cap = e.cap := rfl

theorem EvtState.fired_last_self (e : EvtState) (n : Nat) (p : Word) (s : Stamp) :
    (Store.get evtLastReset (e.fired n p s).last n).payload = p :=
  congrArg EvtLast.payload (Store.get_put_self ..)

theorem EvtState.fired_last_of_ne (e : EvtState) {n m : Nat} (h : n ≠ m) (p : Word) (s : Stamp) :
    Store.get evtLastReset (e.fired n p s).last m = Store.get evtLastReset e.last m :=
  Store.get_put_of_ne _ _ _ _ _ h

@[simp] theorem Dev.requestVector_evt (d : Dev) (n : Nat) : (d.requestVector n).evt = d.evt := by
  dsimp only [Dev.requestVector]
  split <;> rfl

@[simp] theorem Dev.sendFrame_evt (d : Dev) (p : Nat) (f : Frame) (a : Bool) : (d.sendFrame p f a).evt = d.evt := rfl

@[simp] theorem Dev.forwardEvent_evt (d : Dev) (w : BitVec 256) : (d.forwardEvent w).evt = d.evt := by
  unfold Dev.forwardEvent
  split <;> rfl

@[simp] theorem Dev.requestRecord_push_evt (e : LogEnt) (d : Dev) : (Dev.requestRecord.push e d).1.evt = d.evt := by
  unfold Dev.requestRecord.push
  split
  · rfl
  · dsimp only
    split
    · rfl
    · split <;> rfl

@[simp] theorem Dev.requestRecord_evt (d : Dev) (e : LogEnt) : (d.requestRecord e).1.evt = d.evt := by
  unfold Dev.requestRecord
  split
  · split
    · rfl
    · exact Dev.requestRecord_push_evt e _
  · exact Dev.requestRecord_push_evt e d

/-- The MSI and BYT routes of a firing leave the event tables alone. -/
@[simp] theorem Dev.fireRoutes_evt (d : Dev) (n : Nat) (p : Word) (s : Stamp) :
    (d.fireRoutes n p s).evt = d.evt.fired n p s := by
  unfold Dev.fireRoutes
  extract_lets cfg rose l _ d1 d2
  have h : d2.evt = d.evt.fired n p s := by
    simp only [d2]
    split
    · exact d1.requestVector_evt n
    · rfl
  split
  · split
    · rwa [Dev.forwardEvent_evt]
    · split
      · rwa [Dev.sendFrame_evt]
      · exact h
  · exact h

/-- A drop report changes the tables of EV241 or nothing of them. -/
theorem Dev.raiseDrop_evt (d : Dev) (v : Nat) (s : Stamp) :
    (d.raiseDrop v s).evt = d.evt ∨ ∃ p, (d.raiseDrop v s).evt = d.evt.fired 241 p s := by
  unfold Dev.raiseDrop
  split
  · exact .inl rfl
  · dsimp only
    split
    · exact .inr ⟨_, Dev.fireRoutes_evt _ _ _ _⟩
    · exact .inl rfl

theorem Dev.fireAt_disabled {d : Dev} {n : Nat} (h : (d.evtCfg n).en = false) (p : Word) (s : Stamp) : d.fireAt n p s = d := by
  simp [Dev.fireAt, h]

/-- A firing of an enabled event writes the tables of that event, and those of EV241 where its record is dropped. -/
theorem Dev.fireAt_evt {d : Dev} {n : Nat} (h : (d.evtCfg n).en = true) (p : Word) (s : Stamp) :
    (d.fireAt n p s).evt = d.evt.fired n p s ∨ ∃ q, (d.fireAt n p s).evt = (d.evt.fired n p s).fired 241 q s := by
  unfold Dev.fireAt
  extract_lets cfg d1 e
  have h1 : d1.evt = d.evt.fired n p s := Dev.fireRoutes_evt d n p s
  rw [if_neg (by simp [cfg, h])]
  split
  · have hr := (d1.requestRecord_evt e).trans h1
    split
    next x lost heq =>
    rw [heq] at hr
    split
    · exact hr ▸ x.raiseDrop_evt e.sev s
    · exact .inl hr
  · exact .inl h1

/-- The configuration and the captured words stay as they are, and the last firing of every event beyond EV241. -/
def EvtState.keeps (a b : EvtState) : Prop :=
  b.cfg = a.cfg ∧ b.cap = a.cap ∧ ∀ m, 241 < m → Store.get evtLastReset b.last m = Store.get evtLastReset a.last m

theorem EvtState.keeps.refl (a : EvtState) : a.keeps a := ⟨rfl, rfl, fun _ _ => rfl⟩

theorem EvtState.keeps.trans {a b c : EvtState} (h1 : a.keeps b) (h2 : b.keeps c) : a.keeps c := by
  obtain ⟨hcfg, hcap, hlast⟩ := h1
  obtain ⟨hcfg', hcap', hlast'⟩ := h2
  exact ⟨hcfg'.trans hcfg, hcap'.trans hcap, fun m hm => (hlast' m hm).trans (hlast m hm)⟩

theorem EvtState.keeps_fired (e : EvtState) {n : Nat} (h : n ≤ 241) (p : Word) (s : Stamp) : e.keeps (e.fired n p s) :=
  ⟨rfl, rfl, fun _ hm => e.fired_last_of_ne (by omega) p s⟩

theorem Dev.fireAt_keeps (d : Dev) {n : Nat} (h : n ≤ 241) (p : Word) (s : Stamp) : d.evt.keeps (d.fireAt n p s).evt := by
  cases hen : (d.evtCfg n).en with
  | false => rw [Dev.fireAt_disabled hen]; exact .refl _
  | true =>
    have hn := d.evt.keeps_fired h p s
    obtain he | ⟨q, he⟩ := Dev.fireAt_evt hen p s
    · rwa [he]
    · exact he ▸ hn.trans (EvtState.keeps_fired _ (Nat.le_refl 241) q s)

@[simp] theorem Dev.fireAt_cap (d : Dev) (n : Nat) (p : Word) (s : Stamp) : (d.fireAt n p s).evt.cap = d.evt.cap := by
  cases hen : (d.evtCfg n).en with
  | false => rw [Dev.fireAt_disabled hen]
  | true => obtain he | ⟨q, he⟩ := Dev.fireAt_evt hen p s <;> rw [he] <;> rfl

/-- A firing is the last one of its event; EV241 alone may fire once more after it. -/
theorem Dev.fireAt_evtLast_payload {d : Dev} {n : Nat} (hen : (d.evtCfg n).en = true) (hn : n ≠ 241) (p : Word) (s : Stamp) :
    ((d.fireAt n p s).evtLast n).payload = p := by
  have hself := d.evt.fired_last_self n p s
  obtain he | ⟨q, he⟩ := Dev.fireAt_evt hen p s
  · rwa [Dev.evtLast, he]
  · rwa [Dev.evtLast, he, EvtState.fired_last_of_ne _ hn.symm]

/-! ## What the probes on a packet's way change -/

/-- The device differs at most in its Lens probes and in what their events report. -/
def Dev.sightLike (a b : Dev) : Prop := ∃ e c y l v,
  b = { a with evt := e, cmd := c, byt := y, log := l, noc := { a.noc with lens := v } } ∧ a.evt.keeps e

theorem Dev.sightLike.refl (d : Dev) : d.sightLike d := ⟨d.evt, d.cmd, d.byt, d.log, d.noc.lens, rfl, .refl _⟩

theorem Dev.sightLike.trans {a b c : Dev} (h1 : a.sightLike b) (h2 : b.sightLike c) : a.sightLike c := by
  obtain ⟨_, _, _, _, _, rfl, he⟩ := h1
  obtain ⟨e, c, y, l, v, rfl, he'⟩ := h2
  exact ⟨e, c, y, l, v, rfl, he.trans he'⟩

theorem Dev.setLens_sightLike (d : Dev) (k : Nat) (x : Lens) : d.sightLike (d.setLens k x) :=
  ⟨d.evt, d.cmd, d.byt, d.log, _, rfl, .refl _⟩

theorem Dev.fire_sightLike (d : Dev) {n : Nat} (h : n ≤ 241) (p : Word) : d.sightLike (d.fire n p) := by
  have hk : d.evt.keeps (d.fire n p).evt := d.fireAt_keeps h p d.stamp
  obtain ⟨e, c, y, l, he⟩ := d.fire_like n p
  rw [he] at hk ⊢
  exact ⟨e, c, y, l, d.noc.lens, rfl, hk⟩

theorem Dev.lensSees_sightLike (d : Dev) {k : Nat} (hk : k < 8) (h : QWord) (p : Packet) (units : Nat) :
    d.sightLike (d.lensSees k h p units) := by
  unfold Dev.lensSees
  extract_lets x n y z w
  split
  · exact .refl d
  · split
    · exact (d.setLens_sightLike k w).trans (Dev.fire_sightLike _ (by omega) _)
    · exact d.setLens_sightLike k y

theorem Dev.sightLike_ite {a b c : Dev} {p : Prop} [Decidable p] (hb : a.sightLike b) (hc : a.sightLike c) :
    a.sightLike (if p then b else c) := by
  split
  · exact hb
  · exact hc

theorem Dev.observe_sightLike (d : Dev) (hops : List Hop) (cmd units : Nat) (p : Packet) :
    d.sightLike (d.observe hops cmd units p) := by
  unfold Dev.observe
  refine List.foldlRecOn _ _ (.refl d) fun a ha k hk => ?_
  refine List.foldlRecOn _ _ ha fun b hb hop _ => ?_
  exact Dev.sightLike_ite (hb.trans (b.lensSees_sightLike (List.mem_range.mp hk) _ _ _)) hb

theorem Dev.hostBack_sightLike (d : Dev) (p : Packet) (st : Status) (data : List QWord) : d.sightLike (d.hostBack p st data) :=
  d.observe_sightLike _ _ _ _

/-! ## What an access that is not decoded changes (R22) -/

/-- One access that is not decoded has been counted and EV251 has reported it; the rest of the device differs at most in what
the probes saw, in the other reports and in the values returned. -/
def Dev.countedLike (a d : Dev) : Prop :=
  d.noc = { a.noc with unmap := satAdd 0xFFFFFFFF a.noc.unmap 1, lens := d.noc.lens } ∧
    ((a.evtCfg 251).en = true → (d.evtLast 251).payload = payload .noRoute 1 0) ∧ d.evt.cap = a.evt.cap ∧
    d = { a with evt := d.evt, log := d.log, byt := d.byt, noc := d.noc, cmd := d.cmd, rdata := d.rdata }

theorem Dev.countedLike.returned {a d : Dev} (h : a.countedLike d) (ws : List Word) : a.countedLike (d.returned ws) := by
  obtain ⟨hnoc, hlast, hcap, hd⟩ := h
  refine ⟨hnoc, hlast, hcap, ?_⟩
  rw [hd]
  rfl

/-- R22: the count, and the firing of EV251. -/
theorem Dev.undecoded_eq (d : Dev) : ∃ e c y l,
    d.undecoded = { d with evt := e, cmd := c, byt := y, log := l,
                           noc := { d.noc with unmap := satAdd 0xFFFFFFFF d.noc.unmap 1 } } ∧
      e.cap = d.evt.cap ∧
      ((d.evtCfg 251).en = true → (Store.get evtLastReset e.last 251).payload = payload .noRoute 1 0) := by
  have hcap : d.undecoded.evt.cap = d.evt.cap := Dev.fireAt_cap _ _ _ _
  have hpay (h : (d.evtCfg 251).en = true) : (d.undecoded.evtLast 251).payload = payload .noRoute 1 0 :=
    Dev.fireAt_evtLast_payload (d := { d with noc := { d.noc with unmap := satAdd 0xFFFFFFFF d.noc.unmap 1 } }) h (by decide) _ _
  obtain ⟨e, c, y, l, hu⟩ : Dev.evtLike _ d.undecoded := Dev.fire_like _ _ _
  rw [hu] at hcap hpay
  exact ⟨e, c, y, l, hu, hcap, hpay⟩

/-- The device before an access that is not decoded, between its way there and its way back, and after it. -/
theorem Dev.undecoded_countedLike {a b c : Dev} (h1 : a.sightLike b) (h2 : b.undecoded.sightLike c) :
    a.countedLike c ∧ c.rdata = a.rdata := by
  obtain ⟨e, m, y, l, hu, hcap, hpay⟩ := b.undecoded_eq
  rw [hu] at h2
  obtain ⟨e1, _, _, _, _, rfl, hcfg, hcap1, -⟩ := h1
  obtain ⟨e2, _, _, _, _, rfl, -, hcap2, hlast2⟩ := h2
  have hen (h : (a.evtCfg 251).en = true) : (Store.get evtCfgReset e1.cfg 251).en = true := hcfg ▸ h
  refine ⟨⟨rfl, fun h => ?_, (hcap2.trans hcap).trans hcap1, rfl⟩, rfl⟩
  exact (congrArg EvtLast.payload (hlast2 251 (by decide))).trans (hpay (hen h))

/-! ## The byte enables of one word (R23) -/

/-- A fold in which all but one of the indices do nothing. -/
theorem foldl_range_of_eq_self_of_ne {α : Type} {f : α → Nat → α} {n k : Nat} (hk : k < n)
    (h : ∀ a i, i < n → i ≠ k → f a i = a) (a : α) : (List.range n).foldl f a = f a k := by
  induction n with
  | zero => omega
  | succ n ih =>
    rw [List.range_succ, List.foldl_append, List.foldl_cons, List.foldl_nil]
    by_cases hn : k = n
    · have hpre : (List.range n).foldl f a = a :=
        List.foldlRecOn (motive := (· = a)) (List.range n) f rfl fun b hb i hi => by
          have hi := List.mem_range.mp hi
          rw [h b i (by omega) (by omega), hb]
      rw [hpre, hn]
    · rw [ih (by omega) fun b i hi => h b i (by omega), h _ n (by omega) (Ne.symm hn)]

/-- The byte enables of the word at offset `off` in its unit of 16 bytes. -/
def wordEnable (off : Nat) : BitVec 16 := BitVec.ofNat 16 (15 * 2 ^ (off % 16))

/-- Word `off / 4 % 4` of the unit is enabled whole, and the others are not. -/
theorem fld_wordEnable {off i : Nat} (h : off % 4 = 0) (hi : i < 4) :
    fld (wordEnable off) (4 * i) 4 = if i = off / 4 % 4 then 15 else 0 := by
  have hk : off % 16 = 4 * (off / 4 % 4) := by omega
  have hlt : off / 4 % 4 < 4 := Nat.mod_lt _ (by decide)
  rw [wordEnable, hk]
  generalize off / 4 % 4 = k at hlt
  have hall : ∀ k < 4, ∀ i < 4, fld (BitVec.ofNat 16 (15 * 2 ^ (4 * k))) (4 * i) 4 = if i = k then 15 else 0 := by decide
  exact hall k hlt i hi

theorem fld_wordEnable_self {off : Nat} (h : off % 4 = 0) : fld (wordEnable off) (4 * (off / 4 % 4)) 4 = 15 :=
  (fld_wordEnable h (Nat.mod_lt _ (by decide))).trans (if_pos rfl)

theorem fld_wordEnable_of_ne {off i : Nat} (h : off % 4 = 0) (hi : i < 4) (hne : i ≠ off / 4 % 4) :
    fld (wordEnable off) (4 * i) 4 = 0 := (fld_wordEnable h hi).trans (if_neg hne)

/-- A read of one whole word of a unit is one access of its BAR0 offset, placed at the word's place in the unit. -/
theorem Dev.unitRead_wordEnable (d : Dev) (otp : Otp) {off : Nat} (h : off % 4 = 0) :
    d.unitRead otp off (wordEnable off) =
      (BitVec.ofNat 128 (at' (32 * (off / 4 % 4)) (d.bar0Read otp off).1.toNat), (d.bar0Read otp off).2) := by
  have hoff : off / 16 * 16 + 4 * (off / 4 % 4) = off := by omega
  unfold Dev.unitRead
  rw [foldl_range_of_eq_self_of_ne (Nat.mod_lt (off / 4) (by decide : 0 < 4))
    fun x i hi hne => if_pos (fld_wordEnable_of_ne h hi hne)]
  simp [fld_wordEnable_self h, hoff]

/-- A write of one whole word of a unit is one access of its BAR0 offset. -/
theorem Dev.unitWrite_wordEnable (d : Dev) (src : Nat) (v : QWord) (otp : Otp) {off : Nat} (h : off % 4 = 0) :
    d.unitWrite src off (wordEnable off) v otp = d.bar0Write src off (word (fld v (32 * (off / 4 % 4)) 32)) otp := by
  have hoff : off / 16 * 16 + 4 * (off / 4 % 4) = off := by omega
  unfold Dev.unitWrite
  rw [foldl_range_of_eq_self_of_ne (Nat.mod_lt (off / 4) (by decide : 0 < 4))
    fun x i hi hne => if_pos (fld_wordEnable_of_ne h hi hne)]
  simp [fld_wordEnable_self h, hoff]

/-- A read of one word returns one word out of its unit; out of a unit of zeros, a zero. -/
theorem laneWords_wordEnable_zero {off : Nat} (h : off % 4 = 0) : laneWords (wordEnable off) 0 = [0] := by
  have hone : ∀ k < 4, (List.range 4).filter (fun i => decide (i = k)) = [k] := by decide
  have hlane : (List.range 4).filter (fun i => fld (wordEnable off) (4 * i) 4 != 0) = [off / 4 % 4] := by
    rw [← hone _ (Nat.mod_lt (off / 4) (by decide))]
    refine List.filter_congr fun i hi => ?_
    rw [fld_wordEnable h (List.mem_range.mp hi)]
    split <;> simp [*]
  rw [laneWords, hlane, List.map_singleton]
  refine congrArg (fun n => [word n]) (List.foldlRecOn (motive := (· = 0)) _ _ rfl fun n hn j _ => ?_)
  simp [hn, fld, at']

/-! ## The way of a word's access to its block (R23, R24) -/

/-- A block lies in BAR0, and its offsets are BAR0's word for word. -/
theorem blockOf_bounds {off o : Nat} {b : Block} (h : blockOf off = some (b, o)) : off < 2 ^ 25 ∧ o % 4 = off % 4 := by
  unfold blockOf at h
  split at h
  · obtain ⟨_, -, heq⟩ := Option.map_eq_some_iff.mp h
    cases heq
    omega
  · have within {lo hi m : Nat} {x : Block} (hhi : hi ≤ 2 ^ 25) (hm : 4 ∣ m)
        (hr : (decide (lo ≤ off) && decide (off < hi)) = true) (hs : some (x, off % m) = some (b, o)) :
        off < 2 ^ 25 ∧ o % 4 = off % 4 := by
      obtain ⟨-, rfl⟩ := Prod.mk.inj (Option.some.inj hs)
      simp only [Bool.and_eq_true, decide_eq_true_eq] at hr
      exact ⟨by omega, Nat.mod_mod_of_dvd off hm⟩
    split at h
    · next hr => exact within (by decide) (by decide) hr h
    · split at h
      · next hr => exact within (by decide) (by decide) hr h
      · split at h
        · next hr => exact within (by decide) (by decide) hr h
        · split at h
          · next hr => exact within (by decide) (by decide) hr h
          · cases h

/-- An access of one word of BAR0 has the shape of R23. -/
theorem accBar0Ok_word {off : BitVec 30} (h : off.toNat % 4 = 0) (hlt : off.toNat < 2 ^ 25) (ws : List Word) :
    accBar0Ok { off := off, data := ws } = true := by
  simp [accBar0Ok, h]
  omega

theorem hostRead_word {off : BitVec 30} (h : off.toNat % 4 = 0) (hlt : off.toNat < 2 ^ 25) (otp : Otp) (d : Dev) :
    hostRead { off := off } otp d = d.hostSend 0 (Sys2Proof.Stated.hostWord 0 off.toNat 0) otp := by
  simp [hostRead, accBar0Ok_word h hlt]
  rfl

theorem hostWriteAcc_word {off : BitVec 30} (h : off.toNat % 4 = 0) (hlt : off.toNat < 2 ^ 25) (w : Word) (otp : Otp) (d : Dev) :
    hostWriteAcc { off := off, data := [w] } otp d = d.hostSend 2 (Sys2Proof.Stated.hostWord 2 off.toNat w) otp := by
  simp [hostWriteAcc, accBar0Ok_word h hlt]
  rfl

theorem hostWord_status (cmd off : Nat) (w : Word) : (Sys2Proof.Stated.hostWord cmd off w).status = 0xFF := rfl
theorem hostWord_src (cmd off : Nat) (w : Word) : (Sys2Proof.Stated.hostWord cmd off w).src = 0 := rfl
theorem hostWord_be (cmd off : Nat) (w : Word) : (Sys2Proof.Stated.hostWord cmd off w).be = wordEnable off := rfl

/-- The word that a write places in its unit is the one taken out again. -/
theorem word_of_hostWord {off : Nat} (h : off % 4 = 0) (w : Word) :
    word (fld ((Sys2Proof.Stated.hostWord 2 off w).data.headD 0) (32 * (off / 4 % 4)) 32) = w := by
  have hk : 8 * (off % 16) = 32 * (off / 4 % 4) := by omega
  have hlt : w.toNat * 2 ^ (32 * (off / 4 % 4)) < 2 ^ 128 :=
    calc w.toNat * 2 ^ (32 * (off / 4 % 4)) < 2 ^ 32 * 2 ^ (32 * (off / 4 % 4)) :=
          Nat.mul_lt_mul_of_pos_right w.isLt (Nat.two_pow_pos _)
      _ = 2 ^ (32 + 32 * (off / 4 % 4)) := (Nat.pow_add ..).symm
      _ ≤ 2 ^ 128 := Nat.pow_le_pow_right (by decide) (by omega)
  have hfld : fld (BitVec.ofNat 128 (w.toNat * 2 ^ (8 * (off % 16)))) (32 * (off / 4 % 4)) 32 = w.toNat := by
    rw [fld, BitVec.toNat_ofNat, hk, Nat.mod_eq_of_lt hlt, Nat.mul_div_cancel _ (Nat.two_pow_pos _), Nat.mod_eq_of_lt w.isLt]
  exact (congrArg word hfld).trans (BitVec.ofNat_toNat ..)

section
variable {off o : Nat} {b : Block} (hblk : blockOf off = some (b, o))
include hblk

theorem hostWord_addr (cmd : Nat) (w : Word) : (Sys2Proof.Stated.hostWord cmd off w).addr.toNat = off := by
  obtain ⟨hlt, -⟩ := blockOf_bounds hblk
  exact Nat.mod_eq_of_lt (by omega)

theorem hostRouter_hostWord (cmd : Nat) (w : Word) : hostRouter (Sys2Proof.Stated.hostWord cmd off w) = b.router := by
  simp [hostRouter, hostWord_status, hostWord_addr hblk, hblk]

theorem hostDomain_hostWord (cmd : Nat) (w : Word) : hostDomain (Sys2Proof.Stated.hostWord cmd off w) = b.domain := by
  simp [hostDomain, hostWord_status, hostWord_addr hblk, hblk]

/-- Where no route table holds it up, an access of a block that is always reached crosses the mesh and is served. -/
theorem Dev.hostSend_hostWord {d : Dev} (hdom : b.domain = none) (hway : (Sys2Proof.Stated.wayTo d b).2 = none) (cmd : Nat) (w : Word)
    (otp : Otp) : d.hostSend cmd (Sys2Proof.Stated.hostWord cmd off w) otp =
      (Sys2Proof.Stated.crossed d b cmd off w).hostServe cmd (Sys2Proof.Stated.hostWord cmd off w) otp := by
  unfold Sys2Proof.Stated.wayTo at hway
  simp only [Dev.hostSend, Dev.hostCross, hostRouter_hostWord hblk, hostDomain_hostWord hblk, hdom, hway]
  rfl

variable (hfab : ∀ p, b ≠ .fab p) (hoff : off % 4 = 0)
include hfab hoff

/-- A read of a word is answered with what the block reads there. -/
theorem Dev.hostServe_read (d : Dev) (otp : Otp) : d.hostServe 0 (Sys2Proof.Stated.hostWord 0 off 0) otp =
    (d.regRead otp b o).2.hostAnswer (Sys2Proof.Stated.hostWord 0 off 0)
      (BitVec.ofNat 128 (at' (32 * (off / 4 % 4)) (d.regRead otp b o).1.toNat)) := by
  have hread : d.bar0Read otp off = d.regRead otp b o := by simp only [Dev.bar0Read, hblk]
  unfold Dev.hostServe
  simp only [hostWord_status, hostWord_addr hblk, hblk]
  rw [if_neg (by decide), if_neg (by decide)]
  split
  · next h => cases h; exact absurd rfl (hfab _)
  · simp only [hostWord_be, Dev.unitRead_wordEnable _ _ hoff, hread, decide_true, if_true]

/-- A write of a word that no analogue test makes busy writes the block there. -/
theorem Dev.hostServe_write {d : Dev} (hbusy : d.timBusy off = false) (w : Word) (otp : Otp) :
    d.hostServe 2 (Sys2Proof.Stated.hostWord 2 off w) otp = regWrite 0 b o w otp d := by
  unfold Dev.hostServe
  simp only [hostWord_status, hostWord_addr hblk, hblk]
  rw [if_neg (by decide), if_neg (by decide)]
  split
  · next h => cases h; exact absurd rfl (hfab _)
  · simp only [hostWord_be, hostWord_src, Dev.unitWrite_wordEnable _ _ _ _ hoff, hbusy, Dev.bar0Write, hblk]
    exact congrArg (regWrite 0 b o · otp d) (word_of_hostWord hoff w)

end

theorem Dev.timBusy_of_domain_none {off o : Nat} {b : Block} (hblk : blockOf off = some (b, o)) (hdom : b.domain = none)
    (d : Dev) : d.timBusy off = false := by
  unfold Dev.timBusy
  split
  · next h => rw [hblk] at h; cases h; cases hdom
  · rfl

/-- R22: an offset that a block which is always reached does not decode behaves as an unlisted one. -/
theorem unlisted_of_regVal_none {s : State} {b : Block} {o : Nat} (hlive : s.dev.live = true) (hdom : b.domain = none)
    (hfab : ∀ p, b ≠ .fab p) (hval : o % 4 = 0 → ∀ d : Dev, regVal s.otp d b o = none) : Sys2Proof.Stated.unlisted s b o := by
  intro off w hoff hblk hway
  obtain ⟨hlt, ho⟩ := blockOf_bounds hblk
  have hnone := hval (ho.trans hoff)
  have hsent (cmd : Nat) (v : Word) : s.dev.sightLike (Sys2Proof.Stated.crossed s.dev b cmd off.toNat v) :=
    s.dev.observe_sightLike _ _ _ _
  constructor
  · generalize hc : Sys2Proof.Stated.crossed s.dev b 0 off.toNat 0 = c
    have hread : c.regRead s.otp b o = (0, c.undecoded) := by simp only [Dev.regRead, hnone c]
    obtain ⟨hkept, hdata⟩ := Dev.undecoded_countedLike (hc ▸ hsent 0 0)
      (c.undecoded.hostBack_sightLike (Sys2Proof.Stated.hostWord 0 off.toNat 0) .ok [0])
    refine ⟨_, ?_, hkept.returned [0], congrArg (· ++ [0]) hdata⟩
    rw [exec_readClear, execReadClear, State.onDev_live s _ hlive, hostRead_word hoff hlt,
      Dev.hostSend_hostWord hblk hdom hway, hc, Dev.hostServe_read hblk hfab hoff, hread]
    have hzero (k : Nat) : BitVec.ofNat 128 (at' k (0 : Word).toNat) = 0 := by simp [at']
    rw [Dev.hostAnswer, hzero, hostWord_be, laneWords_wordEnable_zero hoff]
  · generalize hc : Sys2Proof.Stated.crossed s.dev b 2 off.toNat w = c
    have hwrite : regWrite 0 b o w s.otp c = c.undecoded := if_pos (by rw [hnone]; rfl)
    obtain ⟨hkept, hdata⟩ := Dev.undecoded_countedLike (hc ▸ hsent 2 w) (.refl _)
    refine ⟨_, ?_, hkept, hdata⟩
    rw [exec_registerWrite, execRegisterWrite, State.onDev_live s _ hlive, hostWriteAcc_word hoff hlt,
      Dev.hostSend_hostWord hblk hdom hway, hc, Dev.hostServe_write hblk hfab hoff (Dev.timBusy_of_domain_none hblk hdom c), hwrite]

/-! ## The EVT block (R430) -/

theorem regIdx_eq_none {o base stride n : Nat} (h : o < base ∨ n ≤ (o - base) / stride) : regIdx o base stride n = none := by
  refine if_neg ?_
  simp only [Bool.and_eq_true, decide_eq_true_eq]
  omega

theorem regArr_eq_none {o base n : Nat} (h : o < base ∨ n ≤ (o - base) / 4) : regArr o base n = none := by
  rw [regArr, regIdx_eq_none h]

theorem regIdx_element {base stride n i r : Nat} (hi : i < n) (hr : r < stride) :
    regIdx (base + stride * i + r) base stride n = some (i, r) := by
  have hsub : base + stride * i + r - base = stride * i + r := by omega
  have hdiv : (stride * i + r) / stride = i := by rw [Nat.mul_add_div (by omega), Nat.div_eq_of_lt hr, Nat.add_zero]
  have hmod : (stride * i + r) % stride = r := by rw [Nat.mul_add_mod, Nat.mod_eq_of_lt hr]
  have hle : base ≤ base + stride * i + r := by omega
  simp [regIdx, hsub, hdiv, hmod, hi, hle]

/-- Table 19-8 lists the words up to 0x420 and the words of EVT_LAST, and nothing else. -/
theorem evtRead_eq_none {d : Dev} {o : Nat} (h : ¬ (o ≤ 0x420 ∨ 0x1000 ≤ o ∧ o < 0x2000)) : evtRead d o = none := by
  have hcfg : regArr o 0x000 256 = none := regArr_eq_none (by omega)
  have hstat : regArr o 0x400 8 = none := regArr_eq_none (by omega)
  have hlast : regIdx o 0x1000 16 256 = none := regIdx_eq_none (by omega)
  simp only [evtRead, hcfg, hstat, hlast]
  exact if_neg (by omega)

/-- What EVT_LAST reads at word `r` beyond the payload: the captured words. -/
def EvtCap.word (c : EvtCap) (r : Nat) : Option Word :=
  match r with
  | 4 => some c.lo
  | 8 => some c.hi
  | 12 => some c.fc
  | _ => none

/-- The words beyond the payload: the halves of the stamp, and fraction with count. -/
theorem mem_captured {r : Nat} : r ∈ [4, 8, 12] ↔ r = 4 ∨ r = 8 ∨ r = 12 := by simp

theorem regVal_evtLast {n r : Nat} (hn : n < 256) (hr : r ∈ [4, 8, 12]) (otp : Otp) (d : Dev) :
    regVal otp d .evt (0x1000 + 16 * n + r) = (Store.get evtCapReset d.evt.cap n).word r := by
  have hcfg : regArr (0x1000 + 16 * n + r) 0x000 256 = none := regArr_eq_none (by omega)
  have hstat : regArr (0x1000 + 16 * n + r) 0x400 8 = none := regArr_eq_none (by omega)
  have hlast : regIdx (0x1000 + 16 * n + r) 0x1000 16 256 = some (n, r) :=
    regIdx_element hn (by have := mem_captured.mp hr; omega)
  simp only [regVal, evtRead, hcfg, hstat, hlast]
  obtain rfl | rfl | rfl := mem_captured.mp hr <;> rfl

/-- A read of a word of EVT_LAST beyond the payload captures nothing. -/
theorem readEffect_evtLast {m r : Nat} (hm : m < 256) (hr : r ∈ [4, 8, 12]) (d : Dev) :
    readEffect .evt (0x1000 + 16 * m + r) d = d := by
  have hlast : regIdx (0x1000 + 16 * m + r) 0x1000 16 256 = some (m, r) :=
    regIdx_element hm (by have := mem_captured.mp hr; omega)
  simp only [readEffect, hlast]
  obtain rfl | rfl | rfl := mem_captured.mp hr <;> rfl

/-- The three words of EVT_LAST(n) beyond its payload. -/
def evtLastWords (otp : Otp) (d : Dev) (n : Nat) : List (Option Word) :=
  [4, 8, 12].map fun r => regVal otp d .evt (0x1000 + 16 * n + r)

theorem evtLastWords_eq {n : Nat} (hn : n < 256) (otp : Otp) (d : Dev) :
    evtLastWords otp d n = [4, 8, 12].map (Store.get evtCapReset d.evt.cap n).word :=
  List.map_congr_left fun _ hr => regVal_evtLast hn hr otp d

theorem evtLastWords_fireAt {n : Nat} (hn : n < 256) (otp : Otp) (d : Dev) (m : Nat) (p : Word) (st : Stamp) :
    evtLastWords otp (d.fireAt m p st) n = evtLastWords otp d n := by
  rw [evtLastWords_eq hn, evtLastWords_eq hn, Dev.fireAt_cap]

theorem evtLastWords_evtLastPayRead {n : Nat} (hn : n < 256) (otp : Otp) (d : Dev) :
    evtLastWords otp (evtLastPayRead n d) n = [some (d.evtLast n).stamp.lo, some (d.evtLast n).stamp.hi,
      some (word ((d.evtLast n).stamp.frac.toNat * 65536 + (d.evtLast n).count))] := by
  have hcap : Store.get evtCapReset (evtLastPayRead n d).evt.cap n =
      { lo := (d.evtLast n).stamp.lo, hi := (d.evtLast n).stamp.hi,
        fc := word ((d.evtLast n).stamp.frac.toNat * 65536 + (d.evtLast n).count) } := Store.get_put_self ..
  rw [evtLastWords_eq hn, hcap]
  rfl

/-- Settles O59: an unlisted offset of EVT is not decoded, and the words that a read of EVT_LAST_PAY captures are kept by every
firing and by every read of them. -/
theorem eventLastWords : Obligations.EventLastWords := by
  unfold Obligations.EventLastWords
  intro s hlive listed
  refine ⟨fun o ho => ?_, fun n => ?_⟩
  · exact unlisted_of_regVal_none hlive rfl (by simp) fun halign _ => evtRead_eq_none fun h => ho ⟨halign, h⟩
  · intro l words
    refine ⟨evtLastPayRead n s.dev, ?_, rfl, evtLastWords_evtLastPayRead n.isLt s.otp s.dev,
      fun m p st => evtLastWords_fireAt n.isLt s.otp _ m p st, fun r hr m => ?_⟩
    · rw [exec_evtLastPayRead, execEvtLastPayRead, State.onDev_live s _ hlive]
    · rw [readEffect_evtLast m.isLt hr]

end Sys2Proof.Machine

/-! PROOFS. R456: the offsets of LCY that Table 21-8 does not list, and the words that LCY_QUERY returns. -/

namespace Sys2Proof.Machine

/-- Table 21-8 lists the words LCY_STAT, LCY_FUSE and LCY_DIGSET, and nothing else. -/
theorem lcyRead_eq_none_iff {otp : Otp} {d : Dev} {o : Nat} : lcyRead otp d o = none ↔ o ∉ [0, 4, 8] := by
  unfold lcyRead
  split
  · simp
  · simp
  · simp
  · next h0 h4 h8 => simpa using And.intro h0 (And.intro h4 h8)

/-- LCY_QUERY, once it has started, completes with LCY_STAT and LCY_FUSE and changes nothing else. -/
theorem State.Accepts.lcyQuery {s : State} {c : Tci} {o : Owner} {d : Dev} (h : s.Accepts 0xB0 c o d) :
    exec (.lcyQuery c) s = .next { s with dev := d.complete o .ok (lcyStat s.otp d) (lcyFuse s.otp) } :=
  (exec_lcyQuery c s).trans (h.runOtp Machine.lcyQuery)

/-- Settles O56: an unlisted offset of LCY is not decoded, and a started LCY_QUERY completes with the state's two words. -/
theorem lifeCycleRegisters : Obligations.LifeCycleRegisters := by
  unfold Obligations.LifeCycleRegisters
  refine ⟨fun s o hlive ho => ?_, fun s c o d h => h.lcyQuery⟩
  exact unlisted_of_regVal_none hlive rfl (by simp) fun _ _ => lcyRead_eq_none_iff.mpr ho

end Sys2Proof.Machine

/-! PROOFS. R477: the offsets of PTR that Table 22-6 does not list, and a GO write to PTR_HDCTL that is dropped. -/

namespace Sys2Proof.Machine

/-! ## A write of a word to a block that is always reached -/

/-- Where no route table holds it up, a host write of a word to a block that is always reached crosses the mesh and writes the
register there. -/
theorem exec_registerWrite_of_domain_none {s : State} {off : BitVec 30} {b : Block} {o : Nat} (hlive : s.dev.live = true)
    (hoff : off.toNat % 4 = 0) (hblk : blockOf off.toNat = some (b, o)) (hdom : b.domain = none) (hfab : ∀ p, b ≠ .fab p)
    (hway : (Sys2Proof.Stated.wayTo s.dev b).2 = none) (w : Word) :
    exec (.registerWrite { off := off, data := [w] }) s =
      .next { s with dev := regWrite 0 b o w s.otp (Sys2Proof.Stated.crossed s.dev b 2 off.toNat w) } := by
  obtain ⟨hlt, -⟩ := blockOf_bounds hblk
  rw [exec_registerWrite, execRegisterWrite, State.onDev_live s _ hlive, hostWriteAcc_word hoff hlt,
    Dev.hostSend_hostWord hblk hdom hway, Dev.hostServe_write hblk hfab hoff (Dev.timBusy_of_domain_none hblk hdom _)]

/-- What the probes see on a packet's way leaves the PTR block alone. -/
theorem Dev.sightLike.ptr_eq {a b : Dev} (h : a.sightLike b) : b.ptr = a.ptr := by
  obtain ⟨_, _, _, _, _, rfl, -⟩ := h
  rfl

@[simp] theorem crossed_ptr (d : Dev) (b : Block) (cmd off : Nat) (w : Word) :
    (Sys2Proof.Stated.crossed d b cmd off w).ptr = d.ptr :=
  (d.observe_sightLike _ _ _ _).ptr_eq

/-! ## The PTR block (R477) -/

/-- Table 22-6 lists PTR_STAT, PTR_BUS, PTR_HDCTL and the words from PTR_ENT to the end of PTR_HDESC, and nothing else. -/
theorem ptrRead_eq_none {d : Dev} {o : Nat} (halign : o % 4 = 0) (h : ¬ (o ≤ 8 ∨ o = 0x10 ∨ 0x400 ≤ o ∧ o < 0xA40)) :
    ptrRead d o = none := by
  have hbus : regArr o 0x004 2 = none := regArr_eq_none (by omega)
  have hent : regIdx o 0x400 16 64 = none := regIdx_eq_none (by omega)
  have hdesc : regArr o 0x800 144 = none := regArr_eq_none (by omega)
  simp only [ptrRead, hbus, hent, hdesc]
  split
  · omega
  · omega
  · rfl

/-- Offset 0x10 of PTR is PTR_HDCTL. -/
theorem regWrite_ptrHdctl (src : Nat) (w : Word) (otp : Otp) (d : Dev) : regWrite src .ptr 0x10 w otp d = hdctlWrite w d := rfl

/-- GO while a check runs, or with INDEX above 63, sets WERR and nothing else. -/
theorem hdctlWrite_dropped {w : Word} {d : Dev} (hgo : bit w 31 = true) (h : d.ptr.hdBusy = true ∨ 63 < fld w 0 8) :
    hdctlWrite w d = { d with ptr := { d.ptr with werr := true } } := by
  have hdrop : (d.ptr.hdBusy || decide (63 < fld w 0 8)) = true := by simpa using h
  rw [hdctlWrite, if_neg (by simp [hgo]), if_pos hdrop]

/-- Settles O58: an unlisted offset of PTR is not decoded, and a GO write that is dropped sets WERR, whether it is commanded or
comes as a host write of PTR_HDCTL, because its way across the mesh does not touch the PTR block. -/
theorem partnerRegisters : Obligations.PartnerRegisters := by
  unfold Obligations.PartnerRegisters
  intro s hlive listed
  refine ⟨fun o ho => ?_, fun w hgo hbad => ⟨?_, fun hway => ?_⟩⟩
  · exact unlisted_of_regVal_none hlive rfl (by simp) fun halign _ => ptrRead_eq_none halign fun h => ho ⟨halign, h⟩
  · rw [exec_ptrHdctlGo, execPtrHdctlGo, State.onDev_live s _ hlive, hdctlWrite_dropped hgo hbad]
  · have hblk : blockOf (0xC0010 : BitVec 30).toNat = some (.ptr, 0x10) := by decide
    rw [exec_registerWrite_of_domain_none hlive (by decide) hblk rfl (by simp) hway, regWrite_ptrHdctl,
      hdctlWrite_dropped hgo (by rwa [crossed_ptr])]
    rfl

end Sys2Proof.Machine
